-- ==== Sys2Proof/Word.lean ====
section
/-! DEFINITION. The quantities of the SW-2416 that the manual adds, compares or sends as bits (spec/00_scope.md,
"Fixed quantities" and "Conventions"), and serial comparison. -/

namespace Sys2Proof

/-- One byte of a management frame or of a fast-rate field. -/
abbrev Byte := BitVec 8

/-- A local round number (R2). -/
abbrev Round := BitVec 32

/-- A sequence number of a stream. -/
abbrev Seq := BitVec 16

/-- A table epoch (R57). -/
abbrev Epoch := BitVec 8

/-- A generation (spec/00_scope.md). -/
abbrev Gen := BitVec 4

/-- A station number 0-15. -/
abbrev StationNo := BitVec 4

/-- A stream tag, station number x 4 + port number. -/
abbrev Tag := BitVec 6

/-- Serial comparison (spec/00_scope.md): `b` is ahead of `a` when (b - a) mod 2^n lies in 1 … 2^(n-1) - 1. -/
def serialAhead {n : Nat} (a b : BitVec n) : Bool :=
  1 ≤ (b - a).toNat && (b - a).toNat < 2 ^ (n - 1)

/-- `a` equals `b` or is behind it. -/
def serialAtOrBehind {n : Nat} (a b : BitVec n) : Bool :=
  a == b || serialAhead a b

/-- The station a tag belongs to: the tag divided by 4, rounded down. -/
def tagStation (t : Tag) : StationNo := BitVec.ofNat 4 (t.toNat / 4)

end Sys2Proof
end

