-- ==== Sys2Proof/Syntax.lean ====
section
/-! DEFINITION. The commands of the SW-2416: one constructor of `Instr` for each row of spec/opcode_table.json, and the types
of their operands. What a lane carries enters as a reading: the bits or ticks as read, before any check of the station's own. -/

namespace Sys2Proof

/-- The two lanes of the span (spec/02_lanes.md). -/
inductive LaneId where
  | a | b
deriving DecidableEq, Repr

/-- The block ports P0-P3. -/
inductive Port where
  | p0 | p1 | p2 | p3
deriving DecidableEq, Repr

/-- One sampled tick of a mark reading (R5). -/
inductive TickLevel where
  | dominant | passive | violation
deriving DecidableEq, Repr

/-- What a lane carried in a mark field (R5): passive throughout with no edge; dominant throughout, with no passive level of a line element
or more (R41); eight sampled ticks from a candidate edge; or anything else, with both levels in it. -/
inductive MarkReading where
  | passiveThroughout
  | dominantThroughout
  | ticks (levels : List TickLevel)
  | other
deriving DecidableEq, Repr

/-- What a lane carried in the notice window (R31): passive from 800 to 1799; dominant throughout, with no passive level of a line element
or more (R41); seven clean lead-in ticks followed
by a start symbol and eight whole symbols, the 48 body bits and the 16 check bits as read; or anything else, with both levels in
it. -/
inductive NoticeReading where
  | passiveThroughout
  | dominantThroughout
  | frame (leadIn : BitVec 7) (body : BitVec 48) (check : BitVec 16)
  | other
deriving DecidableEq, Repr

/-- What a lane carried in a slot or in the repair window (R31): passive throughout; dominant throughout, with no passive level of a line
element or more (R41); a start symbol followed by
whole symbols, the 64 header bits, the header check, the payload bytes and the block check as read; or anything else, with both
levels in it. -/
inductive BlockReading where
  | passiveThroughout
  | dominantThroughout
  | frame (header : BitVec 64) (headerCheck : BitVec 16) (payload : List Byte) (blockCheck : BitVec 32)
  | other
deriving DecidableEq, Repr

/-- What a lane carried in the answer field: for each accept position, and for the dissent position, whether the lane was
dominant for at least 20 continuous units within it (R31). -/
structure AnswerReading where
  accepts : BitVec 16
  dissent : Bool
deriving DecidableEq, Repr

/-- A stretch of one level on a lane, with its length in nanoseconds. -/
structure LevelRun where
  dominant : Bool
  length   : Nat
deriving DecidableEq, Repr

/-- The two lead-ins of a round (R25). -/
inductive LeadInField where
  | noticeWindow | repairWindow
deriving DecidableEq, Repr

/-- The framed reports of R38 that a front end gives its monitor. -/
inductive ViolationKind where
  /-- a code violation in a fast-rate field or a lead-in tick (R20, R25) -/
  | field
  /-- a change of level in a guard interval (R20) -/
  | guardInterval
  /-- a mark tick read as a code violation (R5) -/
  | mark
deriving DecidableEq, Repr

/-- Why a management frame is discarded (R178, R194). -/
inductive FrameFlaw where
  | badCheck | tooShort | duringReply
deriving DecidableEq, Repr

/-- The steps that the blocks take at one local round start (spec/95_what_each_step_holds.md, ROUND_START). -/
inductive RoundStep where
  /-- rounds in state and continuation phase of the lane monitors (R47) -/
  | monitors
  /-- ages of the heard set (R65) -/
  | heard
  /-- playout of the receive entries (R149) -/
  | playout
  /-- waits of the asked gap runs (R155) -/
  | askWaits
  /-- the controller's counts: start-up (R163, R164), alone (R165, R166), dark rounds (R169) -/
  | counts
  /-- learning round count and completion (R70, R71, R96, R165, R177) -/
  | learning
  /-- claim runs that become slot runs, and RELEASE offers still due (R80, R110, R120, R121) -/
  | runs
  /-- held rounds and the HELD limit (R119) -/
  | held
  /-- offers of reclaim runs (R75) -/
  | reclaims
  /-- the repair asker (R153) -/
  | asker
  /-- the limit of queued CLAIMs (R83) -/
  | claimLimit
  /-- revalidation of the head notice (R82) -/
  | revalidate
  /-- selection of the notice in flight (R84) -/
  | select
  /-- the orphan list (R167) -/
  | orphans
  /-- rewrite of the retained context (R176) -/
  | rewrite
deriving DecidableEq, Repr

/-- The order in which the steps of one round start are taken, and whether the send engine or the receive engine meets a change
of the live table first (R183): the orders that R80, R82, R153, R176 and R183 leave open (log 5, 6). -/
structure RoundOrder where
  steps : List RoundStep
  sendFirst : Bool
deriving DecidableEq, Repr

/-- The blocks that use the merged notice result (R35). -/
inductive CloseStep where
  | slotTable | noticeEngine | controller
deriving DecidableEq, Repr

/-- The order in which the blocks take the notice window close, and the lane whose notice is tested first in a
DIVERGENT result (R64). -/
structure CloseOrder where
  steps : List CloseStep
  first : LaneId
deriving DecidableEq, Repr

/-- The blocks that act at a slot pass (R35, R117). -/
inductive PassStep where
  | slotTable | sendEngine | receiveEngine | controller
deriving DecidableEq, Repr

/-- The commands of spec/opcode_table.json, in the order of its rows. -/
inductive Instr where
  | openSend (port count cls priority : Byte)
  | openReceive (port tag : Byte) (delay : BitVec 16) (cls : Byte)
  | close (entry : Byte)
  | readStream (entry : Byte)
  | readLanes
  | readSlot (slot : Byte)
  | readStation
  | takeEvents (n : Byte)
  | setAlertMask (causes : Byte)
  | clearAlert (causes : Byte)
  | holdLane (lane hold : Byte)
  | unknownRequestKind (kind : Byte)
  | frameDiscarded (flaw : FrameFlaw)
  | frameIdleTimeout
  | replyFrameSent
  | roundTimerExpiry (order : RoundOrder)
  | earlyWindowEdge (lane : LaneId) (reading : Nat) (order : RoundOrder)
  | lateWindowEdge (lane : LaneId) (reading : Nat)
  | deferralPoint
  | openSearchAdoption (lane : LaneId) (otherLane : MarkReading) (leadInFirst : Bool) (order : RoundOrder)
  | markClose (a b : MarkReading) (leadInFirst : Bool)
  | seventhLeadInTick (field : LeadInField)
  | arbitrationLoss (field : LeadInField) (tick : Fin 7) (lane : LaneId)
  | driveFault (field : LeadInField) (tick : Fin 7) (lane : LaneId)
  | echoMismatch (lane : LaneId) (reading : Nat)
  | echoMeasurement (lane : LaneId) (value : BitVec 8) (reading : Nat)
  | echoLate (lane : LaneId) (reading : Nat)
  | noticeWindowClose (a b : NoticeReading) (order : CloseOrder)
  | answerClose (a b : AnswerReading) (sendFirst : Bool)
  | repairWindowClose (a b : BlockReading)
  | slotStart (slot : Fin 24)
  | resendSent
  | slotPass (slot : Fin 24) (a b : BlockReading) (order : List PassStep)
  | windowClose (first : LaneId) (runA runB : Nat) (reading : Nat)
  | longRun (lane : LaneId) (reading : Nat)
  | heldRun (lane : LaneId) (reading : Nat)
  | codeViolation (lane : LaneId) (kind : ViolationKind) (reading : Nat)
  | uncleanStretch (lane : LaneId) (activity : List LevelRun)
  | lengthWord (port : Port) (value : Nat)
  | dataByte (port : Port) (byte : Byte)
  | outHalfItemTaken (port : Port)
  | supplyWarn
  | supplyOk
  | supplyReset
  | backupSupplyLow
  | powerOnReset
  | pinReset
  | resetRelease (straps : BitVec 10) (aboveWarn : Bool)
  | openSearchEdge (lane : LaneId) (reading : Nat) (passiveFor : Nat)
deriving DecidableEq, Repr

end Sys2Proof
end

