-- ==== Sys2Proof/Config.lean ====
section
/-! DEFINITION. What the part fixes: capacities, readings and limits (spec/00_scope.md "Fixed quantities", spec/01 section 1.1).
No free value stands here: the manual leaves orders open and values to the outside, and both are operands of
the commands (log 5). -/

namespace Sys2Proof.Config

/-- Units of 10 ns in a round that runs to expiry (R1). -/
def roundUnits : Nat := 25000
/-- Units in one tick, and in one step of the window counter (R37). -/
def tickUnits : Nat := 100
/-- Reading of mark close (section 1.1). -/
def markCloseAt : Nat := 800
/-- Reading of the end of the notice lead-in (R19). -/
def noticeBodyAt : Nat := 1500
/-- Reading of the end of a notice body: 9 symbols of 2 units after 1500 (R20). -/
def noticeBodyEnd : Nat := 1518
/-- Reading of notice window close. -/
def noticeCloseAt : Nat := 1800
/-- Reading at which the dissent position begins (R93). -/
def dissentAt : Nat := 3400
/-- Reading of answer close. -/
def answerCloseAt : Nat := 3500
/-- Reading of the first tick of the repair lead-in (R25, R130). -/
def repairLeadInAt : Nat := 3600
/-- Reading of the end of the repair lead-in (R19). -/
def repairBlockAt : Nat := 4300
/-- Reading of repair window close. -/
def repairCloseAt : Nat := 5000
/-- Reading of the start of slot n: 5000 + 800n. -/
def slotStartAt (n : Nat) : Nat := 5000 + 800 * n
/-- Reading of the first symbol of the block of slot n: 5100 + 800n (R19). -/
def slotSymbolAt (n : Nat) : Nat := 5100 + 800 * n
/-- Reading of the pass of slot n: 5800 + 800n. -/
def slotPassAt (n : Nat) : Nat := 5800 + 800 * n
/-- The reading of field event k of a round (R3): mark close, notice window close, answer close, repair window close, the passes of slots
0 to 23; event 28 is the expiry (R1). -/
def eventAt : Nat → Nat
  | 0 => markCloseAt
  | 1 => noticeCloseAt
  | 2 => answerCloseAt
  | 3 => repairCloseAt
  | n + 4 => slotPassAt n
/-- The number of the expiry among the events of a round. -/
def expiryEvent : Nat := 28
/-- Ticks of a chatter window (R37). -/
def windowTicks : Nat := 256
/-- Farthest a start symbol may begin from the nominal start of its field (R20). -/
def startTolerance : Nat := 40
/-- Nanoseconds of a line element, the shortest passive level that returns the dominant-run timer to 0 (R20, R41). -/
def lineElement : Nat := 2
/-- Nanoseconds of one level that end a stretch of level changes: 30 units (R39). -/
def steadyTime : Nat := 300
/-- First reading of the early window (R6). -/
def earlyWindowAt : Nat := 24800
/-- Slots of a round. -/
def slots : Nat := 24
/-- Limit of a good echo delay (R24). -/
def echoLimit : Nat := 60
/-- A long run in units of 10 ns (R41). -/
def longRun : Nat := 1200
/-- A held run in units of 10 ns (R41). -/
def heldRun : Nat := 50000
/-- Silent count at which reclaim detection acts (R74). -/
def reclaimSilence : Nat := 512
/-- Places of the outgoing notice queue (R79). -/
def noticeQueueSize : Nat := 8
/-- Places of the re-send queue (R126). -/
def resendQueueSize : Nat := 64
/-- Records of the event queue (R183). -/
def eventQueueSize : Nat := 32
/-- Places of a port FIFO half (R111, R150). -/
def fifoSize : Nat := 8
/-- Runs of a gap list (R151). -/
def gapListSize : Nat := 16
/-- Block buffers of the block store (R106). -/
def blockStore : Nat := 4096
/-- Rounds a CLAIM may stay queued (R83). -/
def claimLimit : Nat := 64
/-- Rounds a HELD entry waits for adoption (R119). -/
def heldLimit : Nat := 4096
/-- Rounds of STARTING (R163). -/
def startRounds : Nat := 16
/-- The alone limit (R166) and the dark limit (R170), in rounds. -/
def aloneLimit : Nat := 64
/-- Rounds after which learning completes at the latest (R70). -/
def learnRounds : Nat := 8
/-- Rounds an accepted ask waits (R155). -/
def askWait : Nat := 32
/-- Least distance of a due round for an ask (R82, R153). -/
def askLead : Nat := 8

end Sys2Proof.Config
end

