-- ==== Sys2Proof/Machine/State.lean ====
section
/-! DEFINITION. The state of the station: every piece of state the manual names, grouped by the block that owns it
(spec/00_scope.md, "Block overview"), the queue of waiting commands, and the state of a station in power-on reset. -/

namespace Sys2Proof.Machine

open Sys2Proof

/-- Why a step stops. The manual stops the station at nothing; this one reason is the model's own. -/
inductive Fault where
  /-- Raised by the meaning of a command whose operands `Instr.wellFormed` refuses: an order of steps the manual does not admit,
  or an "unknown" request kind that R179 has. Safe: no hardware event corresponds to it. -/
  | illFormedCommand
deriving DecidableEq, Repr

/-- Why a command has no meaning. -/
inductive Refusal where
  /-- Raised by an arm of `exec` whose command has no meaning yet (none is left). Safe. -/
  | notModelled (mnemonic : String)
deriving DecidableEq, Repr

/-- One value for each lane, lane A listed before lane B. -/
structure PerLane (α : Type) where
  a : α
  b : α
deriving DecidableEq, Repr

/-- One value for each port P0-P3. -/
structure PerPort (α : Type) where
  p0 : α
  p1 : α
  p2 : α
  p3 : α
deriving DecidableEq, Repr

/-- Consecutive slots: a first slot and a count. -/
structure Run where
  first : Nat
  count : Nat
deriving DecidableEq, Repr

/-! ### Enumerations, in the order of their codes (section 11.6) -/

/-- Station modes (R162). -/
inductive Mode where
  | starting | listening | joined | resync | dark | faulted
deriving DecidableEq, Repr

/-- Causes of a mode change (R162). -/
inductive ModeCause where
  | startDone | darkOnset | noLane | learned | alone | epochAhead | answersLost | darkEnd | duplicate
deriving DecidableEq, Repr

/-- Lane states (section 3.1). -/
inductive LaneState where
  | off | clear | suspect | surge | settling
deriving DecidableEq, Repr

/-- Surge causes (section 3.1). -/
inductive SurgeCause where
  | chatter | long | held | drive | echoLate
deriving DecidableEq, Repr

/-- Drive states of a front end (R22). -/
inductive DriveState where
  | notDriving | contending | driving | withdrawn | cut
deriving DecidableEq, Repr

/-- States of a send entry (R105). -/
inductive SendState where
  | closed | claiming | live | held | releasing
deriving DecidableEq, Repr

/-- How a RELEASING entry got there (R105). -/
inductive ReleasePath where
  | fromClaim | fromLive | fromHeld
deriving DecidableEq, Repr

/-- Retention classes: 128, 256, 512, 1024 blocks. -/
inductive RetClass where
  | r128 | r256 | r512 | r1024
deriving DecidableEq, Repr

/-- Window classes: 256, 512, 1024, 2048 blocks. -/
inductive WinClass where
  | w256 | w512 | w1024 | w2048
deriving DecidableEq, Repr

/-- States of a receive entry (R139). -/
inductive RecvState where
  | closed | waiting | active
deriving DecidableEq, Repr

/-- Supply states (R173). -/
inductive Supply where
  | ok | warn
deriving DecidableEq, Repr

/-- Reasons of FAULTED (R172). -/
inductive FaultReason where
  | duplicate | noLane
deriving DecidableEq, Repr

/-- Reasons of a refusal (R102). -/
inductive RefuseReason where
  | noSlots | dissent | timeout
deriving DecidableEq, Repr

/-- Reasons of REPAIR_GONE (R154, R155). -/
inductive GoneReason where
  | dissent | limit
deriving DecidableEq, Repr

/-- Notice kinds (R78), in the order of the body's code. -/
inductive NoticeKind where
  | claim | release | reclaim | repairAsk
deriving DecidableEq, Repr

/-- Reply codes (section 10.2). -/
inductive ReplyCode where
  | done | started | busy | badArg | noRoom | noSlots | notJoined | portTaken | notOpen
deriving DecidableEq, Repr

/-! ### What travels on the span -/

/-- The fields of a notice body (section 11.3). -/
structure NoticeBody where
  kind   : NoticeKind
  epoch  : Epoch
  tag    : Tag
  target : StationNo
  first  : BitVec 16
  count  : BitVec 5
deriving DecidableEq, Repr

/-- A notice as read: its lead-in value and its body (R31). -/
structure Notice where
  leadIn : BitVec 7
  body   : NoticeBody
deriving DecidableEq, Repr

/-- The fields of a block header (section 11.4). -/
structure BlockHeader where
  owner  : StationNo
  tag    : Tag
  gen    : Gen
  seq    : Seq
  fill   : Bool
  resend : Bool
  index  : BitVec 5
  epoch  : Epoch
  length : BitVec 9
deriving DecidableEq, Repr

/-- A block as driven or as read: header, payload, block check. -/
structure Block where
  header  : BlockHeader
  payload : List Byte
  check   : BitVec 32
deriving DecidableEq, Repr

/-! ### Events and replies -/

/-- The outcome record of a notice (R102). The dissent reading is present with the accept bitmap. -/
structure OutcomeRecord where
  kind    : NoticeKind
  tag     : Tag
  run     : Run
  attempt : Nat
  answer  : Option (BitVec 16 × Bool)
  heard   : List Bool
deriving DecidableEq, Repr

/-- The cases of PORT_ERROR (R113, R150). -/
inductive PortCase where
  | overrun | lengthInAssembly | badLength | overflow (seq : Seq)
deriving DecidableEq, Repr

/-- The eighteen kinds of event with subject and detail (R182), in the order of their codes. Send entry p and receive
entry 4 + p are named by their port. -/
inductive Event where
  | modeChanged (previous new : Mode) (cause : ModeCause)
  | laneChanged (lane : LaneId) (previous new : LaneState) (cause : Option SurgeCause)
  | surgeContinues (lane : LaneId) (cause : Option SurgeCause) (rounds : Nat)
  | resyncDone (epoch : Epoch) (converted : Nat)
  | streamLive (port : Port) (outcome : OutcomeRecord)
  | streamRefused (port : Port) (reason : RefuseReason) (outcome : OutcomeRecord)
  | streamClosed (port : Port) (outcome : Option OutcomeRecord)
  | slotsLost (port : Port) (run : Run) (epoch : Epoch)
  | heldReleased (port : Port) (run : Run)
  | receiveActive (port : Port) (tag : Tag) (run : Run)
  | receiveWaiting (port : Port) (tag : Tag)
  | rebased (port : Port) (old new : Gen) (first : Seq)
  | blocksLost (port : Port) (first : Seq) (count : Nat) (gen : Gen)
  | repairGone (port : Port) (first : Seq) (count : Nat) (reason : GoneReason)
  | sendPortError (port : Port) (which : PortCase)
  | recvPortError (port : Port) (which : PortCase)
  | supplyWarn
  | supplyOk
  | fault (reason : FaultReason)
deriving DecidableEq, Repr

/-- An event record: the event, and the low 16 bits of the local round number when it was given (R182). -/
structure EventRecord where
  round : BitVec 16
  event : Event
deriving DecidableEq, Repr

/-- The record of a send entry (R124), as it stood when the request was taken. -/
structure SendRecord where
  port          : Port
  state         : SendState
  tag           : Tag
  priority      : Option (BitVec 3)
  cls           : Option RetClass
  requested     : Option Nat
  claimRun      : Option Run
  slotRun       : Option Run
  releasePath   : Option ReleasePath
  gen           : Gen
  nextSeq       : Seq
  reservation   : Option Nat
  retained      : Option Nat
  oldest        : Option Seq
  heldRounds    : Option Nat
  places        : Nat
  byteCounter   : Nat
deriving DecidableEq, Repr

/-- An ASKED run's ask (R151). -/
structure Ask where
  lastRound : Round
  reach     : Seq
deriving DecidableEq, Repr

/-- A run of the gap list (R151): UNASKED when `ask` is absent, ASKED when it is present. -/
structure GapRun where
  first    : Seq
  count    : Nat
  asksUsed : Nat
  ask      : Option Ask
deriving DecidableEq, Repr

/-- The record of a receive entry (R160), as it stood when the request was taken. -/
structure RecvRecord where
  port         : Port
  state        : RecvState
  tag          : Option Tag
  delay        : Option Nat
  cls          : Option WinClass
  reservation  : Option Nat
  anchored     : Option Bool
  gen          : Option Gen
  nextExpected : Option Seq
  nextPlayout  : Option Seq
  depth        : Option Nat
  heldCount    : Option Nat
  missingCount : Option Nat
  gaps         : Option (List GapRun)
  items        : Nat
  overflow     : Bool
deriving DecidableEq, Repr

/-- A lane record (R180). -/
structure LaneRecord where
  lane      : LaneId
  state     : LaneState
  cause     : Option SurgeCause
  echoDelay : BitVec 8
  hold      : Bool
  rounds    : Nat
deriving DecidableEq, Repr

/-- The last disagreeing header of a slot (section 4.1). -/
structure Mismatch where
  owner : StationNo
  tag   : Tag
  epoch : Epoch
deriving DecidableEq, Repr

/-- What a slot is: OPEN, OWNED by one station with one tag, or UNKNOWN (R56). -/
inductive SlotUse where
  | openSlot
  | owned (owner : StationNo) (tag : Tag)
  | unknown
deriving DecidableEq, Repr

/-- An entry of the live table (section 4.1). -/
structure SlotEntry where
  use          : SlotUse
  silent       : Nat
  lastValid    : Bool
  reclaim      : Bool
  mismatches   : Nat
  lastMismatch : Option Mismatch
deriving DecidableEq, Repr

/-- The slot record (R76). -/
structure SlotRecord where
  slot  : Nat
  entry : SlotEntry
  epoch : Epoch
deriving DecidableEq, Repr

/-- A set of alert causes. -/
structure Causes where
  events : Bool
  surge  : Bool
  loss   : Bool
  supply : Bool
  fault  : Bool
deriving DecidableEq, Repr

/-- The station record (R181). -/
structure StationRecord where
  mode        : Mode
  station     : StationNo
  epoch       : Epoch
  pacing      : Bool
  capture     : Nat
  heard       : List Nat
  valid       : Bool
  supply      : Supply
  faultReason : Option FaultReason
  latched     : Causes
  mask        : Causes
  alertLine   : Bool
deriving DecidableEq, Repr

/-- What a reply carries beside its code. -/
inductive ReplyContent where
  | none
  | heldCount (count : Nat)
  | newState (state : RecvState)
  | send (record : SendRecord)
  | recv (record : RecvRecord)
  | lanes (a b : LaneRecord)
  | slot (record : SlotRecord)
  | station (record : StationRecord)
  | events (records : List EventRecord) (overrun : Bool) (left : Nat)
deriving DecidableEq, Repr

/-- A reply frame (section 11.6). -/
structure Reply where
  code    : ReplyCode
  content : ReplyContent
deriving DecidableEq, Repr

/-! ### The blocks -/

/-- Which resets hold (R174, R175). `backupLow` says that the backup supply was told below its threshold: the comparator reads it while a
supply reset holds, wherever the fall came first (R174; log 68). No reset clears it but a power-on reset. -/
structure ResetHold where
  powerOn   : Bool
  pin       : Bool
  supply    : Bool
  backupLow : Bool
deriving DecidableEq, Repr

/-- The round clock (section 1.1). `closed` is the number of field events of the round that have occurred (R3); `lateWindow`,
`edgeTaken` and `drove` are the clock's standing within its round (R5, R8 to R12); `phase` is the place of the local time base within
one window tick, and 100 at a window close that is due (R37). -/
structure Clock where
  timer      : Nat
  round      : Round
  capture    : Nat
  pacing     : Bool
  validCount : Nat
  closed     : Nat
  lateWindow : Bool
  edgeTaken  : Bool
  drove      : Bool
  phase      : Nat
deriving DecidableEq, Repr

/-- An open-search reading (R14): the timer reading at its edge, the units that had passed at the last round start, and whether a round
start came since the edge. -/
structure Search where
  edge    : Nat
  carried : Nat
  crossed : Bool
deriving DecidableEq, Repr

/-- Which report the dominant run in progress has given (R41). -/
inductive RunReport where
  | none | long | held
deriving DecidableEq, Repr

/-- One lane: its front end (chapter 2), its monitor (chapter 3) and the copy selector's view of it in the field in
progress (R31). `dominant` says that the lane was last read dominant, since `run` units (R41); `drove` that a drive was started on it
in the field (R32); `cutAt` is the reading at which a surge entry (R43, R46) or a mismatch of the mark (R11) cut that drive; `admitted`
that the lane has been transmit-usable since the field began (R21). -/
structure Lane where
  state         : LaneState
  cause         : Option SurgeCause
  echoOwed      : Bool
  windowCounter : Nat
  violations    : Nat
  windowHeld    : Bool
  run           : Nat
  dominant      : Bool
  reported      : RunReport
  quiet         : Nat
  marks         : Nat
  rounds        : Nat
  contPhase     : Nat
  drive         : DriveState
  echoDelay     : BitVec 8
  measuring     : Bool
  hold          : Bool
  contributing  : Bool
  admitted      : Bool
  usableSince   : Option Nat
  lostAt        : Option Nat
  cutAt         : Option Nat
  drove         : Bool
  fieldFlaw     : Bool
  guardFlaw     : Bool
  markSpoiled   : Bool
  search        : Option Search
deriving DecidableEq, Repr

/-- What the front ends drive, or contend with, in the field in progress (R19). -/
inductive DriveContent where
  | none
  | mark
  | leadIn (field : LeadInField)
  | noticeBody
  | accept
  | dissent
  | block (b : Block)
deriving DecidableEq, Repr

/-- The drive of the field in progress, station-wide: its content, the lead-in value contended with (R25), whether arbitration
was lost (R26 to R28), the block handed over for a slot (R116, R133), and the block whose drive was started in the slot (R171). -/
structure FieldDrive where
  content : DriveContent
  leadIn  : Option (BitVec 7)
  lost    : Bool
  handed  : Option (Nat × Block)
  drove   : Option Block
deriving DecidableEq, Repr

/-- An entry of the learned table, with its carry mark (R66, R68). -/
structure LearnedEntry where
  use     : SlotUse
  carried : Bool
deriving DecidableEq, Repr

/-- A carried run (R66). -/
structure CarriedRun where
  run     : Run
  tag     : Tag
  pending : Bool
  broken  : Bool
deriving DecidableEq, Repr

/-- The state of learning while LEARNING (R66). -/
structure Learning where
  table   : List LearnedEntry
  epoch   : Option Epoch
  rounds  : Nat
  carried : List CarriedRun
deriving DecidableEq, Repr

/-- The slot table (section 4.1). Learning is IDLE when `learning` is absent. -/
structure SlotTable where
  live     : List SlotEntry
  epoch    : Epoch
  heard    : List Nat
  learning : Option Learning
deriving DecidableEq, Repr

/-- Which block offered a notice (R79). -/
inductive Origin where
  | send (port : Port)
  | recv (port : Port)
  | slotTable
  | controller
deriving DecidableEq, Repr

/-- A queued notice (R79). `lastSent` is the run of its last completed sending (R102). -/
structure Queued where
  kind        : NoticeKind
  priority    : BitVec 3
  tag         : Tag
  target      : StationNo
  first       : BitVec 16
  count       : BitVec 5
  origin      : Origin
  attempt     : Nat
  queuedRound : Option Round
  inFlight    : Bool
  withdrawn   : Bool
  pending     : Bool
  lastSent    : Option Run
deriving DecidableEq, Repr

/-- The notice in flight (R84): its lead-in value, its stamped body, and the lanes its body was sent on (R28). -/
structure Flight where
  leadIn : BitVec 7
  body   : NoticeBody
  sent   : PerLane Bool
deriving DecidableEq, Repr

/-- What the station answers with in the answer field (R86, R97). -/
inductive AnswerPlan where
  | accept | dissent | rollCall
deriving DecidableEq, Repr

/-- A tentative change (R88 to R90). -/
structure Tentative where
  kind  : NoticeKind
  run   : Run
  owner : StationNo
  tag   : Tag
deriving DecidableEq, Repr

/-- The last answer record (R94). -/
structure AnswerRecord where
  read    : Bool
  accepts : BitVec 16
  dissent : Bool
deriving DecidableEq, Repr

/-- The notice engine (section 5.1). The pending claim is the queued CLAIM whose `pending` flag is set; `sentNotice` says that the station
sent a completed notice in the round (R95). -/
structure NoticeEngine where
  queue      : List Queued
  flight     : Option Flight
  plan       : Option AnswerPlan
  rollCall   : Bool
  tentative  : Option Tentative
  lastAnswer : Option AnswerRecord
  sentNotice : Bool
deriving DecidableEq, Repr

/-- A retained block (R115). Its length is that of its payload. -/
structure Retained where
  seq     : Seq
  gen     : Gen
  fill    : Bool
  payload : List Byte
  check   : BitVec 32
deriving DecidableEq, Repr

/-- A complete block waiting in an in-half FIFO (R112). -/
structure PortBlock where
  payload : List Byte
  check   : BitVec 32
deriving DecidableEq, Repr

/-- The block being assembled at an in half: its length word and the bytes given so far (R111, R112). -/
structure Assembly where
  length  : Nat
  payload : List Byte
deriving DecidableEq, Repr

/-- A send entry (R105). `overrun` is a run of overrun bytes in progress (R113), `releaseDue` a RELEASE still to be offered
(R80, R121), `served` the slot served at its slot start whose pass is to come (R117). -/
structure SendEntry where
  state       : SendState
  priority    : Option (BitVec 3)
  requested   : Option Nat
  claimRun    : Option Run
  slotRun     : Option Run
  releasePath : Option ReleasePath
  gen         : Gen
  nextSeq     : Seq
  cls         : Option RetClass
  ring        : List Retained
  heldRounds  : Option Nat
  fifo        : List PortBlock
  assembly    : Option Assembly
  overrun     : Bool
  releaseDue  : Bool
  served      : Option Nat
deriving DecidableEq, Repr

/-- An entry of the re-send queue (section 7.1). -/
structure Resend where
  tag      : Tag
  seq      : Seq
  priority : BitVec 3
deriving DecidableEq, Repr

/-- The repair service (section 7.1). -/
structure Repair where
  queue : List Resend
  turn  : Bool
deriving DecidableEq, Repr

/-- An unplayed place of a playout window: HELD when it holds a block (FILL flag and payload), MISSING otherwise (R140). -/
structure Place where
  block : Option (Bool × List Byte)
  seq   : Seq
  gen   : Gen
  due   : Round
deriving DecidableEq, Repr

/-- The anchor of a receive entry (R139, R142). -/
structure Anchor where
  gen         : Gen
  nextPlayout : Seq
  nextPlace   : Nat
deriving DecidableEq, Repr

/-- An open receive stream (R139): ACTIVE or WAITING, its parameters, its anchor, the unplayed places of its window read from the
next playout place (every other place is EMPTY, R140), and its gap list. -/
structure RecvStream where
  active : Bool
  tag    : Tag
  delay  : Nat
  cls    : WinClass
  anchor : Option Anchor
  window : List Place
  gaps   : List GapRun
deriving DecidableEq, Repr

/-- An item of an out-half FIFO (R150). -/
inductive OutItem where
  | block (payload : List Byte)
  | lossMarker
deriving DecidableEq, Repr

/-- A receive entry: CLOSED when `stream` is absent (R139). -/
structure RecvEntry where
  stream   : Option RecvStream
  out      : List OutItem
  overflow : Bool
deriving DecidableEq, Repr

/-- Fault policies (R27). -/
inductive FaultPolicy where
  | arb | fault
deriving DecidableEq, Repr

/-- The option word (R163). -/
structure OptionWord where
  station : StationNo
  laneA   : Bool
  laneB   : Bool
  policy  : FaultPolicy
  pacing  : Bool
  chatter : BitVec 2
deriving DecidableEq, Repr

/-- A record of the retained context (R176). -/
structure ContextRecord where
  port     : Port
  tag      : Tag
  run      : Run
  priority : BitVec 3
  gen      : Gen
  cls      : RetClass
deriving DecidableEq, Repr

/-- The retained context, in the backup supply domain (R176). -/
structure Context where
  station : StationNo
  records : List ContextRecord
  valid   : Bool
  frozen  : Bool
deriving DecidableEq, Repr

/-- A run of the orphan list (R167). -/
structure Orphan where
  run : Run
  tag : Tag
deriving DecidableEq, Repr

/-- The station controller (section 9.1). -/
structure Controller where
  mode        : Mode
  option      : OptionWord
  startCount  : Option Nat
  alone       : Option Nat
  lockTaken   : Option Bool
  darkRounds  : Option Nat
  returnMode  : Option Mode
  orphans     : List Orphan
  faultReason : Option FaultReason
  supply      : Supply
  context     : Context
deriving DecidableEq, Repr

/-- The management port (section 10.1), with the reply being sent while a transaction is open (R178). The SUPPLY flag of `mask` is never
set and the EVENTS flag of `latched` is never set (R185, R186). -/
structure Management where
  events  : List EventRecord
  overrun : Bool
  latched : Causes
  mask    : Causes
  reply   : Option Reply
deriving DecidableEq, Repr

/-- The station. `pending` is the model's own: the commands that wait, first in, first out. -/
structure State where
  pending : List Instr
  hold    : ResetHold
  clock   : Clock
  lanes   : PerLane Lane
  drive   : FieldDrive
  table   : SlotTable
  notices : NoticeEngine
  send    : PerPort SendEntry
  repair  : Repair
  recv    : PerPort RecvEntry
  ctrl    : Controller
  mgmt    : Management
deriving DecidableEq, Repr

/-! ### Reset values, block by block -/

/-- The round clock after any reset (R18). -/
def Clock.reset : Clock :=
  { timer := 0, round := 0, capture := 0, pacing := false, validCount := 0, closed := 0, lateWindow := false,
    edgeTaken := false, drove := false, phase := 0 }

/-- A lane after any reset (R22, R24, R30, R35, R55): CLEAR if the option word enables it, OFF if not. -/
def Lane.reset (enabled : Bool) : Lane :=
  { state := if enabled then .clear else .off, cause := none, echoOwed := false, windowCounter := 0, violations := 0,
    windowHeld := false, run := 0, dominant := false, reported := .none, quiet := 0, marks := 0, rounds := 0, contPhase := 0,
    drive := .notDriving, echoDelay := 0, measuring := false, hold := false, contributing := false, admitted := false, usableSince := none,
    lostAt := none, cutAt := none, drove := false, fieldFlaw := false, guardFlaw := false, markSpoiled := false, search := none }

/-- No drive and no copies held (R22, R35). -/
def FieldDrive.idle : FieldDrive := { content := .none, leadIn := none, lost := false, handed := none, drove := none }

/-- An entry set afresh (R56). -/
def SlotEntry.fresh (u : SlotUse) : SlotEntry :=
  { use := u, silent := 0, lastValid := false, reclaim := false, mismatches := 0, lastMismatch := none }

/-- The slot table after any reset (R77). -/
def SlotTable.reset : SlotTable :=
  { live := List.replicate 24 (SlotEntry.fresh .unknown), epoch := 0, heard := List.replicate 16 256, learning := none }

/-- The notice engine after any reset (R104). -/
def NoticeEngine.reset : NoticeEngine :=
  { queue := [], flight := none, plan := none, rollCall := false, tentative := none, lastAnswer := none,
    sentNotice := false }

/-- A send entry after any reset (R125). -/
def SendEntry.reset : SendEntry :=
  { state := .closed, priority := none, requested := none, claimRun := none, slotRun := none, releasePath := none, gen := 0,
    nextSeq := 0, cls := none, ring := [], heldRounds := none, fifo := [], assembly := none, overrun := false,
    releaseDue := false, served := none }

/-- The repair service after any reset (R138). -/
def Repair.reset : Repair := { queue := [], turn := false }

/-- A receive entry after any reset (R161). -/
def RecvEntry.reset : RecvEntry := { stream := none, out := [], overflow := false }

/-- The same value at each port. -/
def PerPort.all {α : Type} (x : α) : PerPort α := { p0 := x, p1 := x, p2 := x, p3 := x }

/-- No cause. -/
def Causes.empty : Causes := { events := false, surge := false, loss := false, supply := false, fault := false }

/-- The management port after any reset (R189). -/
def Management.reset : Management :=
  { events := [], overrun := false, latched := .empty, mask := .empty, reply := none }

/-- The option word of ten straps read low: the model's value before the straps are first sampled (DESIGN CHOICE, log 1). -/
def OptionWord.unsampled : OptionWord :=
  { station := 0, laneA := false, laneB := false, policy := .arb, pacing := false, chatter := 0 }

/-- No record, validity clear, freeze clear: the retained context of a power-on reset (R175). -/
def Context.empty : Context := { station := 0, records := [], valid := false, frozen := false }

/-- The station controller after any reset, with the option word and the retained context that stand (R162, R175). -/
def Controller.reset (o : OptionWord) (c : Context) : Controller :=
  { mode := .starting, option := o, startCount := some 0, alone := none, lockTaken := none, darkRounds := none,
    returnMode := none, orphans := [], faultReason := none, supply := .ok, context := c }

/-- All core state at its reset values, as each chapter states for its block (R174); the queue of commands is kept. -/
def State.cleared (h : ResetHold) (o : OptionWord) (c : Context) (pending : List Instr) : State :=
  { pending := pending, hold := h, clock := .reset, lanes := { a := .reset o.laneA, b := .reset o.laneB }, drive := .idle,
    table := .reset, notices := .reset, send := .all .reset, repair := .reset, recv := .all .reset,
    ctrl := .reset o c, mgmt := .reset }

/-- The station in power-on reset: given, and not yet released (R175; log 1). RESET_RELEASE starts it. -/
def State.reset : State :=
  State.cleared { powerOn := true, pin := false, supply := false, backupLow := false } .unsampled .empty []

end Sys2Proof.Machine
end

