-- ==== Sys2Proof/Machine/Flags.lean ====
section
/-! DEFINITION. The views computed from the state: usability of lanes (R11, R21), the DARK condition (R54), the alert line (R188),
the ready lines (R111), reservations (R105, R106), and the accessors of the per-lane and per-port records. -/

namespace Sys2Proof.Machine

open Sys2Proof

/-! ### Lanes and ports -/

/-- The value of one lane. -/
def PerLane.get {α : Type} (x : PerLane α) : LaneId → α
  | .a => x.a
  | .b => x.b

/-- The record with one lane's value replaced. -/
def PerLane.set {α : Type} (x : PerLane α) (l : LaneId) (v : α) : PerLane α :=
  match l with
  | .a => { x with a := v }
  | .b => { x with b := v }

/-- The record with both lanes' values mapped. -/
def PerLane.map {α β : Type} (f : α → β) (x : PerLane α) : PerLane β := { a := f x.a, b := f x.b }

/-- Some lane satisfies the test. -/
def PerLane.any {α : Type} (f : α → Bool) (x : PerLane α) : Bool := f x.a || f x.b

/-- The other lane. -/
def otherLane : LaneId → LaneId
  | .a => .b
  | .b => .a

/-- The value at one port. -/
def PerPort.get {α : Type} (x : PerPort α) : Port → α
  | .p0 => x.p0
  | .p1 => x.p1
  | .p2 => x.p2
  | .p3 => x.p3

/-- The record with one port's value replaced. -/
def PerPort.set {α : Type} (x : PerPort α) (p : Port) (v : α) : PerPort α :=
  match p with
  | .p0 => { x with p0 := v }
  | .p1 => { x with p1 := v }
  | .p2 => { x with p2 := v }
  | .p3 => { x with p3 := v }

/-- The record with every port's value mapped. -/
def PerPort.map {α β : Type} (f : α → β) (x : PerPort α) : PerPort β :=
  { p0 := f x.p0, p1 := f x.p1, p2 := f x.p2, p3 := f x.p3 }

/-- The ports in order. -/
def allPorts : List Port := [.p0, .p1, .p2, .p3]

/-- The number of a port. -/
def portNumber : Port → Nat
  | .p0 => 0
  | .p1 => 1
  | .p2 => 2
  | .p3 => 3

/-- The port of a number modulo 4. -/
def portOfNumber (n : Nat) : Port :=
  match n % 4 with
  | 0 => .p0
  | 1 => .p1
  | 2 => .p2
  | _ => .p3

/-- The lane is enabled: its state is not OFF (R36). -/
def Lane.enabled (l : Lane) : Bool := l.state != .off

/-- Receive-usable (R21): CLEAR, SUSPECT or SETTLING, held or not. -/
def Lane.receiveUsable (l : Lane) : Bool := l.state == .clear || l.state == .suspect || l.state == .settling

/-- Transmit-usable (R21): CLEAR or SUSPECT, and not held. -/
def Lane.transmitUsable (l : Lane) : Bool := (l.state == .clear || l.state == .suspect) && !l.hold

/-- The lane may be entered in the field in progress: it is transmit-usable, and has been so since the field began (R21, R30, R51, R52). -/
def Lane.entered (l : Lane) : Bool := l.admitted && l.transmitUsable

/-- Drivable for the round mark (R9, R11): CLEAR, SUSPECT or SETTLING, and not held. -/
def Lane.drivable (l : Lane) : Bool := l.receiveUsable && !l.hold

/-- The DARK condition (R54): a lane is enabled, and every enabled lane is in SURGE. -/
def darkCondition (ls : PerLane Lane) : Bool :=
  (ls.a.enabled || ls.b.enabled) && (!ls.a.enabled || ls.a.state == .surge) && (!ls.b.enabled || ls.b.state == .surge)

/-- The chatter threshold of a chatter class (R40). -/
def chatterThreshold (c : BitVec 2) : Nat :=
  match c.toNat with
  | 0 => 4
  | 1 => 8
  | 2 => 16
  | _ => 32

/-! ### The station -/

/-- Some reset holds (R174, R175). -/
def State.holding (s : State) : Bool := s.hold.powerOn || s.hold.pin || s.hold.supply

/-- This station's number (R163). -/
def State.station (s : State) : StationNo := s.ctrl.option.station

/-- The tag of the send entry of a port: station number x 4 + port (R105). -/
def State.tagOf (s : State) (p : Port) : Tag := BitVec.ofNat 6 (s.ctrl.option.station.toNat * 4 + portNumber p)

/-- The tag belongs to this station. -/
def State.ownTag (s : State) (t : Tag) : Bool := tagStation t == s.station

/-- The clock is searching (R7): in every mode but STARTING. -/
def Mode.searching : Mode → Bool
  | .starting => false
  | .listening => true
  | .joined => true
  | .resync => true
  | .dark => true
  | .faulted => true

/-- The pacing permit (R7): the option word permits pacing, and the mode is JOINED or RESYNC. LISTENING after its alone limit is the
moment at which the mode becomes JOINED (R166). -/
def State.pacingPermit (s : State) : Bool :=
  s.ctrl.option.pacing && (s.ctrl.mode == .joined || s.ctrl.mode == .resync)

/-- The deferral point: reading 200 + 36 x station number (R6). -/
def State.deferralAt (s : State) : Nat := 200 + 36 * s.ctrl.option.station.toNat

/-- The modes in which send entries are served and their sequences advance (R114, R117, R123). -/
def Mode.issues : Mode → Bool
  | .joined => true
  | .resync => true
  | .dark => true
  | .starting => false
  | .listening => false
  | .faulted => false

/-- The modes in which the live table is maintained (R59). -/
def Mode.maintains : Mode → Bool
  | .joined => true
  | .resync => true
  | .dark => true
  | .faulted => true
  | .starting => false
  | .listening => false

/-! ### Alert (section 10.5) -/

/-- Some active cause is enabled, or SUPPLY is latched (R188). -/
def Management.alertCondition (m : Management) : Bool :=
  (!m.events.isEmpty && !m.mask.events) || (m.latched.surge && !m.mask.surge) || (m.latched.loss && !m.mask.loss)
  || (m.latched.fault && !m.mask.fault) || m.latched.supply

/-- The alert line: asserted under R188, released while any reset holds. -/
def State.alertLine (s : State) : Bool := !s.holding && s.mgmt.alertCondition

/-- The causes an event latches (R185). -/
def Event.latches : Event → Causes
  | .laneChanged _ prev new _ => { Causes.empty with surge := new == .surge && prev != .surge }
  | .blocksLost _ _ _ _ => { Causes.empty with loss := true }
  | .supplyWarn => { Causes.empty with supply := true }
  | .fault _ => { Causes.empty with fault := true }
  | .modeChanged _ _ _ => .empty
  | .surgeContinues _ _ _ => .empty
  | .resyncDone _ _ => .empty
  | .streamLive _ _ => .empty
  | .streamRefused _ _ _ => .empty
  | .streamClosed _ _ => .empty
  | .slotsLost _ _ _ => .empty
  | .heldReleased _ _ => .empty
  | .receiveActive _ _ _ => .empty
  | .receiveWaiting _ _ => .empty
  | .rebased _ _ _ _ => .empty
  | .repairGone _ _ _ _ => .empty
  | .sendPortError _ _ => .empty
  | .recvPortError _ _ => .empty
  | .supplyOk => .empty

/-- Either set's causes. -/
def Causes.union (x y : Causes) : Causes :=
  { events := x.events || y.events, surge := x.surge || y.surge, loss := x.loss || y.loss,
    supply := x.supply || y.supply, fault := x.fault || y.fault }

/-! ### Streams -/

/-- The blocks of a retention class. -/
def RetClass.size : RetClass → Nat
  | .r128 => 128
  | .r256 => 256
  | .r512 => 512
  | .r1024 => 1024

/-- The places of a window class. -/
def WinClass.size : WinClass → Nat
  | .w256 => 256
  | .w512 => 512
  | .w1024 => 1024
  | .w2048 => 2048

/-- The in half of an entry takes words: CLAIMING or LIVE (R111, R113). -/
def SendEntry.inHalfOpen (e : SendEntry) : Bool := e.state == .claiming || e.state == .live

/-- The entry keeps a retention ring (R105, R115, R127): LIVE, or RELEASING with release path FROM_LIVE. -/
def SendEntry.keepsRing (e : SendEntry) : Bool :=
  e.state == .live || (e.state == .releasing && e.releasePath == some .fromLive)

/-- The places of the in-half FIFO that are taken (R111). -/
def SendEntry.places (e : SendEntry) : Nat := e.fifo.length + (if e.assembly.isSome then 1 else 0)

/-- The byte counter: the bytes still to come of the block being assembled (R111, R112). -/
def SendEntry.byteCounter (e : SendEntry) : Nat :=
  match e.assembly with
  | none => 0
  | some a => a.length - a.payload.length

/-- The ready line of a port's in half (R111, R123): low in FAULTED. -/
def State.ready (s : State) (p : Port) : Bool :=
  let e := s.send.get p
  e.inHalfOpen && e.places < Config.fifoSize && s.ctrl.mode != .faulted

/-- The block buffers a send entry holds (R105). -/
def SendEntry.reservation (e : SendEntry) : Nat :=
  let r := match e.cls with
    | some c => c.size
    | none => 0
  match e.state with
  | .claiming => r
  | .live => r
  | .releasing => if e.releasePath == some .fromHeld then 0 else r
  | .closed => 0
  | .held => 0

/-- The block buffers a receive entry holds (R139). -/
def RecvEntry.reservation (e : RecvEntry) : Nat :=
  match e.stream with
  | some st => st.cls.size
  | none => 0

/-- The block-store reservation count: the sum of all reservations (R106). -/
def State.reserved (s : State) : Nat :=
  s.send.p0.reservation + s.send.p1.reservation + s.send.p2.reservation + s.send.p3.reservation
  + s.recv.p0.reservation + s.recv.p1.reservation + s.recv.p2.reservation + s.recv.p3.reservation

/-- The next expected sequence: the next playout sequence and the depth of the window (R140). -/
def RecvStream.nextExpected (st : RecvStream) (a : Anchor) : Seq := a.nextPlayout + BitVec.ofNat 16 st.window.length

/-- The state of a receive entry (R139). -/
def RecvEntry.state (e : RecvEntry) : RecvState :=
  match e.stream with
  | none => .closed
  | some st => if st.active then .active else .waiting

/-! ### The live table -/

/-- The entry is OWNED by this station number with this tag. -/
def SlotUse.ownedBy (u : SlotUse) (o : StationNo) (t : Tag) : Bool := u == .owned o t

/-- The entry is OWNED with this tag. -/
def SlotUse.hasTag (u : SlotUse) (t : Tag) : Bool :=
  match u with
  | .owned _ t' => t' == t
  | .openSlot => false
  | .unknown => false

/-- The use of slot n in a list of entries; UNKNOWN outside it. -/
def useAt (live : List SlotEntry) (n : Nat) : SlotUse :=
  match live[n]? with
  | some e => e.use
  | none => .unknown

/-- The slot lies in the run. -/
def Run.has (r : Run) (n : Nat) : Bool := r.first ≤ n && n < r.first + r.count

/-- Every slot of the run satisfies the test. -/
def Run.every (r : Run) (f : Nat → Bool) : Bool := (List.range r.count).all (fun i => f (r.first + i))

/-- Every slot of the run is OWNED by the station with the tag. -/
def runOwned (live : List SlotEntry) (r : Run) (o : StationNo) (t : Tag) : Bool :=
  r.every (fun n => (useAt live n).ownedBy o t)

/-- Every slot of the run is OPEN. -/
def runOpen (live : List SlotEntry) (r : Run) : Bool := r.every (fun n => useAt live n == .openSlot)

/-- Every slot of the run has been silent for 512 passes or more. -/
def runSilent (live : List SlotEntry) (r : Run) : Bool :=
  r.every (fun n =>
    match live[n]? with
    | some e => Config.reclaimSilence ≤ e.silent
    | none => false)

/-- The all-OPEN run of the count with the lowest first slot (R82, R108). -/
def firstOpenRun (live : List SlotEntry) (count : Nat) : Option Run :=
  ((List.range (Config.slots + 1 - count)).map (fun f => Run.mk f count)).find? (runOpen live)

/-- The number of live entries OWNED with the tag (k of R141). -/
def tagSlots (live : List SlotEntry) (t : Tag) : Nat := (live.filter (fun e => e.use.hasTag t)).length

/-- The maximal runs of adjacent entries with one key, in slot order, from slot `n` on, with the run in progress. -/
def collectRuns {κ : Type} [DecidableEq κ] (n : Nat) : List (Option κ) → Option (Run × κ) → List (Run × κ)
  | [], cur => cur.toList
  | some k :: rest, some (r, k') =>
    if k = k' then collectRuns (n + 1) rest (some ({ r with count := r.count + 1 }, k'))
    else (r, k') :: collectRuns (n + 1) rest (some (⟨n, 1⟩, k))
  | some k :: rest, none => collectRuns (n + 1) rest (some (⟨n, 1⟩, k))
  | none :: rest, some rk => rk :: collectRuns (n + 1) rest none
  | none :: rest, none => collectRuns (n + 1) rest none

/-- A run longer than 12 slots is divided into parts of 12 from its lowest slot (R75, R167). -/
def Run.parts (r : Run) : List Run :=
  if r.count ≤ 12 then [r]
  else if r.count ≤ 24 then [⟨r.first, 12⟩, ⟨r.first + 12, r.count - 12⟩]
  else [⟨r.first, 12⟩, ⟨r.first + 12, 12⟩, ⟨r.first + 24, r.count - 24⟩]

/-- The slot run of a RECEIVE_ACTIVE event (R142): of several separate runs of the tag, the one with the lowest slot (DESIGN CHOICE, log 61).
Of a tag that more than 12 adjacent slots list, which no slot run has, it is the whole maximal run, undivided (DESIGN CHOICE, log 77). -/
def runOfTag (live : List SlotEntry) (t : Tag) : Run :=
  match collectRuns 0 (live.map (fun e => if e.use.hasTag t then some t else none)) none with
  | (r, _) :: _ => r
  | [] => ⟨0, 0⟩

end Sys2Proof.Machine
end

