-- ==== Sys2Proof/Machine/Operands.lean ====
section
/-! DEFINITION. From readings to results: the checks of section 11.4, the layouts of notice and block, the copy result of each
lane (R5, R31, R193), the merged results of the copy selector (R5, R32, R33, R34), and the argument bytes of requests (section 11.6). -/

namespace Sys2Proof.Machine

open Sys2Proof

/-! ### Checks -/

/-- The 16-bit generator x^16 + x^15 + x^11 + x^10 + x^8 + x^7 + x^4 + x^2 + 1 without its leading term (R191). -/
def checkGen16 : BitVec 16 := 0x8D95

/-- The 32-bit generator x^32 + x^30 + x^27 + x^24 + x^21 + x^17 + x^16 + x^13 + x^9 + x^7 + x^4 + x^3 + 1 without its
leading term (R192). -/
def checkGen32 : BitVec 32 := 0x49232299

/-- One bit shifted in: the register moves left by one, and the generator is added when the bit leaving differs from the bit coming
in (R191). -/
def checkBit {w : Nat} (gen : BitVec w) (r : BitVec w) (b : Bool) : BitVec w :=
  if r.msb != b then (r <<< 1) ^^^ gen else r <<< 1

/-- One byte shifted in, most significant bit first. -/
def checkByte {w : Nat} (gen : BitVec w) (r : BitVec w) (x : Byte) : BitVec w :=
  [7, 6, 5, 4, 3, 2, 1, 0].foldl (fun r i => checkBit gen r (x.getLsbD i)) r

/-- The 16-bit check of the covered bytes (R191). -/
def check16 (bytes : List Byte) : BitVec 16 := bytes.foldl (checkByte checkGen16) 0xFFFF

/-- The 32-bit block check of a payload (R192). -/
def check32 (bytes : List Byte) : BitVec 32 := bytes.foldl (checkByte checkGen32) 0xFFFFFFFF

/-- The bytes of a bit vector, most significant first. -/
def bytesOf {w : Nat} (n : Nat) (x : BitVec w) : List Byte :=
  (List.range n).map (fun i => x.extractLsb' (8 * (n - 1 - i)) 8)

/-! ### The notice body (section 11.3) -/

/-- The code of a notice kind. -/
def NoticeKind.code : NoticeKind → BitVec 2
  | .claim => 0
  | .release => 1
  | .reclaim => 2
  | .repairAsk => 3

/-- The notice kind of a code. -/
def NoticeKind.ofCode (c : BitVec 2) : NoticeKind :=
  match c.toNat with
  | 0 => .claim
  | 1 => .release
  | 2 => .reclaim
  | _ => .repairAsk

/-- The 48 body bits of a notice, pad bits zero. -/
def NoticeBody.bits (b : NoticeBody) : BitVec 48 :=
  b.kind.code ++ b.epoch ++ b.tag ++ b.target ++ b.first ++ b.count ++ (0 : BitVec 7)

/-- The body fields of 48 bits; pad bits are ignored. -/
def NoticeBody.ofBits (x : BitVec 48) : NoticeBody :=
  { kind := .ofCode (x.extractLsb' 46 2), epoch := x.extractLsb' 38 8, tag := x.extractLsb' 32 6,
    target := x.extractLsb' 28 4, first := x.extractLsb' 12 16, count := x.extractLsb' 7 5 }

/-- The notice check covers a leading 0 bit with the lead-in value, and the 6 bytes of the body (R191). -/
def noticeCheck (leadIn : BitVec 7) (body : BitVec 48) : BitVec 16 :=
  check16 (BitVec.setWidth 8 leadIn :: bytesOf 6 body)

/-- The priority of a lead-in value: its high three bits (R25, R31). -/
def leadInPriority (v : BitVec 7) : BitVec 3 := v.extractLsb' 4 3

/-- The sender of a lead-in value: its low four bits (R25, R31). -/
def leadInSender (v : BitVec 7) : StationNo := v.extractLsb' 0 4

/-- The lead-in value: priority, then station number (R25). -/
def leadInValue (priority : BitVec 3) (station : StationNo) : BitVec 7 := priority ++ station

/-- The bit of a lead-in tick, tick 0 first: 0 is driven dominant, 1 is left passive (R19, R25). -/
def leadInBit (v : BitVec 7) (tick : Fin 7) : Bool := v.getLsbD (6 - tick.val)

/-! ### The block header (section 11.4) -/

/-- The 64 header bits of a block, pad bits zero. -/
def BlockHeader.bits (h : BlockHeader) : BitVec 64 :=
  h.owner ++ h.tag ++ h.gen ++ h.seq ++ BitVec.ofBool h.fill ++ BitVec.ofBool h.resend ++ h.index ++ h.epoch ++ h.length
  ++ (0 : BitVec 10)

/-- The header fields of 64 bits; pad bits are ignored. -/
def BlockHeader.ofBits (x : BitVec 64) : BlockHeader :=
  { owner := x.extractLsb' 60 4, tag := x.extractLsb' 54 6, gen := x.extractLsb' 50 4, seq := x.extractLsb' 34 16,
    fill := x.getLsbD 33, resend := x.getLsbD 32, index := x.extractLsb' 27 5, epoch := x.extractLsb' 19 8,
    length := x.extractLsb' 10 9 }

/-- The header check covers the 8 bytes of the header body (R191). -/
def headerCheckOf (x : BitVec 64) : BitVec 16 := check16 (bytesOf 8 x)

/-- A header fails against its own fields (R193): a length above 256, or FILL with a length other than 0. -/
def BlockHeader.faulty (h : BlockHeader) : Bool := 256 < h.length.toNat || (h.fill && h.length != 0)

/-- The reading carries a header whose check passes and which fails R193: it counts a code violation. -/
def headerViolation : BlockReading → Bool
  | .frame x c _ _ => c == headerCheckOf x && (BlockHeader.ofBits x).faulty
  | .passiveThroughout => false
  | .dominantThroughout => false
  | .other => false

/-- The block is schedule-bearing in slot n: its RESEND flag is clear and its slot index is n (section 4.3). -/
def BlockHeader.scheduleBearing (h : BlockHeader) (n : Nat) : Bool := !h.resend && h.index.toNat == n

/-! ### Copy results -/

/-- The copy result of a field on one lane, and the merged result of a slot or of the repair window (R31, R32). -/
inductive Copy (α : Type) where
  | valid (x : α)
  | erased
  | idle
deriving DecidableEq, Repr

/-- The copy is VALID. -/
def Copy.isValid {α : Type} : Copy α → Bool
  | .valid _ => true
  | .erased => false
  | .idle => false

/-- The copy is IDLE. -/
def Copy.isIdle {α : Type} : Copy α → Bool
  | .idle => true
  | .valid _ => false
  | .erased => false

/-- The lane was not a contributing lane for the field, or left the receive-usable states before its close (R31). -/
def Lane.copyErased (l : Lane) : Bool := !l.contributing || l.lostAt.isSome

/-- The pattern of the round mark (R4). -/
def markPattern : List TickLevel :=
  [.dominant, .dominant, .dominant, .dominant, .passive, .dominant, .passive, .passive]

/-- The mark copy of a lane (R5); `accepted` says that a candidate edge of this round's mark was accepted on the lane. A lane that is
not receive-usable, that was not so at the start of the mark field (R52), that left the receive-usable states, or on which the
station's own mark broke (R11), reads ERASED. -/
def markCopy (l : Lane) (accepted : Bool) (r : MarkReading) : Copy Unit :=
  if !l.receiveUsable || l.copyErased || l.markSpoiled then .erased
  else match r with
    | .passiveThroughout => .idle
    | .dominantThroughout => .erased
    | .ticks levels => if accepted && levels == markPattern then .valid () else .erased
    | .other => .erased

/-- The merged mark result (R5). -/
def mergeMarks (a b : Copy Unit) : Copy Unit :=
  if a.isValid || b.isValid then .valid () else if a.isIdle && b.isIdle then .idle else .erased

/-- The notice copy of a lane (R31). -/
def noticeCopy (l : Lane) (r : NoticeReading) : Copy Notice :=
  if l.copyErased then .erased
  else match r with
    | .passiveThroughout => .idle
    | .dominantThroughout => .erased
    | .frame v x c =>
      if !l.fieldFlaw && c == noticeCheck v x then .valid { leadIn := v, body := .ofBits x } else .erased
    | .other => .erased

/-- The block copy of a lane in the repair window or a slot (R31, R193). In a slot, a change of level in the guard interval erases
the copy. -/
def blockCopy (inSlot : Bool) (l : Lane) (r : BlockReading) : Copy Block :=
  if l.copyErased || (inSlot && l.guardFlaw) then .erased
  else match r with
    | .passiveThroughout => .idle
    | .dominantThroughout => .erased
    | .frame x hc payload bc =>
      let h := BlockHeader.ofBits x
      if !l.fieldFlaw && hc == headerCheckOf x && !h.faulty && payload.length == h.length.toNat && bc == check32 payload
      then .valid { header := h, payload := payload, check := bc } else .erased
    | .other => .erased

/-- The merged result of a slot or of the repair window (R32). -/
def mergeBlocks (contribA contribB : Bool) (a b : Copy Block) : Copy Block :=
  match a, b with
  | .valid x, _ => .valid x
  | _, .valid y => .valid y
  | a, b =>
    if (a.isIdle || !contribA) && (b.isIdle || !contribB) && (a.isIdle || b.isIdle) then .idle else .erased

/-- The merged result of the notice window (R33). -/
inductive MergedNotice where
  | valid (n : Notice)
  | divergent (a b : Notice)
  | idle
  | erased
deriving DecidableEq, Repr

/-- Merging of the two notice copies (R33). -/
def mergeNotices (contribA contribB : Bool) (a b : Copy Notice) : MergedNotice :=
  match a, b with
  | .valid x, .valid y => if x = y then .valid x else .divergent x y
  | .valid x, _ => .valid x
  | _, .valid y => .valid y
  | a, b =>
    if (a.isIdle || !contribA) && (b.isIdle || !contribB) && (a.isIdle || b.isIdle) then .idle else .erased

/-- The notices of a merged result, the one taken first in front (R64). -/
def MergedNotice.notices (m : MergedNotice) (first : LaneId) : List Notice :=
  match m with
  | .valid n => [n]
  | .divergent x y =>
    match first with
    | .a => [x, y]
    | .b => [y, x]
  | .idle => []
  | .erased => []

/-- The lane stayed receive-usable up to reading `t` of the field in progress. -/
def Lane.usableUntil (l : Lane) (t : Nat) : Bool :=
  match l.lostAt with
  | some u => t ≤ u
  | none => true

/-- The lane gave a reading for the position that begins at `t` and lasts 100 units: it contributes to the answer field and was
receive-usable throughout the position (R21, R31, R52). -/
def Lane.readsPosition (l : Lane) (t : Nat) : Bool := l.contributing && l.usableUntil (t + Config.tickUnits)

/-- The lane was receive-usable from reading 1800 to reading 3499 (R34). -/
def Lane.readsAnswerField (l : Lane) : Bool := l.contributing && l.usableUntil Config.answerCloseAt

/-- The merged reading of accept position p (R34). -/
def mergedAccept (ls : PerLane Lane) (a b : AnswerReading) (p : Nat) : Bool :=
  let t := Config.noticeCloseAt + Config.tickUnits * p
  (ls.a.readsPosition t && a.accepts.getLsbD p) || (ls.b.readsPosition t && b.accepts.getLsbD p)

/-- The merged answer field (R34). An unread field carries no position readings. -/
def mergeAnswers (ls : PerLane Lane) (a b : AnswerReading) : AnswerRecord :=
  if ls.a.readsAnswerField || ls.b.readsAnswerField then
    { read := true,
      accepts := (List.range 16).foldl (fun acc p => if mergedAccept ls a b p then acc ||| BitVec.twoPow 16 p else acc) 0,
      dissent := (ls.a.readsPosition Config.dissentAt && a.dissent) || (ls.b.readsPosition Config.dissentAt && b.dissent) }
  else { read := false, accepts := 0, dissent := false }

/-! ### Arguments of requests (section 11.6) -/

/-- A retention class argument, 0-3 in increasing order of size. -/
def retClassOf (b : Byte) : Option RetClass :=
  match b.toNat with
  | 0 => some .r128
  | 1 => some .r256
  | 2 => some .r512
  | 3 => some .r1024
  | _ => none

/-- A window class argument, 0-3 in increasing order of size. -/
def winClassOf (b : Byte) : Option WinClass :=
  match b.toNat with
  | 0 => some .w256
  | 1 => some .w512
  | 2 => some .w1024
  | 3 => some .w2048
  | _ => none

/-- A port argument 0-3. -/
def portOf (b : Byte) : Option Port :=
  match b.toNat with
  | 0 => some .p0
  | 1 => some .p1
  | 2 => some .p2
  | 3 => some .p3
  | _ => none

/-- A stream entry argument: send entries 0-3, receive entries 4-7. -/
inductive EntryArg where
  | send (p : Port)
  | recv (p : Port)
deriving DecidableEq, Repr

/-- An entry argument 0-7. -/
def entryOf (b : Byte) : Option EntryArg :=
  match b.toNat with
  | 0 => some (.send .p0)
  | 1 => some (.send .p1)
  | 2 => some (.send .p2)
  | 3 => some (.send .p3)
  | 4 => some (.recv .p0)
  | 5 => some (.recv .p1)
  | 6 => some (.recv .p2)
  | 7 => some (.recv .p3)
  | _ => none

/-- A lane argument: 0 for A, 1 for B. -/
def laneOf (b : Byte) : Option LaneId :=
  match b.toNat with
  | 0 => some .a
  | 1 => some .b
  | _ => none

/-- A two-valued argument: 0 for off, 1 for on. -/
def flagOf (b : Byte) : Option Bool :=
  match b.toNat with
  | 0 => some false
  | 1 => some true
  | _ => none

/-- A set of causes: EVENTS in the least significant bit, then SURGE, LOSS, SUPPLY, FAULT; the rest is ignored. -/
def causesOf (b : Byte) : Causes :=
  { events := b.getLsbD 0, surge := b.getLsbD 1, loss := b.getLsbD 2, supply := b.getLsbD 3, fault := b.getLsbD 4 }

/-- The option word of the ten straps (section 11.5). -/
def optionOf (straps : BitVec 10) : OptionWord :=
  { station := straps.extractLsb' 0 4, laneA := straps.getLsbD 4, laneB := straps.getLsbD 5,
    policy := if straps.getLsbD 6 then .fault else .arb, pacing := straps.getLsbD 7, chatter := straps.extractLsb' 8 2 }

end Sys2Proof.Machine

namespace Sys2Proof

/-! ### The levels that readings show (R41) -/

/-- What a reading shows of the dominant run of its lane, as the reading ends: the lane was passive at some moment of the last `units`, it
was dominant throughout the last `units`, it rose from passive and has been dominant for `units` since, or nothing. A passive moment is a
passive level of a line element or more (R41). Only the activity of a lane shows it `risen`. -/
inductive LevelShown where
  | passiveWithin (units : Nat)
  | dominantFor (units : Nat)
  | risen (units : Nat)
  | nothing
deriving DecidableEq, Repr

/-- The members at the end of a list that are all dominant. -/
def trailing (l : List Bool) : Nat := (l.reverse.takeWhile id).length

/-- A mark read `since` units after its candidate edge: the last tick that is not dominant was passive at some moment of its sample, which
begins 40 units after the tick (R5). -/
def MarkReading.levelShown (since : Nat) : MarkReading → LevelShown
  | .passiveThroughout => .passiveWithin 1
  | .dominantThroughout => .dominantFor 800
  | .ticks levels =>
    let later := trailing (levels.map (fun x => x == .dominant))
    if later < levels.length then .passiveWithin (max 1 (since - (100 * (levels.length - 1 - later) + 40))) else .nothing
  | .other => .passiveWithin 800

/-- A notice window: a whole body has a passive element in its last symbol, which begins at 1476 or later (R20, R190). -/
def NoticeReading.levelShown : NoticeReading → LevelShown
  | .passiveThroughout => .passiveWithin 1
  | .dominantThroughout => .dominantFor 1000
  | .frame _ _ _ => .passiveWithin 324
  | .other => .passiveWithin 1000

/-- A slot or a repair window of `field` units: a whole block has a passive element in its last symbol, which begins 14 symbols and the
payload after its first one, and that one 740 units or less before the field ends (R20, R190). -/
def BlockReading.levelShown (field : Nat) : BlockReading → LevelShown
  | .passiveThroughout => .passiveWithin 1
  | .dominantThroughout => .dominantFor field
  | .frame _ _ payload _ => .passiveWithin (max 1 (740 - 2 * (14 + payload.length)))
  | .other => .passiveWithin field

/-- An answer field: a position that does not read dominant was passive at some moment of its last 20 units (R31). -/
def AnswerReading.levelShown (r : AnswerReading) : LevelShown :=
  let positions := (List.range 16).map (fun p => r.accepts.getLsbD p) ++ [r.dissent]
  let later := trailing positions
  if later < positions.length then .passiveWithin (100 * later + 20) else .nothing

end Sys2Proof
end

