-- ==== Sys2Proof/Machine/Signal.lean ====
section
/-! DEFINITION. What a lane carries: the fast-rate code (R190), the decoding of a fast-rate field with its code violations (R20),
the readings of mark ticks and of answer positions from the levels on a lane (R5, R31), the stretches of its activity (R39) and the dominant
run it shows (R41), the levels that a station puts on a lane (R4, R19), and the readings at which each content is driven. -/

namespace Sys2Proof.Machine

open Sys2Proof

/-! ### The fast-rate code (R190) -/

/-- The five elements of a half, element 1 most significant, 1 dominant (R190). -/
def halfPattern (v : BitVec 4) : BitVec 5 :=
  match v.toNat with
  | 0 => 0b10100
  | 1 => 0b10010
  | 2 => 0b10001
  | 3 => 0b01100
  | 4 => 0b01010
  | 5 => 0b01001
  | 6 => 0b00110
  | 7 => 0b00101
  | 8 => 0b11010
  | 9 => 0b11001
  | 10 => 0b10110
  | 11 => 0b10101
  | 12 => 0b10011
  | 13 => 0b01110
  | 14 => 0b01101
  | _ => 0b01011

/-- The symbol of a byte: the half of its four most significant bits, then the other (R190). -/
def symbolOf (b : Byte) : BitVec 10 := halfPattern (b.extractLsb' 4 4) ++ halfPattern (b.extractLsb' 0 4)

/-- The start symbol (R190). -/
def startSymbol : BitVec 10 := 0b1110000111

/-- The value of a half pattern, if it is in the code. -/
def halfValue (p : BitVec 5) : Option (BitVec 4) :=
  ((List.range 16).map (BitVec.ofNat 4)).find? (fun v => halfPattern v == p)

/-- The byte of a symbol, if it is in the code. -/
def byteOfSymbol (x : BitVec 10) : Option Byte :=
  match halfValue (x.extractLsb' 5 5), halfValue (x.extractLsb' 0 5) with
  | some hi, some lo => some (hi ++ lo)
  | _, _ => none

/-- The symbols of a fast-rate field: the start symbol and one symbol per byte (R20). -/
def fieldSymbols (bytes : List Byte) : List (BitVec 10) := startSymbol :: bytes.map symbolOf

/-! ### Decoding a fast-rate field (R20) -/

/-- The cases in which the reading of a fast-rate field finds a code violation (R20). -/
inductive CodeFault where
  /-- the start symbol does not begin within 40 units of the nominal start reading of the field -/
  | startMissing
  /-- the pattern of a symbol is not in the code -/
  | notInCode
  /-- the level changes in a way that does not resolve into whole symbols before the last symbol -/
  | unresolved
  /-- the lane is passive throughout a place that requires a symbol -/
  | passiveSymbol
deriving DecidableEq, Repr

/-- The ten line elements of a symbol, element 1 first (R190). -/
def symbolElements (x : BitVec 10) : List Bool := (List.range 10).map (fun i => x.getLsbD (9 - i))

/-- The line elements of a fast-rate field (R20). -/
def fieldElements (bytes : List Byte) : List Bool := (fieldSymbols bytes).flatMap symbolElements

/-- The pattern of ten elements, those beyond the end passive. -/
def patternOf (elements : List Bool) : BitVec 10 :=
  (List.range 10).foldl (fun acc i => acc <<< 1 ||| (BitVec.ofBool (elements.getD i false)).setWidth 10) 0

/-- The line elements of 2 ns in the first `ns` nanoseconds of level runs; a change of level inside an element is not resolved
(R20). -/
def elementsOf : Nat → List LevelRun → Option (List Bool)
  | _, [] => some []
  | ns, r :: rest =>
    if ns ≤ r.length then some (List.replicate (ns / 2) r.dominant)
    else if r.length % 2 = 0 then
      (elementsOf (ns - r.length) rest).map (fun l => List.replicate (r.length / 2) r.dominant ++ l)
    else none

/-- Whole symbols read from line elements: the bytes, or the first code violation (R20). -/
def readSymbols : Nat → List Bool → Except CodeFault (List Byte)
  | 0, _ => .ok []
  | n + 1, elements =>
    if (elements.take 10).all (fun x => !x) then .error .passiveSymbol
    else
      match byteOfSymbol (patternOf elements) with
      | some b => (readSymbols n (elements.drop 10)).map (fun rest => b :: rest)
      | none => .error .notInCode

/-- A fast-rate field of `n` bytes whose first dominant element lies `off` units from its nominal start (R20). -/
def readField (n off : Nat) (elements : List Bool) : Except CodeFault (List Byte) :=
  if Config.startTolerance < off || patternOf elements != startSymbol then .error .startMissing
  else readSymbols n (elements.drop 10)

/-- The reading of a fast-rate field of `n` bytes from the levels on the lane, up to its last symbol (R20). -/
def decodeField (n off : Nat) (runs : List LevelRun) : Except CodeFault (List Byte) :=
  match elementsOf (20 * (n + 1)) runs with
  | some elements => readField n off elements
  | none => .error .unresolved

/-- The bits of bytes, the first byte most significant. -/
def bitsOf (w : Nat) (bytes : List Byte) : BitVec w := BitVec.ofNat w (bytes.foldl (fun acc b => 256 * acc + b.toNat) 0)

/-- The notice reading of a lane whose seven lead-in ticks read clean (R31): the body and its check, or no frame after a code
violation. -/
def readNotice (leadIn : BitVec 7) (off : Nat) (runs : List LevelRun) : NoticeReading :=
  match decodeField 8 off runs with
  | .ok bytes => .frame leadIn (bitsOf 48 (bytes.take 6)) (bitsOf 16 (bytes.drop 6))
  | .error _ => .other

/-- The block reading of a lane (R20, R31): the length of the field follows from the header's length field once the header is good; with a
length above 256 the reader takes no payload and no block check (R193). With another bad header, a failed check or a FILL flag with a
length of 1 to 256, the field ends after the header too (DESIGN CHOICE, log 76). -/
def readBlock (off : Nat) (runs : List LevelRun) : BlockReading :=
  match decodeField 10 off runs with
  | .error _ => .other
  | .ok head =>
    let x := bitsOf 64 (head.take 8)
    let c := bitsOf 16 (head.drop 8)
    if c != headerCheckOf x || (BlockHeader.ofBits x).faulty then .frame x c [] 0
    else
      let n := (BlockHeader.ofBits x).length.toNat
      match decodeField (14 + n) off runs with
      | .ok bytes => .frame x c ((bytes.drop 10).take n) (bitsOf 32 (bytes.drop (10 + n)))
      | .error _ => .other

/-! ### Mark ticks (R5) -/

/-- The levels of the next `n` nanoseconds; a lane is passive beyond the levels given. -/
def takeLevels : Nat → List LevelRun → List LevelRun
  | n, [] => [{ dominant := false, length := n }]
  | n, r :: rest => if n ≤ r.length then [{ r with length := n }] else r :: takeLevels (n - r.length) rest

/-- The levels after the next `n` nanoseconds. -/
def dropLevels : Nat → List LevelRun → List LevelRun
  | _, [] => []
  | n, r :: rest =>
    if n ≤ r.length then { r with length := r.length - n } :: rest else dropLevels (n - r.length) rest

/-- The lane has the level throughout. -/
def steadyAt (level : Bool) (runs : List LevelRun) : Bool := runs.all (fun r => r.dominant == level || r.length == 0)

/-- Level runs with every change of level between two of them: neighbours of one level are one run, and a run of no length is none. -/
def mergeRuns : List LevelRun → List LevelRun
  | [] => []
  | r :: rest =>
    match mergeRuns rest with
    | [] => if r.length = 0 then [] else [r]
    | x :: more =>
      if r.length = 0 then x :: more
      else if x.dominant = r.dominant then { r with length := r.length + x.length } :: more
      else r :: x :: more

/-- One tick, which begins `start` nanoseconds after the levels do, sampled from 40 to 60 units after its beginning: dominant or passive
throughout the sample, otherwise a code violation (R5). -/
def readTick (start : Nat) (runs : List LevelRun) : TickLevel :=
  let sample := takeLevels 200 (dropLevels (start + 400) runs)
  if steadyAt true sample then .dominant else if steadyAt false sample then .passive else .violation

/-- The level is a passive reading of at least one line element, which returns the dominant-run timer to 0 (R41). -/
def readsPassive (r : LevelRun) : Bool := !r.dominant && decide (Config.lineElement ≤ r.length)

/-- The reading of a mark (R5): eight ticks from the candidate edge, with the levels from that edge on; without a candidate edge the
levels of the mark field, which no passive level shorter than a line element breaks (R41). -/
def readMark (fromEdge : Option (List LevelRun)) (field : List LevelRun) : MarkReading :=
  match fromEdge with
  | some runs => .ticks ((List.range 8).map (fun k => readTick (1000 * k) runs))
  | none =>
    if steadyAt false field then .passiveThroughout
    else if (mergeRuns field).any readsPassive then .other
    else .dominantThroughout

/-! ### Stretches of level changes (R39) -/

/-- A stretch: the levels between its first and its last change, each held for less than 30 units, with the steady levels before and
after it (R39). -/
structure Stretch where
  before : Bool
  levels : List LevelRun
  after  : Bool
deriving DecidableEq, Repr

/-- The stretches of level runs, `before` the last steady level and `levels` the short ones since (R39). A stretch that no steady level
has ended is none yet. -/
def splitStretches : Option Bool → List LevelRun → List LevelRun → List Stretch
  | _, _, [] => []
  | before, levels, r :: rest =>
    if r.length < Config.steadyTime then splitStretches before (levels ++ [r]) rest
    else
      match before, levels with
      | some b, x :: more => ⟨b, x :: more, r.dominant⟩ :: splitStretches (some r.dominant) [] rest
      | _, _ => splitStretches (some r.dominant) [] rest

/-- The stretches into which the front end divides the activity of a lane (R39). -/
def stretchesOf (activity : List LevelRun) : List Stretch := splitStretches none [] (mergeRuns activity)

/-- The line elements of a stretch. The three dominant elements with which a start symbol opens make no change after a dominant level,
and the elements after the last change carry the level that follows. -/
def Stretch.elements (x : Stretch) : List Bool :=
  let seen := (if x.before then [true, true, true] else [])
    ++ x.levels.flatMap (fun r => List.replicate (r.length / 2) r.dominant)
  seen ++ List.replicate ((10 - seen.length % 10) % 10) x.after

/-- The stretch is clean: it opens with the start symbol and resolves into whole symbols of the code up to its last change (R39). -/
def Stretch.clean (x : Stretch) : Bool :=
  x.levels.all (fun r => r.length % 2 == 0) &&
  (match readField (x.elements.length / 10 - 1) 0 x.elements with
    | .ok _ => true
    | .error _ => false)

/-- The nanoseconds from the first change of a stretch to its last (R39; DESIGN CHOICE, log 45). -/
def Stretch.duration (x : Stretch) : Nat := (x.levels.map (fun r => r.length)).sum

/-- The free violations of an unclean stretch: one, and one more for each full 100 units beyond the first 100 (R39). -/
def Stretch.violations (x : Stretch) : Nat := 1 + (x.duration - 1000) / 1000

/-- The free violations of a lane's activity (R39). -/
def freeViolations (activity : List LevelRun) : Nat :=
  (((stretchesOf activity).filter (fun x => !x.clean)).map Stretch.violations).sum

/-- What the activity of a lane shows of its dominant run (R41): the levels after its last passive reading of a line element or more are
one run, which a shorter passive level does not break; without such a reading the lane was dominant throughout. -/
def runShown (activity : List LevelRun) : LevelShown :=
  let runs := mergeRuns activity
  let since := runs.reverse.takeWhile (fun r => !readsPassive r)
  let units := (since.map (fun r => r.length)).sum / 10
  if since.length = runs.length then .dominantFor units
  else if since.isEmpty then .passiveWithin 0
  else .risen units

/-! ### Answer positions (R31) -/

/-- An answer position of 100 units, which begins `start` nanoseconds after the levels do, reads dominant if the lane is dominant for at
least 20 continuous units within it (R31). -/
def readPosition (start : Nat) (runs : List LevelRun) : Bool :=
  (mergeRuns (takeLevels 1000 (dropLevels start runs))).any (fun r => r.dominant && 200 ≤ r.length)

/-- The answer field from its levels from reading 1800 on: sixteen accept positions and the dissent position (R31). -/
def readAnswers (runs : List LevelRun) : AnswerReading :=
  { accepts := (List.range 16).foldl
      (fun v p => v ||| (BitVec.ofBool (readPosition (1000 * p) runs)).setWidth 16 <<< p) 0,
    dissent := readPosition 16000 runs }

/-! ### Notices and blocks on the lane (sections 11.3, 11.4) -/

/-- The bytes of a notice after its lead-in: the body and its check (section 11.3). -/
def Flight.bytes (f : Flight) : List Byte := bytesOf 6 f.body.bits ++ bytesOf 2 (noticeCheck f.leadIn f.body.bits)

/-- The bytes of a block: header, header check, payload, block check (section 11.4). -/
def Block.bytes (b : Block) : List Byte :=
  bytesOf 8 b.header.bits ++ bytesOf 2 (headerCheckOf b.header.bits) ++ b.payload ++ bytesOf 4 b.check

/-- A notice as another station reads it clean. -/
def Flight.asRead (f : Flight) : NoticeReading := .frame f.leadIn f.body.bits (noticeCheck f.leadIn f.body.bits)

/-- A block as another station reads it clean. -/
def Block.asRead (b : Block) : BlockReading :=
  .frame b.header.bits (headerCheckOf b.header.bits) b.payload b.check

/-! ### The readings of driven content (R19, R25) -/

/-- The reading at which the lead-in of a field begins (R25). -/
def leadInStart : LeadInField → Nat
  | .noticeWindow => Config.markCloseAt
  | .repairWindow => Config.repairLeadInAt

/-- The reading at which the lead-in of a field ends, its seventh tick read (R19, R28). -/
def leadInEnd : LeadInField → Nat
  | .noticeWindow => Config.noticeBodyAt
  | .repairWindow => Config.repairBlockAt

/-- The reading of the first symbol of a block, by its slot index: in the repair window after the lead-in (R19). -/
def blockStart (b : Block) : Nat :=
  if b.header.index.toNat < Config.slots then Config.slotSymbolAt b.header.index.toNat else Config.repairBlockAt

/-- The reading at which the last element of a block has been driven: 15 symbols and its payload, 2 units each (R19, R20). -/
def blockEnd (b : Block) : Nat := blockStart b + 2 * (15 + b.header.length.toNat)

/-! ### The levels that a station drives (R4, R19)

A level is dominant (true) or passive, `u` units after the content began. -/

/-- The round mark: each tick keeps its level for its whole 100 units (R4). -/
def markLevel (u : Nat) : Bool := markPattern[u / Config.tickUnits]? == some .dominant

/-- A lead-in: a bit of 0 is dominant for its whole tick (R19, R25). -/
def leadInLevel (v : BitVec 7) (u : Nat) : Bool := decide (u < 700) && !v.getLsbD (6 - u / Config.tickUnits)

/-- An accept or dissent position: dominant for units 0-49, passive for units 50-99 (R4, R19). -/
def answerLevel (u : Nat) : Bool := decide (u < 50)

/-- A fast-rate field: five line elements in each unit (R20). -/
def fastLevel (bytes : List Byte) (u : Nat) (k : Fin 5) : Bool := (fieldElements bytes).getD (5 * u + k.val) false

/-- The reading lies in the sample of its tick, `low` to `high` units after the tick began (R5, R23). -/
def inSample (low high t : Nat) : Bool := low ≤ t % Config.tickUnits && t % Config.tickUnits ≤ high

/-! ### Where the front end finds violations (R20, R38) -/

/-- The reading lies in a guard interval: 3500-3599, the first 100 units of a slot, or 24200-24799 (R20). -/
def inGuard (t : Nat) : Bool :=
  (3500 ≤ t && t < 3600) || (5000 ≤ t && t < 24200 && (t - 5000) % 800 < 100) || (24200 ≤ t && t < Config.earlyWindowAt)

/-- The reading lies in a field that holds lead-in ticks or fast-rate data: the notice window, the repair window or a slot. -/
def inCodedField (t : Nat) : Bool :=
  (Config.markCloseAt ≤ t && t < Config.noticeCloseAt) || (Config.repairLeadInAt ≤ t && t < 24200)

/-- A framed report of the kind can arise at the reading (R20, R38): the mark ticks are read in the mark field. -/
def arisesAt (k : ViolationKind) (t : Nat) : Bool :=
  match k with
  | .field => inCodedField t
  | .guardInterval => inGuard t
  | .mark => t < Config.markCloseAt

end Sys2Proof.Machine
end

