-- ==== Sys2Proof/Machine/Ops.lean ====
section
/-! DEFINITION. The operations the commands share: giving an event, lane changes and drives, the outgoing notice queue, the close of a
stream, changes of the live table, mode changes and learning, and the passing of time within a round. -/

namespace Sys2Proof.Machine

open Sys2Proof

/-! ### Updates of one part of the state -/

/-- The state with one lane changed. -/
def State.mapLane (s : State) (l : LaneId) (f : Lane → Lane) : State :=
  { s with lanes := s.lanes.set l (f (s.lanes.get l)) }

/-- The state with both lanes changed alike. -/
def State.mapLanes (s : State) (f : Lane → Lane) : State := { s with lanes := s.lanes.map f }

/-- The state with one send entry changed. -/
def State.mapSend (s : State) (p : Port) (f : SendEntry → SendEntry) : State :=
  { s with send := s.send.set p (f (s.send.get p)) }

/-- The state with one receive entry changed. -/
def State.mapRecv (s : State) (p : Port) (f : RecvEntry → RecvEntry) : State :=
  { s with recv := s.recv.set p (f (s.recv.get p)) }

/-- The state with the outgoing notice queue changed. -/
def State.mapQueue (s : State) (f : List Queued → List Queued) : State :=
  { s with notices := { s.notices with queue := f s.notices.queue } }

/-- The state with the open stream of one receive entry changed. -/
def State.mapStream (s : State) (p : Port) (f : RecvStream → RecvStream) : State :=
  s.mapRecv p (fun e => { e with stream := e.stream.map f })

/-! ### Events (sections 10.4, 10.5) -/

/-- A record joins the tail of the event queue; a full queue loses its oldest record and sets the overrun flag (R183). -/
def Management.push (m : Management) (r : EventRecord) : Management :=
  if m.events.length < Config.eventQueueSize then { m with events := m.events ++ [r] }
  else { m with events := m.events.tail ++ [r], overrun := true }

/-- Give an event: its record, with the current round, joins the event queue (R2, R182, R183), and the cause it latches is
latched (R185). -/
def giveEvent (e : Event) (s : State) : State :=
  { s with mgmt :=
      let m := s.mgmt.push { round := s.clock.round.setWidth 16, event := e }
      { m with latched := m.latched.union e.latches } }

/-! ### Lanes -/

/-- A drive in CONTENDING or DRIVING goes to CUT (R22). -/
def Lane.cutDrive (l : Lane) : Lane :=
  if l.drive == .contending || l.drive == .driving then { l with drive := .cut } else l

/-- A drive in CONTENDING goes to WITHDRAWN (R26). -/
def Lane.withdraw (l : Lane) : Lane := if l.drive == .contending then { l with drive := .withdrawn } else l

/-- Violations are counted; the counter saturates at 255 (R38). -/
def Lane.countViolations (n : Nat) (l : Lane) : Lane := { l with violations := min 255 (l.violations + n) }

/-- The station is aligned: the count of consecutive valid marks is 1 or more (R38). -/
def State.aligned (s : State) : Bool := 1 ≤ s.clock.validCount

/-- A framed violation is counted if the station is aligned and the lane is enabled (R36, R38). -/
def countFramed (l : LaneId) (s : State) : State :=
  if s.aligned && (s.lanes.get l).enabled then s.mapLane l (Lane.countViolations 1) else s

/-- A field begins at reading `t`: no drive, no flaw seen, the lane contributes if it is receive-usable, and may
be entered if it is transmit-usable (R21, R22). -/
def Lane.beginField (t : Nat) (l : Lane) : Lane :=
  { l with drive := .notDriving, contributing := l.receiveUsable, admitted := l.transmitUsable,
           usableSince := if l.receiveUsable then some t else none, lostAt := none, cutAt := none, drove := false, fieldFlaw := false, guardFlaw := false, markSpoiled := false }

/-- A field begins at reading `t` on both lanes; the block handed over for a slot stands. -/
def beginField (t : Nat) (s : State) : State :=
  { s with lanes := s.lanes.map (Lane.beginField t),
           drive := { content := .none, leadIn := none, lost := false, handed := s.drive.handed, drove := none } }

/-- Drive on every lane that passes the test (R19, R22). -/
def driveOn (test : Lane → Bool) (c : DriveContent) (s : State) : State :=
  { s with lanes := s.lanes.map (fun l => if test l then { l with drive := .driving, drove := true } else l),
           drive := { s.drive with content := if s.lanes.any test then c else s.drive.content } }

/-- Contend in a lead-in on every lane that passes the test (R22, R25). -/
def contendOn (test : LaneId → Bool) (field : LeadInField) (v : BitVec 7) (s : State) : State :=
  let go := fun id (l : Lane) => if test id then { l with drive := .contending, drove := true } else l
  if test .a || test .b then
    { s with lanes := { a := go .a s.lanes.a, b := go .b s.lanes.b },
             drive := { s.drive with content := .leadIn field, leadIn := some v, lost := false } }
  else s

/-- Drive the round mark on every drivable lane, and set the pacing flag (R9 to R11). -/
def driveMark (s : State) : State :=
  let s := driveOn Lane.drivable .mark s
  { s with clock := { s.clock with pacing := true, drove := true } }

/-- The content being driven is a re-sent block. -/
def DriveContent.isResend : DriveContent → Bool
  | .block b => b.header.resend
  | .none => false
  | .mark => false
  | .leadIn _ => false
  | .noticeBody => false
  | .accept => false
  | .dissent => false

/-- The repair turn ends; a re-send being driven goes to CUT on every lane (R132). -/
def dropTurn (s : State) : State :=
  if s.repair.turn then
    { s with repair := { s.repair with turn := false },
             lanes := if s.drive.content.isResend then s.lanes.map Lane.cutDrive else s.lanes }
  else s

/-- The repair turn ends when no lane is transmit-usable any longer (R132). -/
def dropTurnIfMute (s : State) : State := if s.lanes.any Lane.transmitUsable then s else dropTurn s

/-! ### The outgoing notice queue (section 5.2) -/

/-- The run of a queued notice. -/
def Queued.run (q : Queued) : Run := ⟨q.first.toNat, q.count.toNat⟩

/-- The notice joins behind every queued notice of its priority (R79, R100). R84 keeps a notice in flight at the head; one of a lower
priority value that joins meanwhile stands before it at once, with no effect before the next round start (DESIGN CHOICE, log 80). -/
def insertQueued (q : Queued) : List Queued → List Queued
  | [] => [q]
  | x :: rest => if q.priority.toNat < x.priority.toNat then q :: x :: rest else x :: insertQueued q rest

/-- A notice of the same kind for the same tag; for a RELEASE also the same run, for a REPAIR_ASK also the same first
sequence (R79). -/
def Queued.duplicates (x y : Queued) : Bool :=
  x.kind == y.kind && x.tag == y.tag &&
  (match x.kind with
    | .release => x.first == y.first && x.count == y.count
    | .repairAsk => x.first == y.first
    | .claim => true
    | .reclaim => true)

/-- The three answers to an offer (R80). -/
inductive OfferAnswer where
  | queued | duplicate | full
deriving DecidableEq, Repr

/-- The answer to an offer (R80). A duplicate is found before a full queue (DESIGN CHOICE, log 7). -/
def offerAnswer (q : Queued) (s : State) : OfferAnswer :=
  if s.notices.queue.any q.duplicates then .duplicate
  else if Config.noticeQueueSize ≤ s.notices.queue.length then .full
  else .queued

/-- An offer is taken: a QUEUED notice joins the queue (R80). -/
def offer (q : Queued) (s : State) : State :=
  if offerAnswer q s = .queued then s.mapQueue (insertQueued q) else s

/-- A CLAIM of the send engine (R78, R80). -/
def claimNotice (s : State) (p : Port) (priority : BitVec 3) (run : Run) : Queued :=
  { kind := .claim, priority := priority, tag := s.tagOf p, target := 0, first := BitVec.ofNat 16 run.first,
    count := BitVec.ofNat 5 run.count, origin := .send p, attempt := 1, queuedRound := some s.clock.round,
    inFlight := false, withdrawn := false, pending := false, lastSent := none }

/-- A RELEASE at priority 0, attempt 1 (R78, R119, R167). -/
def releaseNotice (origin : Origin) (tag : Tag) (run : Run) : Queued :=
  { kind := .release, priority := 0, tag := tag, target := 0, first := BitVec.ofNat 16 run.first,
    count := BitVec.ofNat 5 run.count, origin := origin, attempt := 1, queuedRound := none,
    inFlight := false, withdrawn := false, pending := false, lastSent := none }

/-- A RECLAIM of the slot table (R75, R78). -/
def reclaimNotice (owner : StationNo) (tag : Tag) (run : Run) : Queued :=
  { kind := .reclaim, priority := 1, tag := tag, target := owner, first := BitVec.ofNat 16 run.first,
    count := BitVec.ofNat 5 run.count, origin := .slotTable, attempt := 1, queuedRound := none,
    inFlight := false, withdrawn := false, pending := false, lastSent := none }

/-- A REPAIR_ASK of the receive engine (R78, R153). -/
def askNotice (p : Port) (tag : Tag) (first : Seq) (count : Nat) : Queued :=
  { kind := .repairAsk, priority := 6, tag := tag, target := 0, first := first, count := BitVec.ofNat 5 count,
    origin := .recv p, attempt := 1, queuedRound := none, inFlight := false, withdrawn := false, pending := false,
    lastSent := none }

/-- The outcome record handed with a final outcome (R102). The answer is present when the notice has been sent and the last
answer field was read; the run of a notice that was never sent is its queued run (DESIGN CHOICE, log 51). -/
def outcomeRecord (q : Queued) (s : State) : OutcomeRecord :=
  { kind := q.kind, tag := q.tag, run := q.lastSent.getD q.run, attempt := q.attempt,
    answer := match q.lastSent, s.notices.lastAnswer with
      | some _, some r => if r.read then some (r.accepts, r.dissent) else none
      | _, _ => none,
    heard := s.table.heard.map (fun age => decide (age ≤ 255)) }

/-- The REPAIR_ASK of a receive entry is withdrawn: it leaves the queue, or is marked if it is in flight (R81), in FAULTED too (DESIGN CHOICE,
log 52). -/
def withdrawAsk (p : Port) (s : State) : State :=
  let mine := fun (q : Queued) => q.kind == .repairAsk && q.origin == .recv p
  s.mapQueue (fun q => (q.filter (fun x => !(mine x && !x.inFlight))).map
    (fun x => if mine x then { x with withdrawn := true } else x))

/-! ### Send entries: claims, releases, closes -/

/-- A send entry becomes CLOSED: its reservation is freed, its ring, FIFO and block being assembled are discarded, and the
repair service removes every re-send of its tag (R110, R111, R118, R120 to R122, R136). Generation and next sequence stand. -/
def closeSend (p : Port) (s : State) : State :=
  let s := { s with repair := { s.repair with queue := s.repair.queue.filter (fun r => r.tag != s.tagOf p) } }
  s.mapSend p (fun e => { SendEntry.reset with gen := e.gen, nextSeq := e.nextSeq })

/-- A RELEASE of the entry's slot run is offered; one answered FULL is offered again at each round start (R80, R120). -/
def offerRelease (p : Port) (s : State) : State :=
  match (s.send.get p).slotRun with
  | none => s
  | some run =>
    let q := releaseNotice (.send p) (s.tagOf p) run
    let due := offerAnswer q s = .full
    (offer q s).mapSend p (fun e => { e with releaseDue := due })

/-- The CLAIM of an entry has committed, with its run (R110, R120). At a completion of learning the run is the slot run at
once; at answer close it is kept as claim run until the next round start. -/
def claimCommitted (p : Port) (q : Queued) (outcome : OutcomeRecord) (atRoundStart : Bool) (s : State) : State :=
  let claim := if atRoundStart then none else some q.run
  let slots := if atRoundStart then some q.run else none
  match (s.send.get p).state with
  | .claiming =>
    giveEvent (.streamLive p outcome)
      (s.mapSend p (fun e => { e with state := .live, requested := none, claimRun := claim, slotRun := slots, ring := [] }))
  | .releasing =>
    let s := s.mapSend p (fun e => { e with claimRun := claim, slotRun := slots, releaseDue := true })
    if atRoundStart then offerRelease p s else s
  | .closed => s
  | .live => s
  | .held => s

/-- The CLAIM of an entry is refused (R110); an entry already RELEASING takes it as not committed (R120). -/
def claimRefused (p : Port) (reason : RefuseReason) (outcome : OutcomeRecord) (s : State) : State :=
  match (s.send.get p).state with
  | .claiming => giveEvent (.streamRefused p reason outcome) (closeSend p s)
  | .releasing => giveEvent (.streamClosed p (some outcome)) (closeSend p s)
  | .closed => s
  | .live => s
  | .held => s

/-- The withdrawn CLAIM of a RELEASING entry ended without a commit (R81, R120). -/
def claimNotCommitted (p : Port) (outcome : OutcomeRecord) (s : State) : State :=
  match (s.send.get p).state with
  | .releasing => giveEvent (.streamClosed p (some outcome)) (closeSend p s)
  | .claiming => s
  | .closed => s
  | .live => s
  | .held => s

/-- A withdrawn notice has left the queue without a commit: a CLAIM hands "not committed" to its entry, a REPAIR_ASK's outcome
is dropped (R81). -/
def withdrawnEnds (q : Queued) (outcome : OutcomeRecord) (s : State) : State :=
  match q.kind, q.origin with
  | .claim, .send p => claimNotCommitted p outcome s
  | _, _ => s

/-! ### The flight of a notice -/

/-- The notice was completed: its body was sent on at least one lane (R85). -/
def State.completed (s : State) : Bool :=
  match s.notices.flight with
  | some f => f.sent.a || f.sent.b
  | none => false

/-- The queued notice that is in flight. -/
def State.inFlight (s : State) : Option Queued := s.notices.queue.find? (·.inFlight)

/-- No notice is in flight any longer; every notice keeps its place. -/
def clearFlight (s : State) : State :=
  { s with notices := { s.notices with
      flight := none, queue := s.notices.queue.map (fun q => { q with inFlight := false }) } }

/-- The notice in flight leaves the queue. -/
def removeInFlight (s : State) : State :=
  { s with notices := { s.notices with flight := none, queue := s.notices.queue.filter (fun q => !q.inFlight) } }

/-- The flight ends as after LOST or NOT_SENT: the notice stays in its place, unless it is marked for
withdrawal (R81, R85). -/
def endFlightLost (s : State) : State :=
  match s.inFlight with
  | none => clearFlight s
  | some q => if q.withdrawn then withdrawnEnds q (outcomeRecord q s) (removeInFlight s) else clearFlight s

/-- The answer plan and the tentative change are dropped, and nothing more of an answer is driven (R93, R103). A roll call goes on: its
answers are heard in every mode (R65, R97). -/
def dropPlan (s : State) : State := { s with notices := { s.notices with plan := none, tentative := none } }

/-- The answer field of the round is over, closed or cut off (R15, R94): the answer plan, the tentative change and the roll call end. -/
def dropAnswer (s : State) : State :=
  { s with notices := { s.notices with plan := none, rollCall := false, tentative := none } }

/-- The run of the pending claim, as learning carries it (R66, R95). -/
def pendingRuns (s : State) : List CarriedRun :=
  match s.notices.queue.find? (·.pending) with
  | some q => [{ run := q.run, tag := q.tag, pending := true, broken := false }]
  | none => []

/-- The learned table with the entries of the given runs carried (R66). -/
def carryRuns (station : StationNo) (runs : List CarriedRun) (table : List LearnedEntry) : List LearnedEntry :=
  table.mapIdx (fun n e =>
    match runs.find? (fun r => r.run.has n) with
    | some r => { use := .owned station r.tag, carried := true }
    | none => e)

/-- A pending claim named while learning is in progress is carried too (R66, R95). -/
def carryPending (s : State) : State :=
  match s.table.learning with
  | none => s
  | some L =>
    let L := { L with table := carryRuns s.station (pendingRuns s) L.table, carried := L.carried ++ pendingRuns s }
    { s with table := { s.table with learning := some L } }

/-- A completed notice has been sent in the round, with the run it is queued with (R95, R102). -/
def recordSent (s : State) : State :=
  if s.completed then
    { s with notices := { s.notices with
        sentNotice := true,
        queue := s.notices.queue.map (fun q => if q.inFlight then { q with lastSent := some q.run } else q) } }
  else s

/-- A completed notice gets no answer close, or an unread one: it stays queued, a CLAIM is marked pending, and a REPAIR_ASK
leaves the queue with NO_ANSWER (R95, R101). -/
def endFlightUnanswered (s : State) : State :=
  match s.inFlight with
  | none => clearFlight s
  | some q =>
    match q.kind with
    | .repairAsk => removeInFlight s
    | .claim =>
      carryPending
        (clearFlight (s.mapQueue (fun l => l.map (fun x => if x.inFlight then { x with pending := true } else x))))
    | .release => clearFlight s
    | .reclaim => clearFlight s

/-- The last answer record of an unread answer field (R95). -/
def recordUnread (s : State) : State :=
  { s with notices := { s.notices with lastAnswer := some { read := false, accepts := 0, dissent := false } } }

/-- The flight ends because the station enters DARK or FAULTED (R103): a completed notice under R95, any other as after LOST; the
answer plan and the tentative change are dropped. -/
def endFlightOnLeaving (s : State) : State :=
  dropPlan (if s.completed then endFlightUnanswered (recordUnread (recordSent s)) else endFlightLost s)

/-! ### Learning and mode changes -/

/-- The mode changes, with its event (R162). Leaving JOINED ends the repair turn (R132). -/
def changeMode (m : Mode) (cause : ModeCause) (s : State) : State :=
  let t := if m == .joined then s else dropTurn s
  giveEvent (.modeChanged s.ctrl.mode m cause) { t with ctrl := { t.ctrl with mode := m } }

/-- Learning begins (R66): 24 entries UNKNOWN but for the carried runs, the round count 0. -/
def beginLearning (epoch : Option Epoch) (runs : List CarriedRun) (s : State) : State :=
  let L : Learning :=
    { table := carryRuns s.station runs (List.replicate 24 { use := .unknown, carried := false }),
      epoch := epoch, rounds := 0, carried := runs }
  { s with table := { s.table with learning := some L } }

/-- Learning in progress is discarded (R66). -/
def discardLearning (s : State) : State := { s with table := { s.table with learning := none } }

/-- The send entry is in LIVE, HELD or RELEASING. -/
def SendEntry.holdsSlots (e : SendEntry) : Bool := e.state == .live || e.state == .held || e.state == .releasing

/-- Some own send entry in LIVE, HELD or RELEASING has the tag. -/
def State.keepsTag (s : State) (t : Tag) : Bool :=
  allPorts.any (fun p => (s.send.get p).holdsSlots && s.tagOf p == t)

/-- The runs that learning carries in RESYNC (R66): each run the live table lists as this station's with the tag of one of its own
entries in LIVE, HELD or RELEASING, and the pending-claim run. -/
def resyncRuns (s : State) : List CarriedRun :=
  (collectRuns 0 (s.table.live.map (fun e =>
      match e.use with
      | .owned o t => if o == s.station && s.keepsTag t then some t else none
      | .openSlot => none
      | .unknown => none)) none).map
    (fun rt => { run := rt.1, tag := rt.2, pending := false, broken := false })
  ++ pendingRuns s

/-- Entry into RESYNC: learning begins at once, from the given epoch (R66, R168, R170). -/
def enterResync (cause : ModeCause) (epoch : Epoch) (s : State) : State :=
  beginLearning (some epoch) (resyncRuns s) (changeMode .resync cause s)

/-- Entry into DARK with a return mode (R164, R169): the event of a withdrawn CLAIM before MODE_CHANGED (R183; DESIGN CHOICE, log 65). -/
def enterDark (returnMode : Mode) (s : State) : State :=
  let s := endFlightOnLeaving (discardLearning s)
  let s := changeMode .dark .darkOnset s
  { s with ctrl := { s.ctrl with
      darkRounds := some 0, returnMode := some returnMode, alone := none, lockTaken := none, startCount := none } }

/-- The onset of the DARK condition reaches the controller (R162, R169). -/
def darkOnset (s : State) : State :=
  match s.ctrl.mode with
  | .listening => enterDark .listening s
  | .joined => enterDark .joined s
  | .resync => enterDark .resync s
  | .starting => s
  | .dark => s
  | .faulted => s

/-- The end of the DARK condition reaches the controller (R170). -/
def darkEnd (s : State) : State :=
  match s.ctrl.mode with
  | .dark =>
    let spell := s.ctrl.darkRounds.getD 0
    let back := { s with ctrl := { s.ctrl with darkRounds := none, returnMode := none } }
    match s.ctrl.returnMode with
    | some .joined =>
      if spell < Config.aloneLimit && (pendingRuns s).isEmpty then changeMode .joined .darkEnd back
      else enterResync .darkEnd s.table.epoch back
    | some .resync => enterResync .darkEnd s.table.epoch back
    | _ =>
      let s := changeMode .listening .darkEnd back
      { s with ctrl := { s.ctrl with alone := some 0, lockTaken := some false } }
  | .starting => s
  | .listening => s
  | .joined => s
  | .resync => s
  | .faulted => s

/-- Entry into FAULTED (R172): the event of a withdrawn CLAIM before MODE_CHANGED and FAULT (R183; DESIGN CHOICE, log 65). -/
def enterFaulted (reason : FaultReason) (cause : ModeCause) (s : State) : State :=
  let s := endFlightOnLeaving (discardLearning s)
  let s := { s with lanes := s.lanes.map Lane.cutDrive, drive := { s.drive with handed := none } }
  let s := changeMode .faulted cause s
  let s := { s with ctrl := { s.ctrl with
      faultReason := some reason, startCount := none, alone := none, lockTaken := none, darkRounds := none,
      returnMode := none, context := { s.ctrl.context with valid := false } } }
  giveEvent (.fault reason) s

/-- The modes in which a station can leave for FAULTED by a duplicate number (R162, R171). -/
def Mode.detectsDuplicate : Mode → Bool
  | .listening => true
  | .joined => true
  | .resync => true
  | .starting => false
  | .dark => false
  | .faulted => false

/-- The epoch rule (R64): in JOINED an epoch ahead of the table epoch puts the station into RESYNC. -/
def testEpoch (e : Epoch) (s : State) : State :=
  if s.ctrl.mode == .joined && serialAhead s.table.epoch e then enterResync .epochAhead e s else s

/-- The station number is heard: its age returns to 0 (R65). -/
def hear (n : StationNo) (s : State) : State :=
  { s with table := { s.table with heard := s.table.heard.set n.toNat 0 } }

/-! ### Lane states (section 3.4) -/

/-- The controller and the repair service meet a change of lane state: the turn ends when no lane is transmit-usable (R132), and
the onset or the end of the DARK condition is reported (R54). -/
def laneChanged (wasDark : Bool) (s : State) : State :=
  let s := dropTurnIfMute s
  if !wasDark && darkCondition s.lanes then darkOnset s
  else if wasDark && !darkCondition s.lanes then darkEnd s
  else s

/-- Entry into SURGE at reading `t` (R43, R44, R46): the drive is cut and counted, usability is withdrawn, an open reading ends. -/
def Lane.surge (cause : SurgeCause) (t : Nat) (l : Lane) : Lane :=
  let l :=
    if l.drive == .contending || l.drive == .driving then { l.cutDrive.countViolations 1 with cutAt := some t } else l
  { l with state := .surge, cause := some cause, echoOwed := l.echoOwed || cause == .echoLate, rounds := 0, contPhase := 0,
           quiet := 0, marks := 0, admitted := false, lostAt := if l.usableSince.isSome && l.lostAt.isNone then some t else l.lostAt,
           search := none }

/-- A lane enters SURGE with a cause: LANE_CHANGED is given (which latches SURGE), then the DARK condition is judged (R44, R53, R54). The events
of DARK onset come after LANE_CHANGED (R183; DESIGN CHOICE, log 65). -/
def enterSurge (id : LaneId) (cause : SurgeCause) (s : State) : State :=
  let prev := (s.lanes.get id).state
  let t := s.mapLane id (Lane.surge cause s.clock.timer)
  laneChanged (darkCondition s.lanes) (giveEvent (.laneChanged id prev .surge (some cause)) t)

/-- Entry into SETTLING (R48): the cause is kept as ECHO_LATE only while the echo check is owed; the lane is receive-usable at once
and contributes from the next field. A lane that left the receive-usable states in the field in progress stays ERASED for it (R31). -/
def Lane.settle (t : Nat) (l : Lane) : Lane :=
  { l with state := .settling, cause := if l.echoOwed then some .echoLate else none, rounds := 0, quiet := 0, marks := 0,
           usableSince := if l.lostAt.isSome then l.usableSince else some t }

/-- A lane enters SETTLING (R48, R53, R54): LANE_CHANGED, then MODE_CHANGED at the end of DARK (R183; DESIGN CHOICE, log 65). -/
def enterSettling (id : LaneId) (s : State) : State :=
  let t := s.mapLane id (Lane.settle s.clock.timer)
  laneChanged (darkCondition s.lanes) (giveEvent (.laneChanged id .surge .settling (t.lanes.get id).cause) t)

/-- A lane in CLEAR, SUSPECT or SETTLING changes to CLEAR or SUSPECT (R42, R51, R53). Usability for reception stands. -/
def enterUsable (id : LaneId) (new : LaneState) (s : State) : State :=
  let prev := (s.lanes.get id).state
  giveEvent (.laneChanged id prev new none)
    (s.mapLane id (fun l => { l with state := new, cause := none, rounds := 0, quiet := 0, marks := 0 }))

/-- The cause of a SURGE lane changes (R45): an event without a latch, and no count restarts. -/
def changeCause (id : LaneId) (cause : SurgeCause) (s : State) : State :=
  giveEvent (.laneChanged id .surge .surge (some cause)) (s.mapLane id (fun l => { l with cause := some cause }))

/-- A SETTLING lane with an exit count met and no echo check owed enters CLEAR (R51). -/
def settleExit (id : LaneId) (s : State) : State :=
  let l := s.lanes.get id
  if l.state == .settling && !l.echoOwed && (4 ≤ l.marks || 32 ≤ l.quiet) then enterUsable id .clear s else s

/-! ### Changes of the live table -/

/-- The send engine meets a change of the live table (R121, R122). -/
def checkSend (p : Port) (s : State) : State :=
  let e := s.send.get p
  let owned := fun r => runOwned s.table.live r s.station (s.tagOf p)
  match e.state with
  | .live =>
    match e.slotRun.or e.claimRun with
    | some r => if owned r then s else giveEvent (.slotsLost p r s.table.epoch) (closeSend p s)
    | none => s
  | .held =>
    match e.slotRun with
    | some r => if owned r then s else giveEvent (.slotsLost p r s.table.epoch) (closeSend p s)
    | none => s
  | .releasing =>
    match e.slotRun with
    | some r => if owned r then s else giveEvent (.streamClosed p none) (closeSend p s)
    | none => s
  | .closed => s
  | .claiming => s

/-- The receive engine meets a change of the live table (R142, R157). -/
def checkRecv (p : Port) (s : State) : State :=
  match (s.recv.get p).stream with
  | none => s
  | some st =>
    let listed := s.table.live.any (fun e => e.use.hasTag st.tag)
    if st.active && !listed then
      giveEvent (.receiveWaiting p st.tag)
        (withdrawAsk p (s.mapStream p (fun x => { x with active := false, gaps := [] })))
    else if !st.active && listed then
      giveEvent (.receiveActive p st.tag (runOfTag s.table.live st.tag))
        (s.mapStream p (fun x => { x with active := true }))
    else s

/-- Apply an operation at each port in order. -/
def forPorts (f : Port → State → State) (s : State) : State := f .p3 (f .p2 (f .p1 (f .p0 s)))

/-- The live table has changed: the send engine and the receive engine check their entries, in either order (R183). -/
def tableChanged (sendFirst : Bool) (s : State) : State :=
  if sendFirst then forPorts checkRecv (forPorts checkSend s) else forPorts checkSend (forPorts checkRecv s)

/-- The new use of the slots of a committed run (R58). -/
def Tentative.use (t : Tentative) : SlotUse :=
  match t.kind with
  | .claim => .owned t.owner t.tag
  | .release => .openSlot
  | .reclaim => .openSlot
  | .repairAsk => .openSlot

/-- Commit (R58): each slot of the run is set afresh, and the table epoch advances by one. -/
def commitChange (t : Tentative) (s : State) : State :=
  { s with table := { s.table with
      live := s.table.live.mapIdx (fun n e => if t.run.has n then SlotEntry.fresh t.use else e),
      epoch := s.table.epoch + 1 } }

/-! ### Time within a round (R1, R3) -/

/-- The answer position of the station's plan: the reading at which it begins (R93, R97). -/
def State.answerAt (s : State) : Option Nat :=
  match s.notices.plan with
  | some .accept => some (Config.noticeCloseAt + Config.tickUnits * s.station.toNat)
  | some .rollCall => some (Config.noticeCloseAt + Config.tickUnits * s.station.toNat)
  | some .dissent => some Config.dissentAt
  | none => none

/-- The station's answer position begins: it is driven on every lane that has been transmit-usable since the answer field began (R21, R93;
log 47). -/
def startAnswer (s : State) : State :=
  driveOn Lane.entered (if s.notices.plan == some .dissent then .dissent else .accept) s

/-- The station's answer position ends, and with it its drive, before answer close (R22; DESIGN CHOICE, log 57). -/
def endAnswer (s : State) : State :=
  { s with lanes := s.lanes.map (fun l => { l with drive := .notDriving }), drive := { s.drive with content := .none } }

/-- The last element of the notice body: the body is sent on each lane still in DRIVING (R22, R28). -/
def endNoticeBody (s : State) : State :=
  match s.notices.flight, s.drive.content with
  | some f, .noticeBody =>
    { s with notices := { s.notices with
        flight := some { f with sent := { a := s.lanes.a.drive == .driving, b := s.lanes.b.drive == .driving } } } }
  | _, _ => s

/-- The repair lead-in begins (R130): in JOINED, with a re-send queued, the station contends on every transmit-usable lane with its
head's priority, in the very round too whose start completed learning (DESIGN CHOICE, log 54). -/
def startRepairLeadIn (s : State) : State :=
  let s := beginField Config.repairLeadInAt s
  match s.repair.queue with
  | [] => s
  | r :: _ =>
    if s.ctrl.mode == .joined then
      contendOn (fun id => (s.lanes.get id).transmitUsable) .repairWindow (leadInValue r.priority s.station) s
    else s

/-- The first symbol of a slot (R116, R133): the block handed over is driven on every lane that may be entered, the
station's own block in JOINED, a re-send while the repair turn lasts. The lane has been transmit-usable since the slot began (R21; log
47). -/
def startSlotDrive (s : State) : State :=
  match s.drive.handed with
  | none => s
  | some (_, b) =>
    if (if b.header.resend then s.repair.turn else s.ctrl.mode == .joined) then
      let t := driveOn Lane.entered (.block b) s
      { t with drive := { t.drive with drove := if s.lanes.any Lane.entered then some b else none } }
    else s

/-- The units since the edge of an open-search reading. -/
def Search.elapsed (x : Search) (timer : Nat) : Nat := if x.crossed then x.carried + timer else timer - x.edge

/-- A reading that its eight ticks have outlived without an adoption is dropped (R14); one whose eighth tick ends at this very reading is
still open (DESIGN CHOICE, log 46). -/
def dropStale (timer : Nat) (l : Lane) : Lane :=
  { l with search := l.search.filter (fun x => x.elapsed timer ≤ 8 * Config.tickUnits) }

/-- Apply an operation if the test holds. -/
def applyIf (c : Bool) (f : State → State) (s : State) : State := if c then f s else s

/-- The moments inside a round that no command marks are passed in order of reading: the end of a notice body, the station's
answer position, the repair lead-in, the first symbol of a slot (log 3). -/
def passMoments (crossed : Nat → Bool) (s : State) : State :=
  let answer := fun (s : State) (d : Nat) =>
    match s.answerAt with
    | some t => crossed (t + d)
    | none => false
  let symbol := fun (s : State) =>
    match s.drive.handed with
    | some (n, _) => crossed (Config.slotSymbolAt n)
    | none => false
  let s := applyIf (crossed Config.noticeBodyEnd) endNoticeBody s
  let s := applyIf (answer s 0) startAnswer s
  let s := applyIf (answer s Config.tickUnits) endAnswer s
  let s := applyIf (crossed Config.repairLeadInAt) startRepairLeadIn s
  applyIf (symbol s) startSlotDrive s

/-- The window counter of an enabled lane advances by the window ticks that have passed (R36, R37). At a window close that is due it
stands at 255 until the close. -/
def Lane.countTicks (n : Nat) (l : Lane) : Lane :=
  if l.enabled then { l with windowCounter := min 255 (l.windowCounter + n) } else l

/-- A dominant run has ended: the lane was read passive (R41). -/
def Lane.endRun (l : Lane) : Lane := { l with run := 0, dominant := false, reported := .none }

/-- A dominant run begins: the lane rose from passive to dominant (R41). -/
def Lane.beginRun (l : Lane) : Lane := { l with run := 0, dominant := true, reported := .none }

/-- The dominant-run timer counts while the lane is dominant, and saturates at 50 000. A run that outlives a report it would have given
has ended before it: R41 gives each report at the moment the timer reaches its value (log 4). -/
def Lane.passRun (d : Nat) (l : Lane) : Lane :=
  if l.dominant then
    if (l.reported == .none && Config.longRun < l.run + d) || (l.reported == .long && Config.heldRun < l.run + d) then l.endRun
    else { l with run := min Config.heldRun (l.run + d) }
  else l

/-- The dominant-run timer as read at a moment. Where it differs from the counted one, the run began when no command showed it, and a value
above 1200 has given its long run, whose window is held (R41; log 4). -/
def Lane.readRun (value : Nat) (l : Lane) : Lane :=
  if value = l.run then l
  else
    { l with run := min Config.heldRun value, dominant := decide (0 < value),
             reported := if value ≤ Config.longRun then .none else .long,
             windowHeld := l.windowHeld || decide (Config.longRun < value) }

/-- What a reading shows of the level ends a run that reaches back to the passive moment it tells of, wherever the run began, shows
a run of an enabled lane to be as long as the units it tells dominant, or gives the run that a rise began (R41; log 4). -/
def Lane.tell (shown : LevelShown) (l : Lane) : Lane :=
  match shown with
  | .passiveWithin n => if n ≤ l.run then l.endRun else l
  | .dominantFor n => if l.enabled && l.run < n then l.readRun n else l
  | .risen n => if l.enabled then { l.readRun n with dominant := true } else l
  | .nothing => l

/-- What the readings of a field show of the levels of the two lanes (R41). -/
def tellLevels (a b : LevelShown) (s : State) : State :=
  { s with lanes := { a := s.lanes.a.tell a, b := s.lanes.b.tell b } }

/-- The reading at which the window of an enabled lane is due to close: 256 ticks after the one before it (R37). -/
def State.windowAt (s : State) (l : Lane) : Nat :=
  s.clock.timer + (Config.tickUnits * (Config.windowTicks - l.windowCounter) - s.clock.phase)

/-- How far time may pass before a command is due: to the next field event of the round or its expiry (R3), and to the close of a window
(R37). Time waits there for the command (log 3). -/
def State.horizon (s : State) : Nat :=
  let lane := fun (l : Lane) (r : Nat) => if l.enabled then min r (s.windowAt l) else r
  lane s.lanes.a (lane s.lanes.b (Config.eventAt s.clock.closed))

/-- The reading has not passed, and nothing due before it waits. -/
def State.reaches (s : State) (r : Nat) : Bool := s.clock.timer ≤ r && r ≤ s.horizon

/-- The round timer moves forward to reading `r`, or to the horizon before it, and the local time base with it; the timer never moves
back here (R1, R3, R37; log 3). A moment at that reading is passed before the command that comes there acts (DESIGN CHOICE, log 49). -/
def reach (r : Nat) (s : State) : State :=
  let r := min r s.horizon
  if r ≤ s.clock.timer then s
  else
    let from0 := s.clock.timer
    let base := s.clock.phase + (r - from0)
    let n := base / Config.tickUnits
    let due := s.lanes.any (fun l => l.enabled && Config.windowTicks ≤ l.windowCounter + n)
    let s := passMoments (fun t => from0 < t && t ≤ r) s
    { s with clock := { s.clock with timer := r, phase := if due then Config.tickUnits else base % Config.tickUnits },
             lanes := s.lanes.map (fun l => ((dropStale r l).passRun (r - from0)).countTicks n) }

/-- One 10 ns unit of the local time base, taken when no command waits (R1, R37; log 2). -/
def tick (s : State) : State := reach (s.clock.timer + 1) s

/-- A command that happens at reading `r` acts there; one whose reading has passed, or that a due command precedes, names no event and
changes nothing (R3; log 3). -/
def dated (r : Nat) (f : State → State) (s : State) : State := if s.reaches r then f (reach r s) else s

/-- Field event `k` is the next of the round, and nothing due before it waits (R3). -/
def State.due (s : State) (k : Nat) : Bool := s.clock.closed == k && s.reaches (Config.eventAt k)

/-- The state at field event `k`, which has occurred (R3). -/
def atEvent (k : Nat) (s : State) : State :=
  let s := reach (Config.eventAt k) s
  { s with clock := { s.clock with closed := k + 1 } }

/-- Field event `k` of the round occurs once, in its order (R3). -/
def fieldEvent (k : Nat) (f : State → State) (s : State) : State := if s.due k then f (atEvent k s) else s

/-! ### Replies and the reset hold -/

/-- A command takes place only while no reset holds (R174, log 9). -/
def running (f : State → State) (s : State) : Host.Outcome State Fault Refusal :=
  if s.holding then .next s else .next (f s)

/-- A reply begins: a transaction is open until REPLY_FRAME_SENT (R178). -/
def reply (code : ReplyCode) (content : ReplyContent) (s : State) : State :=
  { s with mgmt := { s.mgmt with reply := some { code := code, content := content } } }

/-- A request is taken when no reset holds and no transaction is open; its reply is formed at that moment. A frame that ends while
a reply is being sent began during it and is discarded (R174, R178; log 8). -/
def request (f : State → State) (s : State) : Host.Outcome State Fault Refusal :=
  running (fun s => if s.mgmt.reply.isSome then s else f s) s

/-- A command whose operands are ill-formed stops safely (log 5). -/
def checked (ok : Bool) (r : Host.Outcome State Fault Refusal) : Host.Outcome State Fault Refusal :=
  if ok then r else .fault .illFormedCommand

end Sys2Proof.Machine
end

