-- ==== Sys2Proof/Machine/Receive.lean ====
section
/-! DEFINITION. The receive engine (chapter 8): the gap list, taking blocks, playout, the repair asker, and OUT_HALF_ITEM_TAKEN. -/

namespace Sys2Proof.Machine

open Sys2Proof

/-! ### The gap list (section 8.5) -/

/-- The distance of a sequence from the first of a run. -/
def GapRun.offset (r : GapRun) (s : Seq) : Nat := (s - r.first).toNat

/-- The run holds the sequence. -/
def GapRun.has (r : GapRun) (s : Seq) : Bool := r.offset s < r.count

/-- The run holds some sequence of first … first + count - 1. -/
def GapRun.meets (r : GapRun) (first : Seq) (count : Nat) : Bool :=
  (List.range count).any (fun i => r.has (first + BitVec.ofNat 16 i))

/-- A run is UNASKED when it has no ask (R151). -/
def GapRun.unasked (r : GapRun) : Bool := r.ask.isNone

/-- An ASKED run that no longer holds any sequence at or behind its ask reach returns to UNASKED, asks used 0 (R152). -/
def GapRun.settle (r : GapRun) : GapRun :=
  match r.ask with
  | none => r
  | some a => if serialAtOrBehind r.first a.reach then r else { r with ask := none, asksUsed := 0 }

/-- A sequence that has become MISSING joins the list (R151). -/
def joinGap (s : Seq) (gaps : List GapRun) : List GapRun :=
  match gaps.getLast? with
  | some r =>
    if r.first + BitVec.ofNat 16 r.count = s then gaps.dropLast ++ [{ r with count := r.count + 1 }]
    else if gaps.length < Config.gapListSize then gaps ++ [{ first := s, count := 1, asksUsed := 0, ask := none }]
    else gaps
  | none => [{ first := s, count := 1, asksUsed := 0, ask := none }]

/-- What remains of a run when one of its sequences leaves it (R152); `room` says that fewer than 16 runs are listed. -/
def GapRun.without (r : GapRun) (s : Seq) (room : Bool) : List GapRun :=
  let i := r.offset s
  if r.count ≤ 1 then []
  else if i = 0 then [({ r with first := r.first + 1, count := r.count - 1 } : GapRun).settle]
  else if i + 1 = r.count then [({ r with count := r.count - 1 } : GapRun).settle]
  else if room then
    [({ r with count := i } : GapRun).settle,
     ({ r with first := s + 1, count := r.count - (i + 1) } : GapRun).settle]
  else [({ r with count := i } : GapRun).settle]

/-- The first run that holds the sequence changes, the others stand. -/
def removeFrom (s : Seq) (room : Bool) : List GapRun → List GapRun
  | [] => []
  | r :: rest => if r.has s then r.without s room ++ rest else r :: removeFrom s room rest

/-- A sequence leaves the gap list (R152). -/
def leaveGap (s : Seq) (gaps : List GapRun) : List GapRun := removeFrom s (gaps.length < Config.gapListSize) gaps

/-! ### The playout window (sections 8.1, 8.3) -/

/-- The next expected sequence becomes MISSING, due D rounds from now, and joins the gap list (R144, R146). -/
def RecvStream.addMissing (now : Round) (a : Anchor) (st : RecvStream) : RecvStream :=
  let s := st.nextExpected a
  { st with window := st.window ++ [{ block := none, seq := s, gen := a.gen, due := now + BitVec.ofNat 32 st.delay }],
            gaps := joinGap s st.gaps }

/-- The next `n` expected sequences become MISSING (R144). -/
def RecvStream.addManyMissing (now : Round) (a : Anchor) : Nat → RecvStream → RecvStream
  | 0, st => st
  | n + 1, st => RecvStream.addManyMissing now a n (st.addMissing now a)

/-- The next expected sequence becomes HELD with the block, due D rounds from now (R144). -/
def RecvStream.addHeld (now : Round) (a : Anchor) (b : Block) (st : RecvStream) : RecvStream :=
  { st with window := st.window ++
      [{ block := some (b.header.fill, b.payload), seq := st.nextExpected a, gen := a.gen,
         due := now + BitVec.ofNat 32 st.delay }] }

/-- The place of a sequence counted from the next playout place (R140). -/
def Anchor.place (a : Anchor) (s : Seq) : Nat := (s - a.nextPlayout).toNat

/-- The block fills the place of its sequence if that place is unplayed, MISSING and of the current generation; it keeps its due
round, and the sequence leaves the gap list (R145, R147). Otherwise it is discarded as duplicate, late or foreign. -/
def RecvStream.fill (a : Anchor) (b : Block) (st : RecvStream) : RecvStream :=
  match st.window[a.place b.header.seq]? with
  | some pl =>
    if pl.block.isNone && pl.gen == a.gen then
      { st with window := st.window.set (a.place b.header.seq) { pl with block := some (b.header.fill, b.payload) },
                gaps := leaveGap b.header.seq st.gaps }
    else st
  | none => st

/-- A block of the current generation at or ahead of the next expected sequence, inside the window: the sequences before
it become MISSING and its own place HELD (R144). -/
def RecvStream.takeAhead (now : Round) (a : Anchor) (b : Block) (st : RecvStream) : RecvStream :=
  (st.addManyMissing now a (b.header.seq - st.nextExpected a).toNat).addHeld now a b

/-- The entry re-anchors at a sequence beyond its empty window (R144). The next playout place moves with the sequence, so that an
entry that never rebased keeps the place of s at s mod W (R140; log 10). -/
def RecvStream.reAnchor (a : Anchor) (s : Seq) (st : RecvStream) : Anchor :=
  { a with nextPlayout := s, nextPlace := (a.nextPlace + a.place s) % st.cls.size }

/-- A block of the current generation is taken (R144, R145). -/
def takeCurrent (p : Port) (b : Block) (a : Anchor) (st : RecvStream) (s : State) : State :=
  let now := s.clock.round
  let seq := b.header.seq
  let next := st.nextExpected a
  if seq == next || serialAhead next seq then
    if a.place seq < st.cls.size then s.mapStream p (fun x => x.takeAhead now a b)
    else if st.window.isEmpty then
      let a' := st.reAnchor a seq
      let lost := (seq - next).toNat
      giveEvent (.blocksLost p next lost a.gen)
        (s.mapStream p (fun x => { x with anchor := some a' }.addHeld now a' b))
    else s
  else if serialAhead seq next then s.mapStream p (fun x => x.fill a b)
  else s

/-- The entry rebases to a new generation, before the block is taken (R156). -/
def rebase (p : Port) (b : Block) (a : Anchor) (st : RecvStream) (s : State) : State :=
  let a' : Anchor :=
    { a with gen := b.header.gen, nextPlayout := b.header.seq - BitVec.ofNat 16 st.window.length }
  giveEvent (.rebased p a.gen b.header.gen b.header.seq)
    (withdrawAsk p (s.mapStream p (fun x => { x with anchor := some a', gaps := [] })))

/-- The anchor at the first block of the stream (R142). -/
def firstAnchor (b : Block) (st : RecvStream) : Anchor :=
  { gen := b.header.gen, nextPlayout := b.header.seq, nextPlace := b.header.seq.toNat % st.cls.size }

/-- Take a block with the entry as it stands: its generation is current (R144, R145). -/
def takeStanding (p : Port) (b : Block) (s : State) : State :=
  match (s.recv.get p).stream with
  | none => s
  | some st =>
    match st.anchor with
    | none => s
    | some a => takeCurrent p b a st s

/-- A block of the stream is taken at a slot pass: an unanchored entry anchors at it (R142), a new generation rebases first
(R144, R156). -/
def takeBlock (p : Port) (b : Block) (s : State) : State :=
  match (s.recv.get p).stream with
  | none => s
  | some st =>
    match st.anchor with
    | none => takeStanding p b (s.mapStream p (fun x => { x with anchor := some (firstAnchor b x) }))
    | some a => takeStanding p b (if b.header.gen = a.gen then s else rebase p b a st s)

/-- A slot without a block (R146): an anchored entry with room marks the next expected sequence missing. -/
def markMissing (p : Port) (s : State) : State :=
  s.mapStream p (fun st =>
    match st.anchor with
    | some a => if st.window.length < st.cls.size then st.addMissing s.clock.round a else st
    | none => st)

/-- A re-sent block is offered to an entry (R147). -/
def takeResent (b : Block) (p : Port) (s : State) : State :=
  s.mapStream p (fun st =>
    match st.anchor with
    | some a =>
      if st.active && st.tag == b.header.tag && b.header.resend && b.header.gen == a.gen
          && serialAhead b.header.seq (st.nextExpected a) then st.fill a b
      else st
    | none => st)

/-- The re-sent block of a merged result, offered to every entry (R147). -/
def takeResents (m : Copy Block) (s : State) : State :=
  match m with
  | .valid b => forPorts (takeResent b) s
  | .erased => s
  | .idle => s

/-- One receive entry at the pass of slot n (R143): a block of its stream is taken, any other result is a slot
without a block. -/
def servePass (n : Nat) (m : Copy Block) (p : Port) (s : State) : State :=
  match (s.recv.get p).stream with
  | none => s
  | some st =>
    match useAt s.table.live n with
    | .owned owner tag =>
      if st.active && tag == st.tag then
        match m with
        | .valid b =>
          if b.header.scheduleBearing n && b.header.tag == tag && b.header.owner == owner then takeBlock p b s
          else markMissing p s
        | .erased => markMissing p s
        | .idle => markMissing p s
      else s
    | .openSlot => s
    | .unknown => s

/-! ### Playout (section 8.4) -/

/-- An item is handed to the out half; with all 8 places taken it is discarded, and the first discard of a run
gives PORT_ERROR (R150). -/
def handItem (p : Port) (seq : Seq) (item : OutItem) (s : State) : State :=
  let e := s.recv.get p
  if e.out.length < Config.fifoSize then s.mapRecv p (fun e => { e with out := e.out ++ [item], overflow := false })
  else if e.overflow then s
  else giveEvent (.recvPortError p (.overflow seq)) (s.mapRecv p (fun e => { e with overflow := true }))

/-- The place is due at the round or was due before it (R149). -/
def Place.isDue (now : Round) (pl : Place) : Bool := serialAtOrBehind pl.due now

/-- One place is played (R149): a block or a loss marker is handed on, a FILL block is consumed. -/
def playPlace (p : Port) (pl : Place) (s : State) : State :=
  match pl.block with
  | some (true, _) => s
  | some (false, payload) => handItem p pl.seq (.block payload) s
  | none => handItem p pl.seq .lossMarker s

/-- The loss runs of the places played: maximal runs of consecutive MISSING places of one generation (R149; log 18). -/
def lossRuns : List Place → Option (Seq × Nat × Gen) → List (Seq × Nat × Gen)
  | [], cur => cur.toList
  | pl :: rest, cur =>
    match pl.block, cur with
    | none, some (f, c, g) =>
      if g = pl.gen then lossRuns rest (some (f, c + 1, g)) else (f, c, g) :: lossRuns rest (some (pl.seq, 1, pl.gen))
    | none, none => lossRuns rest (some (pl.seq, 1, pl.gen))
    | some _, some r => r :: lossRuns rest none
    | some _, none => lossRuns rest none

/-- The gap list after the places were played: each MISSING sequence of the current generation leaves it (R149, R152). -/
def gapsAfter (gen : Gen) (played : List Place) (gaps : List GapRun) : List GapRun :=
  played.foldl (fun g pl => if pl.block.isNone && pl.gen == gen then leaveGap pl.seq g else g) gaps

/-- Playout of one receive entry (R149). -/
def playout (p : Port) (s : State) : State :=
  match (s.recv.get p).stream with
  | none => s
  | some st =>
    match st.anchor with
    | none => s
    | some a =>
      let played := st.window.takeWhile (Place.isDue s.clock.round)
      let a' : Anchor :=
        { a with nextPlayout := a.nextPlayout + BitVec.ofNat 16 played.length,
                 nextPlace := (a.nextPlace + played.length) % st.cls.size }
      let s := s.mapStream p (fun x =>
        { x with anchor := some a', window := x.window.dropWhile (Place.isDue s.clock.round),
                 gaps := gapsAfter a.gen played x.gaps })
      let s := played.foldl (fun s pl => playPlace p pl s) s
      (lossRuns played none).foldl (fun s r => giveEvent (.blocksLost p r.1 r.2.1 r.2.2) s) s

/-! ### The repair asker (section 8.6) -/

/-- The round is at least 8 rounds ahead of now (R82, R153). -/
def farAhead (now due : Round) : Bool := serialAhead now due && Config.askLead ≤ (due - now).toNat

/-- The place of a sequence is MISSING, of the current generation, and due at least 8 rounds ahead (R82). -/
def RecvStream.askable (st : RecvStream) (now : Round) (s : Seq) : Bool :=
  match st.anchor with
  | none => false
  | some a =>
    match st.window[a.place s]? with
    | some pl => pl.block.isNone && pl.gen == a.gen && farAhead now pl.due
    | none => false

/-- A run that may be asked for, with the distance of its first due round (R153). -/
structure AskCandidate where
  port  : Port
  tag   : Tag
  first : Seq
  count : Nat
  lead  : Nat
deriving DecidableEq, Repr

/-- The UNASKED runs of an entry whose first sequence is due at least 8 rounds ahead, in the order of the gap list (R153). -/
def askCandidates (s : State) (p : Port) : List AskCandidate :=
  match (s.recv.get p).stream with
  | none => []
  | some st =>
    match st.active, st.anchor with
    | true, some a =>
      st.gaps.filterMap (fun r =>
        match st.window[a.place r.first]? with
        | some pl =>
          if r.unasked && farAhead s.clock.round pl.due then
            some { port := p, tag := st.tag, first := r.first, count := min 16 r.count,
                   lead := (pl.due - s.clock.round).toNat }
          else none
        | none => none)
    | _, _ => []

/-- The candidate with the earliest due round (R153); of equal ones of one entry the one that stands first in the gap list (DESIGN CHOICE,
log 62). -/
def earliestCandidate : List AskCandidate → Option AskCandidate
  | [] => none
  | c :: rest =>
    match earliestCandidate rest with
    | some d => if d.lead < c.lead then some d else some c
    | none => some c

/-- The repair asker offers a REPAIR_ASK, unless one of a receive entry is queued (R153). -/
def askRepairs (s : State) : State :=
  if s.notices.queue.any (fun q => q.kind == .repairAsk) then s
  else
    match earliestCandidate (allPorts.flatMap (askCandidates s)) with
    | some c => offer (askNotice c.port c.tag c.first c.count) s
    | none => s

/-- The wait of an ASKED run has ended: its last ask is 32 or more rounds behind (R155). -/
def GapRun.waitedOut (now : Round) (r : GapRun) : Bool :=
  match r.ask with
  | some a => serialAhead a.lastRound now && Config.askWait ≤ (now - a.lastRound).toNat
  | none => false

/-- The waits of one entry's ASKED runs (R155). Several abandoned ones give their REPAIR_GONE in the order of the gap list (DESIGN CHOICE,
log 67). -/
def endWaits (p : Port) (s : State) : State :=
  match (s.recv.get p).stream with
  | none => s
  | some st =>
    let now := s.clock.round
    let gone := st.gaps.filter (fun r => r.waitedOut now && 3 ≤ r.asksUsed)
    let kept := (st.gaps.filter (fun r => !(r.waitedOut now && 3 ≤ r.asksUsed))).map
      (fun r => if r.waitedOut now then { r with ask := none } else r)
    gone.foldl (fun s r => giveEvent (.repairGone p r.first r.count .limit) s)
      (s.mapStream p (fun x => { x with gaps := kept }))

/-- An ask was ACCEPTED: every run that holds one of its sequences becomes ASKED (R154). -/
def askAccepted (p : Port) (first : Seq) (count : Nat) (s : State) : State :=
  let now := s.clock.round
  s.mapStream p (fun x => { x with gaps := x.gaps.map (fun r =>
    if r.meets first count then
      { r with asksUsed := min 3 (r.asksUsed + 1),
               ask := some { lastRound := now, reach := first + BitVec.ofNat 16 (count - 1) } }
    else r) })

/-- An ask was GONE: every run that holds one of its sequences is abandoned, with one REPAIR_GONE (R154). -/
def askGone (p : Port) (first : Seq) (count : Nat) (s : State) : State :=
  giveEvent (.repairGone p first count .dissent)
    (s.mapStream p (fun x => { x with gaps := x.gaps.filter (fun r => !r.meets first count) }))

/-- OUT_HALF_ITEM_TAKEN: the local equipment takes the oldest item of a port's out half (R150). -/
def execOutHalfItemTaken (p : Port) (s : State) : Host.Outcome State Fault Refusal :=
  running (fun s => s.mapRecv p (fun e => { e with out := e.out.tail })) s

end Sys2Proof.Machine
end

