-- ==== Sys2Proof/WellFormed.lean ====
section
/-! DEFINITION. The checks a command's operands must pass to name an event the manual has. -/

namespace Sys2Proof

/-- Every step of a round start, in one admissible order: the order used where a sender has no other wish. -/
def RoundStep.all : List RoundStep :=
  [.monitors, .heard, .playout, .askWaits, .counts, .runs, .held, .learning, .orphans, .reclaims, .claimLimit,
   .revalidate, .asker, .select, .rewrite]

/-- Every block that acts at notice window close. -/
def CloseStep.all : List CloseStep := [.slotTable, .noticeEngine, .controller]

/-- Every block that acts at a slot pass. -/
def PassStep.all : List PassStep := [.slotTable, .sendEngine, .receiveEngine, .controller]

/-- `xs` lists each member of `ys` once and nothing else. -/
def listsEachOnce {α : Type} [DecidableEq α] (xs ys : List α) : Bool :=
  xs.length == ys.length && ys.all (fun y => xs.contains y)

/-- `x` stands before `y` in the list. -/
def standsBefore {α : Type} [DecidableEq α] (x y : α) (l : List α) : Bool := l.idxOf x < l.idxOf y

/-- The orders of a round start that the manual admits: every step once; R83 before R82 before R84; the orphan list is dealt with after
it is formed (R167); and, DEDUCED (log 6), claim runs before the HELD limit before the completion of learning. -/
def RoundOrder.admissible (o : RoundOrder) : Bool :=
  listsEachOnce o.steps RoundStep.all
  && standsBefore .claimLimit .revalidate o.steps
  && standsBefore .revalidate .select o.steps
  && standsBefore .learning .orphans o.steps
  && standsBefore .runs .held o.steps
  && standsBefore .held .learning o.steps

/-- Every order of the three blocks at notice window close is admitted. -/
def CloseOrder.admissible (o : CloseOrder) : Bool := listsEachOnce o.steps CloseStep.all

/-- Every order of the four blocks at a slot pass is admitted. -/
def passAdmissible (o : List PassStep) : Bool := listsEachOnce o PassStep.all

/-- The request kinds of R179, numbered 1-11 (section 11.6). -/
def knownRequestKind (k : Byte) : Bool := 1 ≤ k.toNat && k.toNat ≤ 11

/-- A command whose operands name an event the manual has. Readings are not checked here: an edge outside its window
is an edge that the clock does not accept. -/
def Instr.wellFormed : Instr → Bool
  | .unknownRequestKind k => !knownRequestKind k
  | .roundTimerExpiry o => o.admissible
  | .earlyWindowEdge _ _ o => o.admissible
  | .openSearchAdoption _ _ _ o => o.admissible
  | .noticeWindowClose _ _ o => o.admissible
  | .slotPass _ _ _ o => passAdmissible o
  | .openSend _ _ _ _ => true
  | .openReceive _ _ _ _ => true
  | .close _ => true
  | .readStream _ => true
  | .readLanes => true
  | .readSlot _ => true
  | .readStation => true
  | .takeEvents _ => true
  | .setAlertMask _ => true
  | .clearAlert _ => true
  | .holdLane _ _ => true
  | .frameDiscarded _ => true
  | .frameIdleTimeout => true
  | .replyFrameSent => true
  | .lateWindowEdge _ _ => true
  | .deferralPoint => true
  | .markClose _ _ _ => true
  | .seventhLeadInTick _ => true
  | .arbitrationLoss _ _ _ => true
  | .driveFault _ _ _ => true
  | .echoMismatch _ _ => true
  | .echoMeasurement _ _ _ => true
  | .echoLate _ _ => true
  | .answerClose _ _ _ => true
  | .repairWindowClose _ _ => true
  | .slotStart _ => true
  | .resendSent => true
  | .windowClose _ _ _ _ => true
  | .longRun _ _ => true
  | .heldRun _ _ => true
  | .codeViolation _ _ _ => true
  | .uncleanStretch _ _ => true
  | .lengthWord _ _ => true
  | .dataByte _ _ => true
  | .outHalfItemTaken _ => true
  | .supplyWarn => true
  | .supplyOk => true
  | .supplyReset => true
  | .backupSupplyLow => true
  | .powerOnReset => true
  | .pinReset => true
  | .resetRelease _ _ => true
  | .openSearchEdge _ _ _ => true

end Sys2Proof
end

