-- ==== Sys2Proof/Machine/RoundStart.lean ====
section
/-! DEFINITION. The local round start (R2): every action of every block at it, one function for each step of `RoundStep`, taken in
the order that the command carries. -/

namespace Sys2Proof.Machine

open Sys2Proof

/-- What a round start knows of the moment before it: the mode that its steps count by (R162), whether it fell at expiry (R165), the
return mode of DARK (R176), and which engine meets a table change first (R183). -/
structure RoundCtx where
  mode       : Mode
  expiry     : Bool
  returnMode : Option Mode
  sendFirst  : Bool
deriving DecidableEq, Repr

/-! ### Lane monitors, heard set, counts -/

/-- Rounds in state and continuation phase of an enabled lane (R47). -/
def Lane.roundStart (l : Lane) : Lane :=
  if l.enabled then
    { l with rounds := min 65535 (l.rounds + 1),
             contPhase := if l.state == .surge then (l.contPhase + 1) % 16 else l.contPhase }
  else l

/-- One lane monitor at a round start: every 16 round starts in SURGE give SURGE_CONTINUES (R47). -/
def monitorRound (id : LaneId) (s : State) : State :=
  let s := s.mapLane id Lane.roundStart
  let l := s.lanes.get id
  if l.state == .surge && l.contPhase == 0 then giveEvent (.surgeContinues id l.cause l.rounds) s else s

/-- Every age of the heard set below 256 advances by one (R65). -/
def ageHeard (s : State) : State :=
  { s with table := { s.table with heard := s.table.heard.map (fun age => min 256 (age + 1)) } }

/-- The 16th round start of STARTING (R164). -/
def endStarting (s : State) : State :=
  let t := { s with ctrl := { s.ctrl with startCount := none } }
  if !(s.lanes.a.enabled || s.lanes.b.enabled) then enterFaulted .noLane .noLane t
  else if darkCondition s.lanes then enterDark .listening t
  else
    let t := changeMode .listening .startDone t
    { t with ctrl := { t.ctrl with alone := some 0, lockTaken := some false } }

/-- The live table with every entry OPEN and the epoch 0, learning discarded (R73). -/
def setAllOpen (s : State) : State :=
  { s with table := { s.table with
      live := s.table.live.map (fun _ => SlotEntry.fresh .openSlot), epoch := 0, learning := none } }

/-- The alone limit (R166): the engines' events, then MODE_CHANGED (R183; DESIGN CHOICE, log 58). -/
def reachAloneLimit (sendFirst : Bool) (s : State) : State :=
  let s := setAllOpen s
  let c := s.ctrl.context
  let s := { s with ctrl := { s.ctrl with
      alone := none, lockTaken := none,
      context := if c.valid then { c with records := [], valid := false } else c } }
  changeMode .joined .alone (tableChanged sendFirst s)

/-- The controller's counts of round starts (R163 to R166, R169). -/
def countRounds (ctx : RoundCtx) (s : State) : State :=
  match ctx.mode with
  | .starting =>
    let n := s.ctrl.startCount.getD 0 + 1
    let s := { s with ctrl := { s.ctrl with startCount := some n } }
    if Config.startRounds ≤ n then endStarting s else s
  | .listening =>
    match s.ctrl.alone with
    | some n =>
      if ctx.expiry then
        let n := min Config.aloneLimit (n + 1)
        let s := { s with ctrl := { s.ctrl with alone := some n } }
        if Config.aloneLimit ≤ n && s.ctrl.lockTaken == some false then reachAloneLimit ctx.sendFirst s else s
      else s
    | none => s
  | .dark =>
    { s with ctrl := { s.ctrl with darkRounds := s.ctrl.darkRounds.map (fun n => min Config.aloneLimit (n + 1)) } }
  | .joined => s
  | .resync => s
  | .faulted => s

/-! ### Completion of learning (R70, R71, R96, R165, R177) -/

/-- The learned epoch is adopted: it is present and ahead of the table epoch (R71). -/
def Learning.adopts (L : Learning) (epoch : Epoch) : Bool :=
  match L.epoch with
  | some e => serialAhead epoch e
  | none => false

/-- What a learned entry becomes at completion (R71, steps 1 to 3). -/
def Learning.finalUse (L : Learning) (adopted : Bool) (n : Nat) (e : LearnedEntry) : SlotUse :=
  if e.carried && L.carried.any (fun r => r.run.has n && (r.broken || (r.pending && !adopted))) then .openSlot
  else if e.use == .unknown then .openSlot else e.use

/-- The number of converted entries (R71, step 1). -/
def Learning.converted (L : Learning) : Nat := (L.table.filter (fun e => e.use == .unknown)).length

/-- No entry of the learned table is UNKNOWN, or 8 round starts have come (R70). -/
def Learning.complete (L : Learning) : Bool := L.converted == 0 || Config.learnRounds ≤ L.rounds

/-- The learned table replaces the live table, with RESYNC_DONE (R71). -/
def replaceTable (L : Learning) (s : State) : State :=
  let adopted := L.adopts s.table.epoch
  let epoch := if adopted then L.epoch.getD s.table.epoch else s.table.epoch
  giveEvent (.resyncDone epoch L.converted)
    { s with table := { s.table with
        live := L.table.mapIdx (fun n e => SlotEntry.fresh (L.finalUse adopted n e)), epoch := epoch, learning := none } }

/-- The pending claim is settled against the replaced table (R96). The report carries no accept bitmap (log 19). -/
def settlePending (s : State) : State :=
  match s.notices.queue.find? (·.pending) with
  | none => s
  | some q =>
    let record := { outcomeRecord q s with answer := none }
    let without := s.mapQueue (fun l => l.filter (fun x => !x.pending))
    if runOwned s.table.live q.run s.station q.tag then
      match q.origin with
      | .send p => claimCommitted p q record true without
      | .recv _ => without
      | .slotTable => without
      | .controller => without
    else if q.withdrawn then withdrawnEnds q record without
    else s.mapQueue (fun l => l.map (fun x => { x with pending := false }))

/-- A record of the retained context matches the replaced table (R177). -/
def ContextRecord.matches (r : ContextRecord) (s : State) : Bool := runOwned s.table.live r.run s.station r.tag

/-- The send entry of a matching record (R177). -/
def ContextRecord.heldEntry (r : ContextRecord) : SendEntry :=
  { SendEntry.reset with
      state := .held, priority := some r.priority, cls := some r.cls, slotRun := some r.run, gen := r.gen + 1,
      heldRounds := some 0 }

/-- The warm rejoin examination (R177). -/
def warmRejoin (s : State) : State :=
  let c := s.ctrl.context
  if c.valid then
    let kept := c.records.filter (·.matches s)
    let s := kept.foldl (fun s r => s.mapSend r.port (fun _ => r.heldEntry)) s
    { s with ctrl := { s.ctrl with context := { c with records := kept, valid := false } } }
  else s

/-- Slot n lies in the slot run of a HELD send entry. -/
def State.heldHas (s : State) (n : Nat) : Bool :=
  allPorts.any (fun p =>
    match (s.send.get p).state, (s.send.get p).slotRun with
    | .held, some r => r.has n
    | _, _ => false)

/-- The orphan list is formed (R167). -/
def formOrphans (s : State) : State :=
  let keys := s.table.live.mapIdx (fun n e =>
    match e.use with
    | .owned o t => if o == s.station && !s.heldHas n then some t else none
    | .openSlot => none
    | .unknown => none)
  { s with ctrl := { s.ctrl with
      orphans := (collectRuns 0 keys none).flatMap (fun rt => rt.1.parts.map (fun r => { run := r, tag := rt.2 })) } }

/-- Learning completes (R71): replacement, the engines' checks, the pending claim, the warm rejoin when the station comes from
LISTENING (R165), and the change to JOINED. Their events are given in this order (R183; DESIGN CHOICE, log 58). -/
def completeLearning (ctx : RoundCtx) (L : Learning) (s : State) : State :=
  let s := settlePending (tableChanged ctx.sendFirst (replaceTable L s))
  let s :=
    if ctx.mode == .listening then
      let s := formOrphans (warmRejoin s)
      { s with ctrl := { s.ctrl with alone := none, lockTaken := none } }
    else s
  changeMode .joined .learned s

/-- Learning at a round start (R70). -/
def learnRound (ctx : RoundCtx) (s : State) : State :=
  match s.table.learning with
  | none => s
  | some L =>
    let L := { L with rounds := L.rounds + 1 }
    if L.complete then completeLearning ctx L s
    else { s with table := { s.table with learning := some L } }

/-! ### Send entries -/

/-- The claim run of a committed claim becomes the slot run (R110, R120). -/
def SendEntry.takeSlotRun (e : SendEntry) : SendEntry :=
  match e.claimRun with
  | some r => { e with slotRun := some r, claimRun := none }
  | none => e

/-- The claim run of a LIVE entry becomes its slot run; a RELEASE still due is offered (R80, R110, R120, R121). -/
def takeRuns (p : Port) (s : State) : State :=
  match (s.send.get p).state with
  | .live => s.mapSend p SendEntry.takeSlotRun
  | .releasing =>
    if (s.send.get p).releaseDue then offerRelease p (s.mapSend p SendEntry.takeSlotRun) else s
  | .closed => s
  | .claiming => s
  | .held => s

/-- The HELD limit (R119). -/
def heldRound (p : Port) (s : State) : State :=
  let e := s.send.get p
  match e.state, e.heldRounds with
  | .held, some n =>
    if n + 1 < Config.heldLimit then s.mapSend p (fun e => { e with heldRounds := some (n + 1) })
    else
      let s := s.mapSend p (fun e => { e with state := .releasing, releasePath := some .fromHeld, heldRounds := none })
      giveEvent (.heldReleased p (e.slotRun.getD ⟨0, 0⟩)) (offerRelease p s)
  | _, _ => s

/-! ### Reclaim runs (R75) -/

/-- The reclaim runs: the parts of the maximal runs of one owner and tag, silent for 512 passes or more, that hold a marked entry. -/
def reclaimRuns (live : List SlotEntry) : List (Run × StationNo × Tag) :=
  let keys := live.map (fun e =>
    match e.use with
    | .owned o t => if Config.reclaimSilence ≤ e.silent then some (o, t) else none
    | .openSlot => none
    | .unknown => none)
  let marked := fun (r : Run) =>
    (List.range r.count).any (fun i =>
      match live[r.first + i]? with
      | some e => e.reclaim
      | none => false)
  ((collectRuns 0 keys none).flatMap (fun rk => rk.1.parts.map (fun r => (r, rk.2)))).filter (fun rk => marked rk.1)

/-- One reclaim run is offered; a QUEUED one loses its marks (R75). -/
def offerReclaim (s : State) (rk : Run × StationNo × Tag) : State :=
  let q := reclaimNotice rk.2.1 rk.2.2 rk.1
  if offerAnswer q s = .queued then
    let s := offer q s
    { s with table := { s.table with
        live := s.table.live.mapIdx (fun n e => if rk.1.has n then { e with reclaim := false } else e) } }
  else s

/-- Reclaim runs are formed and offered in slot order (R75; DESIGN CHOICE, log 50). -/
def offerReclaims (s : State) : State := (reclaimRuns s.table.live).foldl offerReclaim s

/-! ### The outgoing notice queue (R82 to R84) -/

/-- The CLAIM has been queued for 64 rounds or more, is not in flight and not pending (R83). -/
def Queued.overdue (now : Round) (q : Queued) : Bool :=
  q.kind == .claim && !q.inFlight && !q.pending &&
  (match q.queuedRound with
    | some r => serialAhead r now && Config.claimLimit ≤ (now - r).toNat
    | none => false)

/-- A refused CLAIM hands its refusal to its send entry. -/
def refuseQueued (reason : RefuseReason) (s : State) (q : Queued) : State :=
  match q.origin with
  | .send p => claimRefused p reason (outcomeRecord q s) s
  | .recv _ => s
  | .slotTable => s
  | .controller => s

/-- The limit of queued CLAIMs (R83); several are refused in queue order (DESIGN CHOICE, log 53). -/
def limitClaims (s : State) : State :=
  (s.notices.queue.filter (Queued.overdue s.clock.round)).foldl (refuseQueued .timeout)
    (s.mapQueue (fun l => l.filter (fun q => !q.overdue s.clock.round)))

/-- The first unbroken run, within the ask, of sequences that may still be asked for (R82): its distance and length. -/
def firstAskable (ok : Nat → Bool) (count : Nat) : Option (Nat × Nat) :=
  match (List.range count).find? ok with
  | none => none
  | some i => some (i, ((List.range (count - i)).takeWhile (fun j => ok (i + j))).length)

/-- The outcome of revalidating a head notice (R82). -/
inductive HeadCheck where
  | keep
  | aim (first : BitVec 16) (count : BitVec 5)
  | remove
deriving DecidableEq, Repr

/-- The test of a head notice against the live table and the playout windows (R82). -/
def checkHead (q : Queued) (s : State) : HeadCheck :=
  match q.kind with
  | .claim =>
    if runOpen s.table.live q.run then .keep
    else
      match firstOpenRun s.table.live q.count.toNat with
      | some r => .aim (BitVec.ofNat 16 r.first) q.count
      | none => .remove
  | .release => if runOwned s.table.live q.run s.station q.tag then .keep else .remove
  | .reclaim =>
    if runOwned s.table.live q.run q.target q.tag && runSilent s.table.live q.run then .keep else .remove
  | .repairAsk =>
    match q.origin with
    | .recv p =>
      match (s.recv.get p).stream with
      | some st =>
        match firstAskable (fun i => st.askable s.clock.round (q.first + BitVec.ofNat 16 i)) q.count.toNat with
        | some (i, n) => .aim (q.first + BitVec.ofNat 16 i) (BitVec.ofNat 5 n)
        | none => .remove
      | none => .remove
    | .send _ => .remove
    | .slotTable => .remove
    | .controller => .remove

/-- The head takes a new run; the claim run of a CLAIMING entry follows its CLAIM (R82, R105). -/
def aimHead (q : Queued) (first : BitVec 16) (count : BitVec 5) (s : State) : State :=
  let s := s.mapQueue (fun l =>
    match l with
    | [] => []
    | x :: rest => { x with first := first, count := count } :: rest)
  match q.kind, q.origin with
  | .claim, .send p => s.mapSend p (fun e => { e with claimRun := some ⟨first.toNat, count.toNat⟩ })
  | _, _ => s

/-- The head is revalidated until one passes or the queue is empty (R82); `fuel` is the length of the queue. -/
def revalidate : Nat → State → State
  | 0, s => s
  | fuel + 1, s =>
    match s.notices.queue with
    | [] => s
    | q :: _ =>
      match checkHead q s with
      | .keep => s
      | .aim first count => aimHead q first count s
      | .remove =>
        let t := s.mapQueue List.tail
        revalidate fuel (if q.kind == .claim then refuseQueued .noSlots t q else t)

/-- The body of a notice, stamped with the table epoch (R78, R84). The target is 0 in every kind but RECLAIM. -/
def Queued.body (q : Queued) (epoch : Epoch) : NoticeBody :=
  { kind := q.kind, epoch := epoch, tag := q.tag, target := if q.kind == .reclaim then q.target else 0, first := q.first,
    count := q.count }

/-- The head becomes the notice in flight (R84). -/
def selectNotice (s : State) : State :=
  match s.notices.queue with
  | [] => s
  | q :: rest =>
    { s with notices := { s.notices with
        queue := { q with inFlight := true } :: rest.map (fun x => { x with inFlight := false }),
        flight := some { leadIn := leadInValue q.priority s.station, body := q.body s.table.epoch,
                         sent := { a := false, b := false } } } }

/-! ### Orphans and the retained context -/

/-- One listed orphan run (R167): dropped, or offered as a RELEASE; it stays listed only on FULL. -/
def dealOrphan (s : State) (o : Orphan) : State :=
  if runOwned s.table.live o.run s.station o.tag then
    let q := releaseNotice .controller o.tag o.run
    if offerAnswer q s = .full then { s with ctrl := { s.ctrl with orphans := s.ctrl.orphans ++ [o] } }
    else offer q s
  else s

/-- The orphan list is dealt with in list order (R167). -/
def dealOrphans (s : State) : State :=
  s.ctrl.orphans.foldl dealOrphan { s with ctrl := { s.ctrl with orphans := [] } }

/-- The record of a LIVE or HELD entry (R176); an entry whose slot run is not taken yet is recorded with its claim
run (log 21). -/
def contextRecordOf (s : State) (p : Port) : Option ContextRecord :=
  let e := s.send.get p
  if e.state == .live || e.state == .held then
    match e.slotRun.or e.claimRun, e.priority, e.cls with
    | some run, some priority, some cls =>
      some { port := p, tag := s.tagOf p, run := run, priority := priority, gen := e.gen, cls := cls }
    | _, _, _ => none
  else none

/-- The modes in which a round start rewrites the context (R176). -/
def RoundCtx.rewrites (ctx : RoundCtx) : Bool :=
  match ctx.mode with
  | .joined => true
  | .resync => true
  | .dark => ctx.returnMode != some .listening
  | .starting => false
  | .listening => false
  | .faulted => false

/-- The retained context is rewritten (R176). -/
def rewriteContext (s : State) : State :=
  { s with ctrl := { s.ctrl with context :=
      { s.ctrl.context with station := s.station, records := allPorts.filterMap (contextRecordOf s), valid := true } } }

/-! ### The round start -/

/-- One step of a round start. -/
def roundStep (ctx : RoundCtx) (s : State) (step : RoundStep) : State :=
  match step with
  | .monitors => monitorRound .b (monitorRound .a s)
  | .heard => ageHeard s
  | .playout => forPorts playout s
  | .askWaits => forPorts endWaits s
  | .counts => countRounds ctx s
  | .learning => learnRound ctx s
  | .runs => forPorts takeRuns s
  | .held => applyIf (ctx.mode != .faulted) (forPorts heldRound) s
  | .reclaims => applyIf (ctx.mode == .joined) offerReclaims s
  | .asker => applyIf (ctx.mode == .joined) askRepairs s
  | .claimLimit => applyIf (ctx.mode == .joined) limitClaims s
  | .revalidate => applyIf (ctx.mode == .joined) (fun s => revalidate s.notices.queue.length s) s
  | .select => applyIf (ctx.mode == .joined) selectNotice s
  | .orphans => dealOrphans s
  | .rewrite => applyIf (ctx.rewrites && !s.ctrl.context.frozen) rewriteContext s

/-- An open-search reading runs on across a round start at reading `t`: at an expiry (R14), and alike at an edge in the early window (R8;
DESIGN CHOICE, log 55). -/
def Lane.crossRound (t : Nat) (l : Lane) : Lane :=
  { l with search := l.search.map (fun x => { x with carried := x.elapsed t, crossed := true }) }

/-- The number advances, the timer restarts, no field event of the round has occurred, the mark field begins, a repair turn ends, and no
slot is in progress (R1, R2, R3, R132). -/
def openRound (t : Nat) (s : State) : State :=
  let s := { s with
    clock := { s.clock with
      round := s.clock.round + 1, timer := 0, closed := 0, lateWindow := false, edgeTaken := false, drove := false },
    lanes := s.lanes.map (Lane.crossRound t),
    notices := { s.notices with sentNotice := false },
    repair := { s.repair with turn := false },
    send := s.send.map (fun e => { e with served := none }),
    drive := { s.drive with handed := none } }
  beginField 0 s

/-- A local round start at reading `t` of the round before it (R2). -/
def startRound (order : RoundOrder) (expiry : Bool) (t : Nat) (s : State) : State :=
  let ctx : RoundCtx :=
    { mode := s.ctrl.mode, expiry := expiry, returnMode := s.ctrl.returnMode, sendFirst := order.sendFirst }
  order.steps.foldl (roundStep ctx) (openRound t s)

end Sys2Proof.Machine
end

