-- ==== Sys2Proof/Machine/Clock.lean ====
section
/-! DEFINITION. The round clock (chapter 1): expiry, candidate edges, the deferral point, open search, adoption and mark close. -/

namespace Sys2Proof.Machine

open Sys2Proof

/-- The pacing flag cleared, the standing of the round's mark set. -/
def Clock.follow (c : Clock) (edgeTaken : Bool) : Clock :=
  { c with pacing := false, lateWindow := false, edgeTaken := edgeTaken }

/-- An open-search reading is open on some lane (R14). -/
def State.readingOpen (s : State) : Bool := s.lanes.any (fun l => l.search.isSome)

/-- The drive decision of an expiry (R9, R14), taken after its round start: with the permit, the flag and a drivable lane the mark is
driven at once; otherwise the flag is cleared, unless the permit waits with it clear, and the late window opens unless a reading was
still open (log 13). -/
def driveAtExpiry (readingOpen : Bool) (s : State) : State :=
  if s.pacingPermit && s.clock.pacing && !readingOpen && s.lanes.any Lane.drivable then driveMark s
  else { s with clock := { s.clock with pacing := false, lateWindow := !readingOpen } }

/-- The timer expires (R1, R9). -/
def expire (order : RoundOrder) (s : State) : State :=
  let s := reach Config.roundUnits s
  driveAtExpiry s.readingOpen (startRound order true Config.roundUnits s)

/-- ROUND_TIMER_EXPIRY: the round timer reaches 25000, every field event of the round having occurred, and a local round starts (R1, R3,
R9). -/
def execRoundTimerExpiry (order : RoundOrder) (s : State) : Host.Outcome State Fault Refusal :=
  checked order.admissible (running (fun s => if s.due Config.expiryEvent then expire order s else s) s)

/-- A candidate edge is accepted on the lane at the reading: the clock is searching, the lane is receive-usable, the reading lies
between two bounds, has not passed, and no command due before it waits (R3, R5, R7). -/
def State.acceptsEdge (s : State) (l : LaneId) (reading low high : Nat) : Bool :=
  s.ctrl.mode.searching && (s.lanes.get l).receiveUsable && low ≤ reading && reading ≤ high && s.reaches reading

/-- A round starts at an edge on the lane in the early window (R8). -/
def startAtEdge (l : LaneId) (reading : Nat) (order : RoundOrder) (s : State) : State :=
  let s := (reach reading s).mapLane l Lane.beginRun
  let s := startRound order false reading { s with clock := { s.clock with capture := reading } }
  { s with clock := s.clock.follow true }

/-- EARLY_WINDOW_EDGE: a candidate edge in the early window starts a local round at the edge (R8). -/
def execEarlyWindowEdge (l : LaneId) (reading : Nat) (order : RoundOrder) (s : State) :
    Host.Outcome State Fault Refusal :=
  checked order.admissible
    (running (fun s =>
      if s.acceptsEdge l reading Config.earlyWindowAt (Config.roundUnits - 1) then startAtEdge l reading order s else s) s)

/-- The timer realigns to 0 at an edge on the lane in the late window (R10). An edge that meets the deferral point of station 15 is captured as
739, the most R16 allows (log 33). The late window ends with the realignment: a later edge below the deferral point realigns nothing, and
under open search it opens a reading (DESIGN CHOICE, log 74). -/
def realign (l : LaneId) (reading : Nat) (s : State) : State :=
  let s := (reach reading s).mapLane l Lane.beginRun
  beginField 0 { s with clock := { s.clock.follow true with timer := 0, capture := min 739 reading } }

/-- LATE_WINDOW_EDGE: a candidate edge in the late window realigns the timer without a round start (R10). -/
def execLateWindowEdge (l : LaneId) (reading : Nat) (s : State) : Host.Outcome State Fault Refusal :=
  running (fun s =>
    if s.clock.lateWindow && s.acceptsEdge l reading 0 s.deferralAt then realign l reading s else s) s

/-- DEFERRAL_POINT: the late window closes; with the permit and a drivable lane the station realigns its timer to its own first
driven tick and drives the mark (R10). -/
def execDeferralPoint (s : State) : Host.Outcome State Fault Refusal :=
  running (fun s =>
    if s.clock.lateWindow && s.reaches s.deferralAt then
      let s := reach s.deferralAt s
      if s.pacingPermit && s.lanes.any Lane.drivable then
        driveMark (beginField 0 { s with clock := { s.clock with lateWindow := false, timer := 0 } })
      else { s with clock := { s.clock with lateWindow := false } }
    else s) s

/-- An edge of open search is accepted (R14): count 0, searching, a receive-usable lane that was passive for at least 800 units,
outside the early window and the late window, with no reading open on that lane at that reading (log 46). -/
def State.acceptsSearch (s : State) (l : LaneId) (reading passiveFor : Nat) : Bool :=
  s.clock.validCount == 0 && s.acceptsEdge l reading 0 (Config.earlyWindowAt - 1) && 800 ≤ passiveFor
  && !(s.clock.lateWindow && reading ≤ s.deferralAt) && ((reach reading s).lanes.get l).search.isNone

/-- OPEN_SEARCH_EDGE: a mark reading opens on the lane (R14). -/
def execOpenSearchEdge (l : LaneId) (reading : Nat) (passiveFor : Nat) (s : State) : Host.Outcome State Fault Refusal :=
  running (fun s =>
    if s.acceptsSearch l reading passiveFor then
      (reach reading s).mapLane l
        (fun x => { x.beginRun with search := some { edge := reading, carried := 0, crossed := false } })
    else s) s

/-! ### Mark close (R12) -/

/-- The runs of the retained context, carried into learning from LISTENING if the context is valid (R66, R165). -/
def contextRuns (s : State) : List CarriedRun :=
  if s.ctrl.context.valid then
    s.ctrl.context.records.map (fun r => { run := r.run, tag := r.tag, pending := false, broken := false })
  else []

/-- The count of consecutive valid marks, and the pacing flag after a mark of the station's own that was not VALID (R12). -/
def countMark (valid : Bool) (s : State) : State :=
  { s with clock := { s.clock with
      validCount := if valid then min 255 (s.clock.validCount + 1) else 0,
      pacing := s.clock.pacing && (valid || !s.clock.drove), lateWindow := false } }

/-- The valid-mark count after a mark copy (R50). A count that has reached 4 while the echo check is owed holds there
(R51; log 41). -/
def Lane.countMarkCopy (copy : Copy Unit) (l : Lane) : Lane :=
  { l with marks := if copy.isValid then min 4 (l.marks + 1) else if l.echoOwed && 4 ≤ l.marks then l.marks else 0 }

/-- A lane monitor takes its lane's mark copy result (R50, R51): it counts in SETTLING only. -/
def monitorMark (id : LaneId) (copy : Copy Unit) (s : State) : State :=
  if (s.lanes.get id).state == .settling then settleExit id (s.mapLane id (Lane.countMarkCopy copy)) else s

/-- The controller takes the merged mark result and the new count in LISTENING: the alone count and the lock (R165). -/
def listenMark (valid : Bool) (s : State) : State :=
  if s.ctrl.mode == .listening then
    let s := if valid then { s with ctrl := { s.ctrl with alone := some 0 } } else s
    if 4 ≤ s.clock.validCount && s.ctrl.lockTaken == some false then
      beginLearning none (contextRuns s) { s with ctrl := { s.ctrl with lockTaken := some true } }
    else s
  else s

/-- The lead-in of the notice window begins (R84): a JOINED station with a notice in flight contends on the given lanes. -/
def contendNotice (lanes : PerLane Lane) (s : State) : State :=
  match s.notices.flight with
  | some f =>
    if s.ctrl.mode == .joined then contendOn (fun id => (lanes.get id).transmitUsable) .noticeWindow f.leadIn s else s
  | none => s

/-- Mark close with the two lanes' copy results. A lane that leaves SETTLING here is transmit-usable for the notice window if the
lead-in is taken after the monitors, and not if it is taken before them (R51). -/
def closeMark (a b : Copy Unit) (leadInFirst : Bool) (s : State) : State :=
  let before := s.lanes
  let valid := (mergeMarks a b).isValid
  let s := listenMark valid (monitorMark .b b (monitorMark .a a (countMark valid s)))
  let now := s.lanes
  contendNotice (if leadInFirst then before else now) (beginField Config.markCloseAt s)

/-- A candidate edge of this round's mark was accepted on the lane: the round has one, or the station drove the mark there (R5). -/
def State.markAccepted (s : State) (l : LaneId) : Bool :=
  s.clock.edgeTaken || (s.clock.drove && (s.lanes.get l).drive != .notDriving)

/-- The two lanes' mark readings are taken at mark close (R12, R41). The eight ticks of each reading are judged whole, those too that end
after reading 800 on a lane whose own first edge came after the accepted one (R5, R8; DESIGN CHOICE, log 71). -/
def takeMarks (a b : MarkReading) (leadInFirst : Bool) (s : State) : State :=
  closeMark (markCopy s.lanes.a (s.markAccepted .a) a) (markCopy s.lanes.b (s.markAccepted .b) b) leadInFirst
    (tellLevels (a.levelShown Config.markCloseAt) (b.levelShown Config.markCloseAt) s)

/-- MARK_CLOSE: field event 0, at reading 800; the merged mark result is taken (R3, R12). -/
def execMarkClose (a b : MarkReading) (leadInFirst : Bool) (s : State) : Host.Outcome State Fault Refusal :=
  running (fieldEvent 0 (takeMarks a b leadInFirst)) s

/-! ### Adoption under open search (R14, R15) -/

/-- An answers-lost report: a JOINED station goes to RESYNC (R95, R168). -/
def reportAnswersLost (s : State) : State :=
  if s.ctrl.mode == .joined then enterResync .answersLost s.table.epoch s else s

/-- The flight of the running round ends as an unread answer field leaves it (R95), with the report of answers lost if the station
held a tentative change or sent a completed notice in the round, in flight still or not; an event of the notice comes before MODE_CHANGED
(R183; DESIGN CHOICE, log 58). -/
def loseAnswers (s : State) : State :=
  let owes := s.notices.sentNotice || s.notices.tentative.isSome
  let t := recordUnread { s with notices := { s.notices with tentative := none } }
  let t := if s.completed then endFlightUnanswered t else endFlightLost t
  applyIf owes reportAnswersLost t

/-- The round has passed its notice window close, or a completed notice of the station's is out, and its answer field has not closed
(R15, R95; log 23). -/
def State.awaitsAnswers (s : State) : Bool :=
  s.clock.closed == 2 || (s.clock.closed == 1 && (s.notices.sentNotice || s.completed))

/-- An adoption cuts the running round short (R15): a notice whose body was not sent is withdrawn, a completed notice or an answer field
not yet closed is lost (R85, R95), the answer plan is dropped. -/
def cutShort (s : State) : State := dropAnswer (if s.awaitsAnswers then loseAnswers (recordSent s) else endFlightLost s)

/-- The timer reading at which an open-search reading completes, eight ticks after its edge (R14). -/
def Search.completesAt (x : Search) : Nat :=
  if x.crossed then 8 * Config.tickUnits - x.carried else x.edge + 8 * Config.tickUnits

/-- The adoption: no reading stays open, the timer is set to 800 with its mark close, the capture value is the reading at the edge
(R14). -/
def adopt (x : Search) (s : State) : State :=
  { s with clock := { s.clock.follow true with timer := Config.markCloseAt, closed := 1, capture := x.edge },
           lanes := s.lanes.map (fun l => { l with search := none }) }

/-- The mark copy of the other lane at an adoption, which may come before its own eighth tick (DESIGN CHOICE, log 43): a reading open there,
receive-usable since its own edge (R14), is judged by its ticks alone (R5); without one no candidate edge was accepted on the lane. -/
def otherCopy (l : Lane) (r : MarkReading) : Copy Unit :=
  if l.search.isSome then (if r = .ticks markPattern then .valid () else .erased) else markCopy l false r

/-- What the two readings of an adoption show of the levels: the adopted mark ends passive, and the other lane is told from its own edge
on, or over the 800 units before the adoption where no reading is open there (R41; log 4). -/
def tellAdoption (l : LaneId) (second : MarkReading) (s : State) : State :=
  let since := match (s.lanes.get (otherLane l)).search with
    | some y => y.elapsed s.clock.timer
    | none => Config.markCloseAt
  (s.mapLane l (Lane.tell ((MarkReading.ticks markPattern).levelShown Config.markCloseAt))).mapLane (otherLane l)
    (Lane.tell (second.levelShown since))

/-- A reading of open search completes VALID on the lane (R14): the station adopts the mark and takes its mark close at once. Unless a
round start came since the edge, the running round is cut short and a round starts (R15; log 12). A slot pass due at this very reading is
lost with the round when the adoption is taken first (DESIGN CHOICE, log 63). -/
def adoptMark (l : LaneId) (x : Search) (second : MarkReading) (leadInFirst : Bool) (order : RoundOrder) (s : State) : State :=
  let s := tellAdoption l second (reach x.completesAt s)
  let copy := otherCopy (s.lanes.get (otherLane l)) second
  let s := if x.crossed then s else startRound order false s.clock.timer (cutShort s)
  let s := adopt x s
  match l with
  | .a => closeMark (.valid ()) copy leadInFirst s
  | .b => closeMark copy (.valid ()) leadInFirst s

/-- OPEN_SEARCH_ADOPTION: an open-search reading completes VALID (R14), whatever the count of consecutive valid marks has become since its
edge; from 1 it goes on to 2 (DESIGN CHOICE, log 56). -/
def execOpenSearchAdoption (l : LaneId) (second : MarkReading) (leadInFirst : Bool) (order : RoundOrder) (s : State) :
    Host.Outcome State Fault Refusal :=
  checked order.admissible
    (running (fun s =>
      match (s.lanes.get l).search with
      | some x => if s.reaches x.completesAt then adoptMark l x second leadInFirst order s else s
      | none => s) s)

end Sys2Proof.Machine
end

