-- ==== Sys2Proof/Machine/Slot.lean ====
section
/-! DEFINITION. The repair window, slot starts and slot passes: building and retaining blocks (chapter 6), driving re-sends
(chapter 7), maintenance and learning of the slot table (chapter 4), duplicate detection in slots (R171). -/

namespace Sys2Proof.Machine

open Sys2Proof

/-! ### Building blocks (R114 to R118) -/

/-- A FILL block of the entry's next sequence (R115). -/
def fillBlock (e : SendEntry) : Retained :=
  { seq := e.nextSeq, gen := e.gen, fill := true, payload := [], check := check32 [] }

/-- A waiting block of the FIFO with the entry's next sequence (R115). -/
def portBlock (e : SendEntry) (b : PortBlock) : Retained :=
  { seq := e.nextSeq, gen := e.gen, fill := false, payload := b.payload, check := b.check }

/-- The new block of a retaining entry: a LIVE entry's oldest waiting block, or a FILL block (R115). -/
def newBlock (e : SendEntry) : Retained :=
  match e.state, e.fifo with
  | .live, b :: _ => portBlock e b
  | _, _ => fillBlock e

/-- The FIFO after a new block was taken (R111, R115). -/
def fifoAfter (e : SendEntry) : List PortBlock := if e.state == .live then e.fifo.tail else e.fifo

/-- The retention class of an entry in blocks. -/
def SendEntry.size (e : SendEntry) : Nat :=
  match e.cls with
  | some c => c.size
  | none => 1

/-- Two sequences share a ring position (R118). -/
def samePosition (size : Nat) (x y : Seq) : Bool := x.toNat % size == y.toNat % size

/-- The block that stands at the position of a sequence. -/
def ringAt (e : SendEntry) (q : Seq) : Option Retained := e.ring.find? (fun r => samePosition e.size r.seq q)

/-- The ring with a new block written at its position (R118). -/
def ringWrite (e : SendEntry) (b : Retained) : List Retained :=
  e.ring.filter (fun r => !samePosition e.size r.seq b.seq) ++ [b]

/-- A re-send of an evicted block leaves the queue (R118, R135). -/
def dropResend (tag : Tag) (q : Seq) (s : State) : State :=
  { s with repair := { s.repair with queue := s.repair.queue.filter (fun r => !(r.tag == tag && r.seq == q)) } }

/-- The header of a block driven in a slot (R116) or as a re-send (R131, R133). -/
def stamp (s : State) (tag : Tag) (r : Retained) (resend : Bool) (index : Nat) : Block :=
  { header := { owner := s.station, tag := tag, gen := r.gen, seq := r.seq, fill := r.fill, resend := resend,
                index := BitVec.ofNat 5 index, epoch := s.table.epoch, length := BitVec.ofNat 9 r.payload.length },
    payload := r.payload, check := r.check }

/-- The entry is filled at its slots (R114): LIVE, HELD, or RELEASING with release path FROM_LIVE or FROM_HELD. -/
def SendEntry.fills (e : SendEntry) : Bool :=
  e.state == .live || e.state == .held ||
  (e.state == .releasing && (e.releasePath == some .fromLive || e.releasePath == some .fromHeld))

/-- The send engine serves the entry at the slot start of slot n (R114). -/
def State.serves (s : State) (n : Nat) (p : Port) : Bool :=
  let e := s.send.get p
  s.ctrl.mode.issues && e.fills &&
  (match e.slotRun with
    | some r => r.has n
    | none => false)
  && (useAt s.table.live n).ownedBy s.station (s.tagOf p)

/-- A block is handed to the front ends for slot n (R116, R133). -/
def handOver (n : Nat) (b : Block) (s : State) : State := { s with drive := { s.drive with handed := some (n, b) } }

/-- The entry's block of slot n is built (R115): a prepared block is used again, a new one is retained and evicts the block at its
position, and an entry without a ring makes a FILL block. -/
def buildBlock (n : Nat) (p : Port) (s : State) : State :=
  let e := s.send.get p
  let t := s.mapSend p (fun e => { e with served := some n })
  if e.keepsRing then
    match ringAt e e.nextSeq with
    | some r =>
      if r.seq = e.nextSeq then handOver n (stamp s (s.tagOf p) r false n) t
      else
        let b := newBlock e
        handOver n (stamp s (s.tagOf p) b false n)
          (dropResend (s.tagOf p) r.seq
            (t.mapSend p (fun x => { x with ring := ringWrite e b, fifo := fifoAfter e })))
    | none =>
      let b := newBlock e
      handOver n (stamp s (s.tagOf p) b false n)
        (t.mapSend p (fun x => { x with ring := ringWrite e b, fifo := fifoAfter e }))
  else handOver n (stamp s (s.tagOf p) (fillBlock e) false n) t

/-! ### Re-sends (R131, R133, R134) -/

/-- The retained block of a queued re-send. -/
def retainedOf (s : State) (r : Resend) : Option Retained :=
  (s.send.get (portOfNumber r.tag.toNat)).ring.find? (fun x => x.seq == r.seq)

/-- The block of the head of the re-send queue, stamped for a slot index (R131, R133). -/
def resendBlock (index : Nat) (s : State) : Option Block :=
  match s.repair.queue with
  | [] => none
  | r :: _ => (retainedOf s r).map (fun x => stamp s r.tag x true index)

/-- The repair service at a slot start: in an OPEN slot of its turn it hands over the head's block (R133). -/
def handResend (n : Nat) (s : State) : State :=
  if s.repair.turn && useAt s.table.live n == .openSlot && s.lanes.any Lane.transmitUsable then
    match resendBlock n s with
    | some b => handOver n b s
    | none => s
  else s

/-- The slot start of slot n (R114, R133). -/
def startSlot (n : Nat) (s : State) : State :=
  match allPorts.find? (s.serves n) with
  | some p => buildBlock n p s
  | none => handResend n s

/-- The start of slot n falls between the field event before it, which it meets, and its pass (R3; log 42). -/
def State.atSlotStart (s : State) (n : Nat) : Bool := s.clock.closed == n + 4 && s.clock.timer == Config.slotStartAt n

/-- SLOT_START: the send engine serves the owned slot, or the repair service an OPEN one (R115). -/
def execSlotStart (n : Fin 24) (s : State) : Host.Outcome State Fault Refusal :=
  running (fun s => if s.atSlotStart n.val then startSlot n.val s else s) s

/-- The re-send of the field in progress: the one being driven, or the one handed over for the slot (R134). -/
def State.resendOut (s : State) : Option Block :=
  match s.drive.content with
  | .block b => if b.header.resend then some b else none
  | _ => (s.drive.handed.map (fun x => x.2)).filter (fun b => b.header.resend)

/-- The re-send has reached its last element: still driven, and in DRIVING on some lane, its entry leaves the queue (R22, R134). -/
def endResend (b : Block) (s : State) : State :=
  if s.drive.content == .block b && s.lanes.any (fun l => l.drive == .driving) then dropResend b.header.tag b.header.seq s else s

/-- RESEND_SENT: a re-send reaches its last element in DRIVING on at least one lane, and its entry leaves the queue (R134). -/
def execResendSent (s : State) : Host.Outcome State Fault Refusal :=
  running (fun s =>
    match s.resendOut with
    | some b => dated (blockEnd b) (endResend b) s
    | none => s) s

/-! ### Merged results -/

/-- The merged result of a slot or of the repair window, with what it carries: the contributing lanes, the lanes whose copies were
VALID, and whether this station drove on either lane in the field (R32). -/
structure MergedBlock where
  copy         : Copy Block
  contributing : PerLane Bool
  validOn      : PerLane Bool
  drove        : Bool
deriving DecidableEq, Repr

/-- The merged result of the repair window or of a slot (R31, R32). -/
def State.mergedBlock (s : State) (inSlot : Bool) (a b : BlockReading) : MergedBlock :=
  let x := blockCopy inSlot s.lanes.a a
  let y := blockCopy inSlot s.lanes.b b
  let copy := mergeBlocks s.lanes.a.contributing s.lanes.b.contributing x y
  { copy := copy, contributing := s.lanes.map (fun l => l.contributing),
    validOn := { a := x.isValid, b := y.isValid }, drove := s.lanes.any (fun l => l.drove) }

/-! ### The slot table at a slot pass (R59 to R63, R68, R69, R74) -/

/-- The block disagrees with the live entry (R62, R63): in JOINED with its epoch ahead it goes to the epoch rule alone, otherwise it
is a table mismatch. -/
def mismatchEntry (s : State) (h : BlockHeader) (e : SlotEntry) : SlotEntry :=
  if s.ctrl.mode == .joined && serialAhead s.table.epoch h.epoch then e
  else { e with mismatches := min 255 (e.mismatches + 1),
                lastMismatch := some { owner := h.owner, tag := h.tag, epoch := h.epoch } }

/-- An ERASED or IDLE pass of an OWNED entry (R61, R74): with a contributing lane the silent count increments, and at 512 in JOINED the
entry of another station is marked. The pass of a slot in which the last lane entered SURGE counts, though the mode is DARK (DESIGN CHOICE,
log 59). -/
def silentEntry (s : State) (owner : StationNo) (contributing : Bool) (e : SlotEntry) : SlotEntry :=
  if contributing then
    { e with silent := min 1023 (e.silent + 1),
             reclaim := e.reclaim || (e.silent == 511 && s.ctrl.mode == .joined && owner != s.station) }
  else e

/-- The live entry of slot n after its pass (R59 to R63). -/
def maintainEntry (s : State) (n : Nat) (m : Copy Block) (contributing : Bool) (e : SlotEntry) : SlotEntry :=
  match e.use, m with
  | .unknown, _ => e
  | .openSlot, .valid b =>
    let e := { e with lastValid := false, silent := 0, reclaim := false }
    if b.header.scheduleBearing n then mismatchEntry s b.header e else e
  | .openSlot, _ => { e with lastValid := false, silent := 0, reclaim := false }
  | .owned owner tag, .valid b =>
    if b.header.scheduleBearing n && b.header.owner == owner && b.header.tag == tag then
      { e with silent := 0, lastValid := true, reclaim := false }
    else mismatchEntry s b.header { e with lastValid := false }
  | .owned owner _, _ => silentEntry s owner contributing { e with lastValid := false }

/-- Maintenance of the live table at the pass of slot n (R59), by the lanes that contributed to the slot (R21; log 59). -/
def maintain (n : Nat) (m : MergedBlock) (s : State) : State :=
  if s.ctrl.mode.maintains then
    { s with table := { s.table with
        live := s.table.live.modify n (maintainEntry s n m.copy (m.contributing.any id)) } }
  else s

/-- A header epoch updates the learned epoch (R69). -/
def learnEpoch (h : BlockHeader) (L : Learning) : Learning :=
  match L.epoch with
  | none => { L with epoch := some h.epoch }
  | some e => if serialAhead e h.epoch then { L with epoch := some h.epoch } else L

/-- The learned entry of slot n takes a use that is not its own: the carried runs that hold it are broken (R68). -/
def setLearned (n : Nat) (u : SlotUse) (L : Learning) : Learning :=
  { L with
    table := L.table.modify n (fun _ => { use := u, carried := false }),
    carried :=
      match L.table[n]? with
      | some e => if e.carried then L.carried.map (fun r => if r.run.has n then { r with broken := true } else r) else L.carried
      | none => L.carried }

/-- The learned table at the pass of slot n (R68). A VALID block whose slot index is not n counts as ERASED. -/
def learnPass (station : StationNo) (n : Nat) (m : Copy Block) (L : Learning) : Learning :=
  match m, L.table[n]? with
  | .valid b, some e =>
    if b.header.index.toNat != n then L
    else if b.header.resend then setLearned n .openSlot L
    else if e.carried && b.header.owner == station && e.use.hasTag b.header.tag then L
    else setLearned n (.owned b.header.owner b.header.tag) L
  | .idle, some e => if e.carried then L else setLearned n .openSlot L
  | .erased, _ => L
  | _, none => L

/-- Learning at the pass of slot n (R68, R69). -/
def learnAtPass (n : Nat) (m : Copy Block) (s : State) : State :=
  match s.table.learning with
  | none => s
  | some L =>
    let L := learnPass s.station n m L
    let L :=
      match m with
      | .valid b => learnEpoch b.header L
      | .erased => L
      | .idle => L
    { s with table := { s.table with learning := some L } }

/-- A VALID header is heard (R65) and tested (R64). -/
def takeHeader (m : Copy Block) (s : State) : State :=
  match m with
  | .valid b => testEpoch b.header.epoch (hear b.header.owner s)
  | .erased => s
  | .idle => s

/-- The slot table at the pass of slot n. -/
def tableAtPass (n : Nat) (m : MergedBlock) (s : State) : State :=
  learnAtPass n m.copy (takeHeader m.copy (maintain n m s))

/-! ### The other blocks at a slot pass -/

/-- The next sequence of an entry served in slot n advances (R117). -/
def advanceSend (mode : Mode) (n : Nat) (e : SendEntry) : SendEntry :=
  if e.served == some n then
    { e with served := none, nextSeq := if mode.issues then e.nextSeq + 1 else e.nextSeq }
  else e

/-- The send engine at the pass of slot n (R117). -/
def sendAtPass (n : Nat) (s : State) : State := { s with send := s.send.map (advanceSend s.ctrl.mode n) }

/-- The receive engine at the pass of slot n (R143 to R147): each entry takes the slot's own effect, then a re-sent block. -/
def recvAtPass (n : Nat) (m : Copy Block) (s : State) : State := takeResents m (forPorts (servePass n m) s)

/-- A schedule-bearing block names this station in a slot that it did not drive, or with a tag or sequence it did not drive (R171). -/
def State.foreignBlock (s : State) (n : Nat) (b : Block) : Bool :=
  b.header.scheduleBearing n && b.header.owner == s.station &&
  (match s.drive.drove with
    | none => true
    | some d => b.header.tag != d.header.tag || b.header.seq != d.header.seq)

/-- Duplicate detection at a slot pass (R171). -/
def controllerAtPass (n : Nat) (m : Copy Block) (s : State) : State :=
  match m with
  | .valid b =>
    if s.ctrl.mode.detectsDuplicate && s.foreignBlock n b then enterFaulted .duplicate .duplicate s else s
  | .erased => s
  | .idle => s

/-- One block acts at the pass of slot n. -/
def passStep (n : Nat) (m : MergedBlock) (s : State) (step : PassStep) : State :=
  match step with
  | .slotTable => tableAtPass n m s
  | .sendEngine => sendAtPass n s
  | .receiveEngine => recvAtPass n m.copy s
  | .controller => controllerAtPass n m.copy s

/-- A header that fails against its own fields counts a code violation, once per field (R193; log 16). -/
def countHeader (id : LaneId) (r : BlockReading) (s : State) : State :=
  if headerViolation r && !(s.lanes.get id).fieldFlaw then countFramed id s else s

/-- The slot is over: nothing is handed over for it any longer. -/
def clearHanded (n : Nat) (s : State) : State :=
  { s with drive := { s.drive with handed := s.drive.handed.filter (fun x => x.1 != n) } }

/-- The pass of slot n, at which the merged result of the slot is taken. -/
def passSlot (n : Nat) (a b : BlockReading) (order : List PassStep) (s : State) : State :=
  let m := s.mergedBlock true a b
  let s := tellLevels (a.levelShown 800) (b.levelShown 800) (countHeader .b b (countHeader .a a s))
  beginField (Config.slotPassAt n) (clearHanded n (order.foldl (passStep n m) s))

/-- SLOT_PASS: field event n + 4; at the close of slot n its merged result is taken (R3, R59, R117, R143). -/
def execSlotPass (n : Fin 24) (a b : BlockReading) (order : List PassStep) (s : State) : Host.Outcome State Fault Refusal :=
  checked (passAdmissible order) (running (fieldEvent (n.val + 4) (passSlot n.val a b order)) s)

/-! ### Repair window close -/

/-- The learned epoch takes the header of a repair window (R69). -/
def learnHeader (m : Copy Block) (s : State) : State :=
  match m with
  | .valid b => { s with table := { s.table with learning := s.table.learning.map (learnEpoch b.header) } }
  | .erased => s
  | .idle => s

/-- Repair window close (R64, R65, R69, R147). -/
def closeRepair (a b : BlockReading) (s : State) : State :=
  let m := (s.mergedBlock false a b).copy
  let s := tellLevels (a.levelShown 1400) (b.levelShown 1400) (countHeader .b b (countHeader .a a s))
  beginField Config.repairCloseAt (takeResents m (learnHeader m (takeHeader m s)))

/-- REPAIR_WINDOW_CLOSE: field event 3; the merged result of the repair window is handed on (R3, R147). -/
def execRepairWindowClose (a b : BlockReading) (s : State) : Host.Outcome State Fault Refusal :=
  running (fieldEvent 3 (closeRepair a b)) s

end Sys2Proof.Machine
end

