-- ==== Sys2Proof/Machine/LeadIn.lean ====
section
/-! DEFINITION. The lane front ends between field boundaries (chapter 2): the lead-in outcome, arbitration, drive faults, echo mismatches
and echo delay measurements. -/

namespace Sys2Proof.Machine

open Sys2Proof

/-- Some front end is contending. -/
def State.contending (s : State) : Bool := s.lanes.any (fun l => l.drive == .contending)

/-- Every front end in CONTENDING goes to DRIVING, with the content of the field's body or block (R22, R28). -/
def drivePastLeadIn (c : DriveContent) (s : State) : State :=
  { s with lanes := s.lanes.map (fun l => if l.drive == .contending then { l with drive := .driving } else l),
           drive := { s.drive with content := c } }

/-- The lead-in outcome of the notice window (R28, R85): WON drives the body; LOST and NOT_SENT end the flight. -/
def noticeOutcome (s : State) : State :=
  match s.notices.flight with
  | none => s
  | some _ =>
    if s.drive.content == .noticeBody then s
    else if s.drive.content == .leadIn .noticeWindow && s.contending then drivePastLeadIn .noticeBody s
    else endFlightLost { s with drive := { s.drive with content := .none } }

/-- The lead-in outcome of the repair window (R28, R130, R131): WON takes the repair turn and drives the head's block. -/
def repairOutcome (s : State) : State :=
  if s.drive.content == .leadIn .repairWindow then
    if s.contending then
      let t := { s with repair := { s.repair with turn := true } }
      match resendBlock 31 s with
      | some b => drivePastLeadIn (.block b) t
      | none => { t with drive := { t.drive with content := .none },
                         lanes := t.lanes.map (fun l => { l with drive := .notDriving }) }
    else { s with drive := { s.drive with content := .none } }
  else s

/-- The end of the seventh lead-in tick of a field (R28). -/
def endLeadIn (field : LeadInField) : State → State :=
  dated (leadInEnd field)
    (match field with
      | .noticeWindow => noticeOutcome
      | .repairWindow => repairOutcome)

/-- SEVENTH_LEAD_IN_TICK: the front ends report WON, LOST or NOT_SENT to the block that contended (R28). -/
def execSeventhLeadInTick (field : LeadInField) (s : State) : Host.Outcome State Fault Refusal :=
  running (endLeadIn field) s

/-- The lane is contending in the lead-in of the field, and its value has the given bit at the tick. -/
def State.contendsWith (s : State) (field : LeadInField) (tick : Fin 7) (l : LaneId) (bit : Bool) : Bool :=
  s.drive.content == .leadIn field && (s.lanes.get l).drive == .contending &&
  (match s.drive.leadIn with
    | some v => leadInBit v tick == bit
    | none => false)

/-- Every front end in CONTENDING withdraws; the station has lost the field (R26). -/
def withdrawAll (s : State) : State :=
  { s with lanes := s.lanes.map Lane.withdraw, drive := { s.drive with lost := true } }

/-- The reading at which a lead-in tick has been read back on the lane: the end of its sample, 60 + e units after the tick began (R23). For
the seventh tick it is at the latest the end of the lead-in (DESIGN CHOICE, log 44). -/
def State.sampledAt (s : State) (field : LeadInField) (tick : Fin 7) (l : LaneId) : Nat :=
  min (leadInEnd field) (leadInStart field + Config.tickUnits * tick.val + 60 + (s.lanes.get l).echoDelay.toNat)

/-- ARBITRATION_LOSS: a lead-in tick left passive is read back dominant, through the 20 units of its sample (R23, R25, R26, R41). -/
def execArbitrationLoss (field : LeadInField) (tick : Fin 7) (l : LaneId) (s : State) : Host.Outcome State Fault Refusal :=
  running (fun s =>
    dated (s.sampledAt field tick l) (fun s =>
      if s.contendsWith field tick l true then withdrawAll (s.mapLane l (Lane.tell (.dominantFor 20))) else s) s) s

/-- A lead-in tick driven dominant is read back passive on a contending lane (R27): one echo mismatch, and the station withdraws; under
policy FAULT the lane enters SURGE with cause DRIVE. -/
def driveFaultOn (l : LaneId) (s : State) : State :=
  let s := withdrawAll (s.mapLane l (fun x => (x.countViolations 1).endRun))
  let state := (s.lanes.get l).state
  if s.ctrl.option.policy == .fault && (state == .clear || state == .suspect) then enterSurge l .drive s else s

/-- DRIVE_FAULT: a lead-in tick driven dominant is read back passive (R27). On a lane that a surge entry has cut within the tick the report
counts nothing and withdraws nothing: state and cause stand (R43), and the other lane contends on (DESIGN CHOICE, log 66). Where both lanes
read the tick passive, the first report withdraws both, and the second counts no mismatch and enters no SURGE (DESIGN CHOICE, log 75). With
an echo delay of 0 or 1 the sample of a measured tick has ended before, or just as, the measurement reaches 61: a tick never read
dominant may be taken here first, and an ECHO_LATE after it does nothing (R24; DESIGN CHOICE, log 78). -/
def execDriveFault (field : LeadInField) (tick : Fin 7) (l : LaneId) (s : State) : Host.Outcome State Fault Refusal :=
  running (fun s =>
    dated (s.sampledAt field tick l) (fun s => if s.contendsWith field tick l false then driveFaultOn l s else s) s) s

/-! ### The station's own drive, read back (R19, R23) -/

/-- The level that the station puts on the lane at reading `t`, in line element `k` of that unit: passive unless it is CONTENDING or
DRIVING there (R4, R19, R22). -/
def State.drivenLevel (s : State) (l : LaneId) (t : Nat) (k : Fin 5) : Bool :=
  ((s.lanes.get l).drive == .contending || (s.lanes.get l).drive == .driving) &&
  (match s.drive.content with
    | .none => false
    | .mark => markLevel t
    | .leadIn field =>
      match s.drive.leadIn with
      | some v => leadInStart field ≤ t && leadInLevel v (t - leadInStart field)
      | none => false
    | .noticeBody =>
      match s.notices.flight with
      | some f => Config.noticeBodyAt ≤ t && fastLevel f.bytes (t - Config.noticeBodyAt) k
      | none => false
    | .accept =>
      match s.answerAt with
      | some a => a ≤ t && answerLevel (t - a)
      | none => false
    | .dissent =>
      match s.answerAt with
      | some a => a ≤ t && answerLevel (t - a)
      | none => false
    | .block b => blockStart b ≤ t && fastLevel b.bytes (t - blockStart b) k)

/-- What the station drove `e` units earlier is compared at the reading, `e` the echo delay of the lane (R23): a dominant mark tick or the
dominant half of an answer position in its sample, and every element of a body or a block. -/
def State.compares (s : State) (l : LaneId) (reading : Nat) : Bool :=
  let e := (s.lanes.get l).echoDelay.toNat
  let t := reading - e
  (s.lanes.get l).drive == .driving && e ≤ reading &&
  (match s.drive.content with
    | .none => false
    | .leadIn _ => false
    | .mark => inSample 40 60 t && s.drivenLevel l t 0
    | .accept => inSample 20 40 t && s.drivenLevel l t 0
    | .dissent => inSample 20 40 t && s.drivenLevel l t 0
    | .noticeBody => Config.noticeBodyAt ≤ t && t ≤ Config.noticeBodyEnd
    | .block b => blockStart b ≤ t && t ≤ blockEnd b)

/-- The notice in flight counts as not sent on the lane, its last element driven or not (R29; log 48). -/
def unsend (l : LaneId) (s : State) : State :=
  { s with notices := { s.notices with flight := s.notices.flight.map (fun f => { f with sent := f.sent.set l false }) } }

/-- A mismatch of the station's own drive on a lane (R11, R23, R29): one violation, and the drive there ends at it (R38), the body not sent
there; a mark that ends makes the lane's mark copy ERASED, and a measurement of its first tick runs on (R24; log 32). In a tick content the
lane was read passive, which ends a dominant run (R41). -/
def mismatchOn (l : LaneId) (s : State) : State :=
  match s.drive.content with
  | .noticeBody => unsend l (s.mapLane l (fun x => (x.countViolations 1).cutDrive))
  | .block _ => s.mapLane l (fun x => (x.countViolations 1).cutDrive)
  | .accept => s.mapLane l (fun x => (x.countViolations 1).cutDrive.endRun)
  | .dissent => s.mapLane l (fun x => (x.countViolations 1).cutDrive.endRun)
  | .mark => s.mapLane l (fun x => { (x.countViolations 1).cutDrive.endRun with markSpoiled := true, cutAt := some s.clock.timer })
  | .none => s
  | .leadIn _ => s

/-- ECHO_MISMATCH: an element or tick read back differs from the one driven (R29, R11, R23). -/
def execEchoMismatch (l : LaneId) (reading : Nat) (s : State) : Host.Outcome State Fault Refusal :=
  running (dated reading (fun s => if s.compares l reading then mismatchOn l s else s)) s

/-! ### Echo delay (R24, R49) -/

/-- A dominant tick that begins at reading `t` is measured (R24): the first mark tick, or a lead-in tick driven dominant after 20 units in
which the station itself left the lane passive. -/
def State.measuredTick (s : State) (t : Nat) : Bool :=
  match s.drive.content, s.drive.leadIn with
  | .mark, _ => t == 0
  | .leadIn field, some v =>
    leadInStart field ≤ t && (t - leadInStart field) % Config.tickUnits == 0 && leadInLevel v (t - leadInStart field)
      && (t == leadInStart field || !leadInLevel v (t - leadInStart field - 1))
  | _, _ => false

/-- The lane was driven in the tick that began at reading `t`, and its measurement stands: the drive goes on, or since then a surge entry
(R43) or a mismatch of the mark (R11) cut it (log 32). -/
def Lane.drivesTick (l : Lane) (t : Nat) : Bool :=
  l.drive == .contending || l.drive == .driving ||
  (l.drive == .cut &&
    (match l.cutAt with
      | some c => t ≤ c
      | none => false))

/-- A measurement on the lane that has run for `value` units at the reading began with a measured tick (R24). -/
def State.measures (s : State) (l : LaneId) (value reading : Nat) : Bool :=
  value ≤ reading && s.measuredTick (reading - value) && (s.lanes.get l).drivesTick (reading - value)

/-- A measurement at or below the limit is written; it clears an owed echo check, and a SETTLING lane with an exit count met
enters CLEAR (R24, R49, R51). The lane has risen from passive (R24, R41). -/
def writeEcho (l : LaneId) (value : BitVec 8) (s : State) : State :=
  settleExit l (s.mapLane l (fun x =>
    { x.beginRun with echoDelay := value, measuring := false, echoOwed := false,
                      cause := if x.state == .settling then none else x.cause }))

/-- The final value of a measurement above the limit, which ECHO_LATE has reported, is written (R24): below 255 the lane has risen from
passive (R41). -/
def writeLateEcho (l : LaneId) (value : BitVec 8) (s : State) : State :=
  if (s.lanes.get l).measuring then
    s.mapLane l (fun x => { (if value.toNat < 255 then x.beginRun else x) with echoDelay := value, measuring := false })
  else s

/-- ECHO_MEASUREMENT: the lane is read dominant at the reading, `value` units after a driven tick began (R24). A value above the limit is
the final value of a measurement that ECHO_LATE has reported. A hold set on meanwhile does not end a measurement that runs on after a
surge entry, a mismatch of the mark or ECHO_LATE cut the drive (R24, R30; DESIGN CHOICE, log 72). -/
def execEchoMeasurement (l : LaneId) (value : BitVec 8) (reading : Nat) (s : State) : Host.Outcome State Fault Refusal :=
  running (dated reading (fun s =>
    if Config.echoLimit < value.toNat then writeLateEcho l value s
    else if s.measures l value.toNat reading then writeEcho l value s
    else s)) s

/-- The measurement on a lane reaches 61 without a dominant reading (R24, R43): the lane enters SURGE with cause ECHO_LATE, and a lane
that a surge entry has put there within the tick only owes the echo check. The measurement runs on. -/
def echoLateOn (l : LaneId) (s : State) : State :=
  let s := s.mapLane l (fun x => { x.endRun with measuring := true })
  if (s.lanes.get l).state == .surge then s.mapLane l (fun x => { x with echoOwed := true }) else enterSurge l .echoLate s

/-- ECHO_LATE: the echo measurement reaches 61 without a dominant reading (R24), the first mark tick cut before by its mismatch or not: R24
exempts a late tick from R27 alone, not from R11 (log 32). -/
def execEchoLate (l : LaneId) (reading : Nat) (s : State) : Host.Outcome State Fault Refusal :=
  running (dated reading (fun s =>
    if s.measures l (Config.echoLimit + 1) reading then echoLateOn l s else s)) s

end Sys2Proof.Machine
end

