-- ==== Sys2Proof/Machine/Management.lean ====
section
/-! DEFINITION. The management line (chapter 10): the eleven requests with their tests and replies, and what becomes of frames. -/

namespace Sys2Proof.Machine

open Sys2Proof

/-! ### OPEN_SEND (R107 to R109) -/

/-- The priorities of a stream are 2-5 (R107). -/
def streamPriority (b : Byte) : Option (BitVec 3) :=
  if 2 ≤ b.toNat && b.toNat ≤ 5 then some (BitVec.ofNat 3 b.toNat) else none

/-- The slot counts of a request are 1-12 (R107). -/
def slotCount (b : Byte) : Option Nat := if 1 ≤ b.toNat && b.toNat ≤ 12 then some b.toNat else none

/-- A HELD entry is adopted (R109). -/
def adoptHeld (p : Port) (c : RetClass) (priority : BitVec 3) (s : State) : State :=
  let held := match (s.send.get p).slotRun with
    | some r => r.count
    | none => 0
  reply .done (.heldCount held)
    (s.mapSend p (fun e =>
      { e with state := .live, priority := some priority, cls := some c, heldRounds := none, ring := [] }))

/-- The entry of a CLAIM that was QUEUED (R108): the generation advances and the next sequence becomes 0. -/
def SendEntry.claiming (e : SendEntry) (c : RetClass) (priority : BitVec 3) (run : Run) : SendEntry :=
  { SendEntry.reset with
      state := .claiming, priority := some priority, requested := some run.count, claimRun := some run, cls := some c,
      gen := e.gen + 1 }

/-- A CLOSED entry claims slots (R108). -/
def claimSlots (p : Port) (count : Nat) (c : RetClass) (priority : BitVec 3) (s : State) : State :=
  match firstOpenRun s.table.live count with
  | none => reply .noSlots .none s
  | some run =>
    let q := claimNotice s p priority run
    if offerAnswer q s = .queued then
      reply .started .none ((offer q s).mapSend p (fun e => e.claiming c priority run))
    else reply .busy .none s

/-- The tests of OPEN_SEND in their order, and its effect (R107). -/
def openSend (port count cls priority : Byte) (s : State) : State :=
  if s.ctrl.mode != .joined then reply .notJoined .none s
  else
    match portOf port, slotCount count, retClassOf cls, streamPriority priority with
    | some p, some n, some c, some k =>
      let e := s.send.get p
      if e.state != .closed && e.state != .held then reply .portTaken .none s
      else if Config.blockStore < s.reserved + c.size then reply .noRoom .none s
      else if e.state == .held then adoptHeld p c k s
      else claimSlots p n c k s
    | _, _, _, _ => reply .badArg .none s

/-- OPEN_SEND (R107). -/
def execOpenSend (port count cls priority : Byte) (s : State) : Host.Outcome State Fault Refusal :=
  request (openSend port count cls priority) s

/-! ### OPEN_RECEIVE (R141) -/

/-- A remote tag: 0-63, of another station (R141). -/
def remoteTag (s : State) (b : Byte) : Option Tag :=
  if b.toNat < 64 && !s.ownTag (BitVec.ofNat 6 b.toNat) then some (BitVec.ofNat 6 b.toNat) else none

/-- A playout delay: 16-2047 rounds (R141). -/
def playoutDelay (d : BitVec 16) : Option Nat := if 16 ≤ d.toNat && d.toNat ≤ 2047 then some d.toNat else none

/-- k of R141: the live entries OWNED with the tag, 12 when there is none. -/
def slotsOf (live : List SlotEntry) (t : Tag) : Nat := if tagSlots live t = 0 then 12 else tagSlots live t

/-- The stream of a receive entry that opens (R141): ACTIVE if the tag is OWNED in the live table, not anchored, window and gap list
empty. -/
def newStream (s : State) (t : Tag) (d : Nat) (w : WinClass) : RecvStream :=
  { active := decide (0 < tagSlots s.table.live t), tag := t, delay := d, cls := w, anchor := none, window := [], gaps := [] }

/-- The tests of OPEN_RECEIVE in their order, and its effect (R141). -/
def openReceive (port tag : Byte) (delay : BitVec 16) (cls : Byte) (s : State) : State :=
  if s.ctrl.mode != .joined then reply .notJoined .none s
  else
    match portOf port, remoteTag s tag, playoutDelay delay, winClassOf cls with
    | some p, some t, some d, some w =>
      if (s.recv.get p).stream.isSome then reply .portTaken .none s
      else if w.size < (d + 1) * slotsOf s.table.live t then reply .badArg .none s
      else if Config.blockStore < s.reserved + w.size then reply .noRoom .none s
      else
        let st := newStream s t d w
        reply .done (.newState (if st.active then .active else .waiting))
          (s.mapRecv p (fun _ => { stream := some st, out := [], overflow := false }))
    | _, _, _, _ => reply .badArg .none s

/-- OPEN_RECEIVE (R141). -/
def execOpenReceive (port tag : Byte) (delay : BitVec 16) (cls : Byte) (s : State) : Host.Outcome State Fault Refusal :=
  request (openReceive port tag delay cls) s

/-! ### CLOSE (R120, R158) -/

/-- The CLAIM of a send entry. -/
def Queued.claimOf (p : Port) (q : Queued) : Bool := q.kind == .claim && q.origin == .send p

/-- An entry that leaves CLAIMING, LIVE or HELD for RELEASING; its FIFO and the block being assembled are discarded (R111, R120). -/
def SendEntry.releasing (e : SendEntry) (path : ReleasePath) : SendEntry :=
  { e with state := .releasing, releasePath := some path, requested := none, heldRounds := none, fifo := [], assembly := none,
           overrun := false }

/-- CLOSE of a CLAIMING entry (R81, R120): a CLAIM in flight is marked for withdrawal, any other is removed at once, in FAULTED too (DESIGN
CHOICE, log 52). -/
def closeClaiming (p : Port) (s : State) : State :=
  if s.notices.queue.any (fun q => q.claimOf p && q.inFlight) then
    reply .started .none
      ((s.mapQueue (fun l => l.map (fun q => if q.claimOf p then { q with withdrawn := true } else q))).mapSend p
        (fun e => e.releasing .fromClaim))
  else
    reply .done .none (closeSend p (s.mapQueue (fun l => l.filter (fun q => !q.claimOf p))))

/-- CLOSE of a LIVE or HELD entry (R120): a RELEASE is offered for the slot run; an entry whose slot run is not taken yet offers it
at the next round start (log 20). -/
def closeHolding (p : Port) (path : ReleasePath) (s : State) : State :=
  let s := s.mapSend p (fun e => e.releasing path)
  reply .started .none
    (if (s.send.get p).slotRun.isSome then offerRelease p s else s.mapSend p (fun e => { e with releaseDue := true }))

/-- CLOSE naming a send entry (R120). -/
def closeSendEntry (p : Port) (s : State) : State :=
  match (s.send.get p).state with
  | .closed => reply .notOpen .none s
  | .releasing => reply .busy .none s
  | .claiming => closeClaiming p s
  | .live => closeHolding p .fromLive s
  | .held => closeHolding p .fromHeld s

/-- CLOSE naming a receive entry (R158). -/
def closeRecvEntry (p : Port) (s : State) : State :=
  match (s.recv.get p).stream with
  | none => reply .notOpen .none s
  | some _ => reply .done .none ((withdrawAsk p s).mapRecv p (fun _ => RecvEntry.reset))

/-- The range test of CLOSE, and its effect (R179). -/
def closeEntry (entry : Byte) (s : State) : State :=
  match entryOf entry with
  | some (.send p) => closeSendEntry p s
  | some (.recv p) => closeRecvEntry p s
  | none => reply .badArg .none s

/-- CLOSE (R120, R158). -/
def execClose (entry : Byte) (s : State) : Host.Outcome State Fault Refusal := request (closeEntry entry) s

/-! ### Read requests (R76, R124, R160, R180, R181) -/

/-- The record of a send entry (R124). -/
def State.sendRecord (s : State) (p : Port) : SendRecord :=
  let e := s.send.get p
  let reserves := e.state == .claiming || e.state == .live || e.state == .releasing
  let retains := e.state == .live || e.state == .releasing
  { port := p, state := e.state, tag := s.tagOf p, priority := e.priority, cls := e.cls, requested := e.requested,
    claimRun := e.claimRun, slotRun := e.slotRun, releasePath := e.releasePath, gen := e.gen, nextSeq := e.nextSeq,
    reservation := if reserves then some e.reservation else none,
    retained := if retains then some e.ring.length else none,
    oldest := if retains then e.ring.head?.map (fun r => r.seq) else none,
    heldRounds := e.heldRounds, places := e.places, byteCounter := e.byteCounter }

/-- The record of a receive entry (R160). -/
def State.recvRecord (s : State) (p : Port) : RecvRecord :=
  let e := s.recv.get p
  let anchor := e.stream.bind (fun st => st.anchor)
  let held := e.stream.map (fun st => (st.window.filter (fun pl => pl.block.isSome)).length)
  let missing := e.stream.map (fun st => (st.window.filter (fun pl => pl.block.isNone)).length)
  let whileAnchored := fun (x : Option Nat) => if anchor.isSome then x else none
  { port := p, state := e.state, tag := e.stream.map (fun st => st.tag), delay := e.stream.map (fun st => st.delay),
    cls := e.stream.map (fun st => st.cls), reservation := e.stream.map (fun st => st.cls.size),
    anchored := e.stream.map (fun st => st.anchor.isSome), gen := anchor.map (fun a => a.gen),
    nextExpected := e.stream.bind (fun st => st.anchor.map st.nextExpected),
    nextPlayout := anchor.map (fun a => a.nextPlayout),
    depth := whileAnchored (e.stream.map (fun st => st.window.length)),
    heldCount := whileAnchored held, missingCount := whileAnchored missing,
    gaps := e.stream.map (fun st => st.gaps), items := e.out.length, overflow := e.overflow }

/-- READ_STREAM's test and reply (R124, R160, R179). -/
def readStream (entry : Byte) (s : State) : State :=
  match entryOf entry with
  | some (.send p) => reply .done (.send (s.sendRecord p)) s
  | some (.recv p) => reply .done (.recv (s.recvRecord p)) s
  | none => reply .badArg .none s

/-- READ_STREAM (R124). -/
def execReadStream (entry : Byte) (s : State) : Host.Outcome State Fault Refusal := request (readStream entry) s

/-- The record of a lane (R180). -/
def State.laneRecord (s : State) (id : LaneId) : LaneRecord :=
  let l := s.lanes.get id
  { lane := id, state := l.state, cause := l.cause, echoDelay := l.echoDelay, hold := l.hold, rounds := l.rounds }

/-- READ_LANES: two lane records, lane A first (R180). -/
def execReadLanes (s : State) : Host.Outcome State Fault Refusal :=
  request (fun s => reply .done (.lanes (s.laneRecord .a) (s.laneRecord .b)) s) s

/-- READ_SLOT's test and reply (R76). -/
def readSlot (slot : Byte) (s : State) : State :=
  match s.table.live[slot.toNat]? with
  | some e => reply .done (.slot { slot := slot.toNat, entry := e, epoch := s.table.epoch }) s
  | none => reply .badArg .none s

/-- READ_SLOT (R76). -/
def execReadSlot (slot : Byte) (s : State) : Host.Outcome State Fault Refusal := request (readSlot slot) s

/-- The station record (R181). -/
def State.stationRecord (s : State) : StationRecord :=
  { mode := s.ctrl.mode, station := s.station, epoch := s.table.epoch, pacing := s.clock.pacing, capture := s.clock.capture,
    heard := s.table.heard, valid := s.ctrl.context.valid, supply := s.ctrl.supply, faultReason := s.ctrl.faultReason,
    latched := s.mgmt.latched, mask := s.mgmt.mask, alertLine := s.alertLine }

/-- READ_STATION: the record is formed whole at the moment the request is taken (R181). -/
def execReadStation (s : State) : Host.Outcome State Fault Refusal :=
  request (fun s => reply .done (.station s.stationRecord) s) s

/-! ### Events and alert (R184, R186, R187) -/

/-- The records leave the queue and the overrun flag is reported and cleared (R184). -/
def takeRecords (n : Nat) (s : State) : State :=
  let left := s.mgmt.events.drop n
  reply .done (.events (s.mgmt.events.take n) s.mgmt.overrun left.length)
    { s with mgmt := { s.mgmt with events := left, overrun := false } }

/-- TAKE_EVENTS' test and effect (R184). -/
def takeEvents (n : Byte) (s : State) : State :=
  if 1 ≤ n.toNat && n.toNat ≤ 8 then takeRecords n.toNat s else reply .badArg .none s

/-- TAKE_EVENTS (R184). -/
def execTakeEvents (n : Byte) (s : State) : Host.Outcome State Fault Refusal := request (takeEvents n) s

/-- The alert mask becomes the named set; a SUPPLY named in it has no effect (R186). -/
def setMask (c : Causes) (s : State) : State := { s with mgmt := { s.mgmt with mask := { c with supply := false } } }

/-- SET_ALERT_MASK (R186). -/
def execSetAlertMask (causes : Byte) (s : State) : Host.Outcome State Fault Refusal :=
  request (fun s => reply .done .none (setMask (causesOf causes) s)) s

/-- Each named latched cause becomes clear; an EVENTS named in the set has no effect (R187). -/
def Causes.minus (x c : Causes) : Causes :=
  { events := x.events, surge := x.surge && !c.surge, loss := x.loss && !c.loss, supply := x.supply && !c.supply,
    fault := x.fault && !c.fault }

/-- Named causes are cleared (R187). -/
def clearCauses (c : Causes) (s : State) : State := { s with mgmt := { s.mgmt with latched := s.mgmt.latched.minus c } }

/-- CLEAR_ALERT (R187). -/
def execClearAlert (causes : Byte) (s : State) : Host.Outcome State Fault Refusal :=
  request (fun s => reply .done .none (clearCauses (causesOf causes) s)) s

/-! ### HOLD_LANE (R30) -/

/-- The hold cuts the station's mark on the lane before its eighth tick (R11). -/
def State.holdBreaksMark (s : State) (l : LaneId) : Bool :=
  s.drive.content == .mark && (s.lanes.get l).drive == .driving && decide (s.clock.timer < 7 * Config.tickUnits)

/-- The hold of a lane is set (R30): set on, a field or mark being driven there is cut, uncounted, the lane stays out of the rest of the
field, and a repair turn with no transmit-usable lane left ends (R132). A mark that the hold ends before its eighth tick reads ERASED there
(R11; log 39). -/
def setHold (l : LaneId) (on : Bool) (s : State) : State :=
  if on then
    dropTurnIfMute (s.mapLane l (fun x =>
      { x.cutDrive with hold := true, admitted := false, markSpoiled := x.markSpoiled || s.holdBreaksMark l }))
  else s.mapLane l (fun x => { x with hold := false })

/-- HOLD_LANE's tests and effect (R30, R179). -/
def holdLane (lane hold : Byte) (s : State) : State :=
  match laneOf lane, flagOf hold with
  | some l, some on => reply .done .none (setHold l on s)
  | _, _ => reply .badArg .none s

/-- HOLD_LANE (R30). -/
def execHoldLane (lane hold : Byte) (s : State) : Host.Outcome State Fault Refusal := request (holdLane lane hold) s

/-! ### Frames (R178, R194) -/

/-- UNKNOWN_REQUEST_KIND: answered BAD_ARG, no state changes (R178). -/
def execUnknownRequestKind (kind : Byte) (s : State) : Host.Outcome State Fault Refusal :=
  checked (!knownRequestKind kind) (request (reply .badArg .none) s)

/-- FRAME_DISCARDED: no reply, no state changes (R178). -/
def execFrameDiscarded (_flaw : FrameFlaw) (s : State) : Host.Outcome State Fault Refusal := .next s

/-- FRAME_IDLE_TIMEOUT: the frame ends and is discarded (R194). -/
def execFrameIdleTimeout (s : State) : Host.Outcome State Fault Refusal := .next s

/-- REPLY_FRAME_SENT: the reply frame has been sent, and the transaction ends (R178). -/
def execReplyFrameSent (s : State) : Host.Outcome State Fault Refusal :=
  .next { s with mgmt := { s.mgmt with reply := none } }

end Sys2Proof.Machine
end

