-- ==== Sys2Proof/Machine/Monitor.lean ====
section
/-! DEFINITION. The lane monitors (chapter 3): window close, long and held dominant runs, framed and free violations. -/

namespace Sys2Proof.Machine

open Sys2Proof

/-- The window is noisy: the violation counter has reached the chatter threshold (R40). -/
def State.noisy (s : State) (l : LaneId) : Bool :=
  chatterThreshold s.ctrl.option.chatter ≤ (s.lanes.get l).violations

/-- The lane state machine takes the judgement of a window (R42, R48, R50, R51). -/
def judgeWindow (id : LaneId) (s : State) : State :=
  let l := s.lanes.get id
  match l.state with
  | .off => s
  | .clear => if s.noisy id then enterUsable id .suspect s else s
  | .suspect => if s.noisy id then enterSurge id .chatter s else enterUsable id .clear s
  | .surge => if !s.noisy id && !l.windowHeld then enterSettling id s else s
  | .settling =>
    if s.noisy id then enterSurge id .chatter s
    else settleExit id (s.mapLane id (fun x => { x with quiet := min 32 (x.quiet + 1) }))

/-- The counters after a window close (R37, R40): the window held flag is set again at once by a run of 1200 or more. -/
def Lane.newWindow (l : Lane) : Lane :=
  { l with windowCounter := 0, violations := 0, windowHeld := decide (Config.longRun ≤ l.run) }

/-- One monitor closes its window; an OFF lane counts nothing (R36, R40). -/
def closeWindow (id : LaneId) (run : Nat) (s : State) : State :=
  if (s.lanes.get id).enabled then
    (judgeWindow id (s.mapLane id (Lane.readRun run))).mapLane id Lane.newWindow
  else s

/-- The windows of both lanes close, the lane taken first in front (R37, R52). -/
def closeWindows (first : LaneId) (runA runB : Nat) (s : State) : State :=
  match first with
  | .a => closeWindow .b runB (closeWindow .a runA s)
  | .b => closeWindow .a runA (closeWindow .b runB s)

/-- The windows of the enabled lanes are due to close: 256 ticks have passed since the last close or the reset (R37). -/
def State.windowDue (s : State) : Bool := s.clock.phase == Config.tickUnits

/-- Both windows close, and a new window begins (R37). -/
def closeBoth (first : LaneId) (runA runB : Nat) (s : State) : State :=
  let s := closeWindows first runA runB s
  { s with clock := { s.clock with phase := 0 } }

/-- WINDOW_CLOSE: each enabled lane's monitor judges its window, every 256 ticks; the operands are the dominant-run timers as read at the
close (R37, R40). -/
def execWindowClose (first : LaneId) (runA runB : Nat) (reading : Nat) (s : State) : Host.Outcome State Fault Refusal :=
  running (dated reading (fun s => if s.windowDue then closeBoth first runA runB s else s)) s

/-- A long run on an enabled lane: the window is held; a usable lane enters SURGE with cause LONG, and in SURGE the causes CHATTER,
DRIVE and ECHO_LATE become LONG (R41, R43, R45). -/
def longRunOn (id : LaneId) (s : State) : State :=
  let s := s.mapLane id (fun l =>
    { l with run := Config.longRun, dominant := true, reported := .long, windowHeld := true })
  let l := s.lanes.get id
  match l.state with
  | .off => s
  | .clear => enterSurge id .long s
  | .suspect => enterSurge id .long s
  | .settling => enterSurge id .long s
  | .surge =>
    match l.cause with
    | some .long => s
    | some .held => s
    | some .chatter => changeCause id .long s
    | some .drive => changeCause id .long s
    | some .echoLate => changeCause id .long s
    | none => s

/-- The dominant run in progress may give its long run: it has given none, or it has been counted for so long that a break no command showed
and a new run of 1200 units fit into it (R41; log 4). -/
def Lane.givesLongRun (l : Lane) : Bool := l.enabled && (l.reported == .none || 2 * Config.longRun ≤ l.run)

/-- LONG_RUN: the dominant-run timer reaches 1200, once in each run (R41). -/
def execLongRun (id : LaneId) (reading : Nat) (s : State) : Host.Outcome State Fault Refusal :=
  running (dated reading (fun s => if (s.lanes.get id).givesLongRun then longRunOn id s else s)) s

/-- A held run on an enabled lane: in SURGE with cause LONG the cause becomes HELD (R45). -/
def heldRunOn (id : LaneId) (s : State) : State :=
  let s := s.mapLane id (fun l => { l with reported := .held, windowHeld := true })
  if (s.lanes.get id).state == .surge && (s.lanes.get id).cause == some .long then changeCause id .held s else s

/-- HELD_RUN: the dominant-run timer reaches 50 000, once in a run that has given its long run (R41, R45). -/
def execHeldRun (id : LaneId) (reading : Nat) (s : State) : Host.Outcome State Fault Refusal :=
  running (dated reading (fun s =>
    if (s.lanes.get id).reported == .long && (s.lanes.get id).run == Config.heldRun then heldRunOn id s else s)) s

/-- A change of level: a dominant run ends, or one begins on an enabled lane (R41). -/
def Lane.changeLevel (l : Lane) : Lane := if l.dominant then l.endRun else if l.enabled then l.beginRun else l

/-- A framed report of the front end, counted once per field or guard interval (R20, R38); it spoils the lane's copy of the
field whether it is counted or not (R31). A change of level in a guard interval ends a dominant run, or begins one (R41). -/
def framedReport (id : LaneId) (kind : ViolationKind) (s : State) : State :=
  let l := s.lanes.get id
  match kind with
  | .guardInterval =>
    if l.guardFlaw then s.mapLane id Lane.changeLevel
    else (countFramed id s).mapLane id (fun x => { x.changeLevel with guardFlaw := true })
  | .field => if l.fieldFlaw then s else (countFramed id s).mapLane id (fun x => { x with fieldFlaw := true })
  | .mark => if l.fieldFlaw then s else (countFramed id s).mapLane id (fun x => { x with fieldFlaw := true })

/-- CODE_VIOLATION: the front end reports a framed violation where it can arise (R20, R38). -/
def execCodeViolation (id : LaneId) (kind : ViolationKind) (reading : Nat) (s : State) :
    Host.Outcome State Fault Refusal :=
  running (dated reading (fun s => if arisesAt kind reading then framedReport id kind s else s)) s

/-- The activity of an enabled lane: its free violations count while the station is not aligned, and the dominant-run timer is told of its
levels (R38, R39, R41). -/
def countActivity (aligned : Bool) (activity : List LevelRun) (l : Lane) : Lane :=
  (if aligned then l else l.countViolations (freeViolations activity)).tell (runShown activity)

/-- UNCLEAN_STRETCH: the front end divides the lane's activity into stretches, and each that is not clean counts free violations while the
count of consecutive valid marks is 0, at the moment the command comes (R39; DESIGN CHOICE, log 45). -/
def execUncleanStretch (id : LaneId) (activity : List LevelRun) (s : State) : Host.Outcome State Fault Refusal :=
  running (fun s =>
    if (s.lanes.get id).enabled then s.mapLane id (countActivity s.aligned activity) else s) s

end Sys2Proof.Machine
end

