-- ==== Sys2Proof/Machine/Notice.lean ====
section
/-! DEFINITION. The notice engine at the two closes (chapter 5): taking a notice, the roll call, the owner's answer to a repair
ask (chapter 7), duplicate detection in the notice window (R171), and answer close with the outcomes at the sender. -/

namespace Sys2Proof.Machine

open Sys2Proof

/-! ### Judging a notice (R86 to R91) -/

/-- The slots of a CLAIM, RELEASE or RECLAIM. -/
def NoticeBody.run (b : NoticeBody) : Run := ⟨b.first.toNat, b.count.toNat⟩

/-- The run is out of range: its count lies outside 1-12, or its first slot plus count exceeds 24 (R86). -/
def NoticeBody.badRun (b : NoticeBody) : Bool :=
  b.count.toNat < 1 || 12 < b.count.toNat || Config.slots < b.first.toNat + b.count.toNat

/-- The priorities of a kind (R78). -/
def NoticeKind.allows (k : NoticeKind) (priority : BitVec 3) : Bool :=
  match k with
  | .claim => 2 ≤ priority.toNat && priority.toNat ≤ 5
  | .release => priority == 0
  | .reclaim => priority == 1
  | .repairAsk => priority == 6

/-- The notice is malformed (R86). -/
def Notice.malformed (n : Notice) : Bool :=
  !n.body.kind.allows (leadInPriority n.leadIn) ||
  (match n.body.kind with
    | .claim => tagStation n.body.tag != leadInSender n.leadIn || n.body.badRun
    | .release => tagStation n.body.tag != leadInSender n.leadIn || n.body.badRun
    | .reclaim =>
      n.body.target == leadInSender n.leadIn || tagStation n.body.tag != n.body.target || n.body.badRun
    | .repairAsk => n.body.count.toNat < 1 || 16 < n.body.count.toNat)

/-- The station records an answer plan and a tentative change (R86). -/
def planAnswer (p : Option AnswerPlan) (t : Option Tentative) (s : State) : State :=
  { s with notices := { s.notices with plan := p, tentative := t } }

/-- The kind's own conditions hold in the live table: the station accepts the change (R88 to R90). -/
def acceptable (sender : StationNo) (b : NoticeBody) (s : State) : Bool :=
  match b.kind with
  | .claim => runOpen s.table.live b.run
  | .release => runOwned s.table.live b.run sender b.tag
  | .reclaim =>
    b.target != s.station && runOwned s.table.live b.run b.target b.tag && runSilent s.table.live b.run
  | .repairAsk => false

/-- A CLAIM, RELEASE or RECLAIM at the station's own epoch is accepted with its tentative change, or dissented (R88 to R90). -/
def judgeChange (sender : StationNo) (b : NoticeBody) (s : State) : State :=
  if acceptable sender b s then
    planAnswer (some .accept) (some { kind := b.kind, run := b.run, owner := sender, tag := b.tag }) s
  else planAnswer (some .dissent) none s

/-- The ring holds the sequence (R118). -/
def SendEntry.holdsSeq (e : SendEntry) (q : Seq) : Bool := e.ring.any (fun r => r.seq == q)

/-- The sequences an ask names, from its first on (R128). -/
def NoticeBody.sequences (b : NoticeBody) : List Seq :=
  (List.range b.count.toNat).map (fun i => b.first + BitVec.ofNat 16 i)

/-- Sequences join the re-send queue at its tail (R126, R128). -/
def queueResends (tag : Tag) (priority : BitVec 3) (seqs : List Seq) (s : State) : State :=
  { s with repair := { s.repair with
      queue := s.repair.queue ++ seqs.map (fun q => { tag := tag, seq := q, priority := priority }) } }

/-- The owner judges an ask against the retention ring of its stream (R128). -/
def serveAsk (b : NoticeBody) (e : SendEntry) (s : State) : State :=
  let all := b.sequences.all e.holdsSeq
  let fresh := b.sequences.filter (fun q =>
    e.holdsSeq q && !s.repair.queue.any (fun r => r.tag == b.tag && r.seq == q))
  let free := Config.resendQueueSize - s.repair.queue.length
  let priority := e.priority.getD 0
  if all then
    if fresh.length ≤ free then planAnswer (some .accept) none (queueResends b.tag priority fresh s) else s
  else planAnswer (some .dissent) none (queueResends b.tag priority (fresh.take free) s)

/-- The owner's answer to a REPAIR_ASK (R91, R127, R128). -/
def answerAsk (b : NoticeBody) (s : State) : State :=
  if b.epoch == s.table.epoch || serialAhead s.table.epoch b.epoch then
    let e := s.send.get (portOfNumber b.tag.toNat)
    if e.keepsRing then serveAsk b e s else planAnswer (some .dissent) none s
  else s

/-- A station that takes the window judges a VALID notice of another sender (R86 to R91). -/
def judgeOther (n : Notice) (s : State) : State :=
  match n.body.kind with
  | .repairAsk =>
    if n.malformed then s else if tagStation n.body.tag == s.station then answerAsk n.body s else s
  | _ =>
    if n.malformed then planAnswer (some .dissent) none s
    else if n.body.epoch == s.table.epoch then judgeChange (leadInSender n.leadIn) n.body s
    else if serialAhead s.table.epoch n.body.epoch then s
    else planAnswer (some .dissent) none s

/-- The sender of a completed notice takes it from what it sent (R92). -/
def judgeOwn (b : NoticeBody) (s : State) : State :=
  match b.kind with
  | .repairAsk => s
  | .claim => judgeChange s.station b s
  | .release => judgeChange s.station b s
  | .reclaim => judgeChange s.station b s

/-- The body of the notice this station completed in the window (R85). -/
def State.completedFlight (s : State) : Option Flight := s.notices.flight.filter (fun f => f.sent.a || f.sent.b)

/-- A roll call (R97): a station in JOINED or RESYNC answers with its accept position. -/
def rollCall (takes : Bool) (s : State) : State :=
  let s := { s with notices := { s.notices with rollCall := true } }
  if takes || s.ctrl.mode == .resync then planAnswer (some .rollCall) none s else s

/-- The notice engine at notice window close (R86, R92, R97, R98). A station takes the window when it was in JOINED at the close; the move
to RESYNC at the same close does not keep it from answering, a move to FAULTED does. The sender of a completed notice judges it by R92 in an
IDLE window too, and hears no roll call (DESIGN CHOICE, log 60). -/
def engineAtNotice (wasJoined : Bool) (m : MergedNotice) (s : State) : State :=
  let takes := wasJoined && s.ctrl.mode != .faulted
  let dissent := planAnswer (some .dissent) none s
  match s.completedFlight, m with
  | some f, .valid n => if !takes then s else if n = ⟨f.leadIn, f.body⟩ then judgeOwn f.body s else dissent
  | some f, .idle => if takes then judgeOwn f.body s else s
  | some f, .erased => if takes then judgeOwn f.body s else s
  | none, .valid n => if takes then judgeOther n s else s
  | none, .idle => rollCall takes s
  | none, .erased => s
  | _, .divergent _ _ => if takes then dissent else s

/-- The slot table at notice window close: the senders are heard (R65), and of epochs ahead the one ahead of the other, or the one taken
first, is reported (R64). -/
def tableAtNotice (m : MergedNotice) (first : LaneId) (s : State) : State :=
  let ns := m.notices first
  let s := ns.foldl (fun s n => hear (leadInSender n.leadIn) s) s
  match ns with
  | [] => s
  | [n] => testEpoch n.body.epoch s
  | x :: y :: _ =>
    if serialAhead s.table.epoch y.body.epoch
        && (!serialAhead s.table.epoch x.body.epoch || serialAhead x.body.epoch y.body.epoch)
    then testEpoch y.body.epoch s else testEpoch x.body.epoch s

/-- The notice carries this station's number, and is not the notice this station completed here (R171). -/
def State.foreignOwn (s : State) (n : Notice) : Bool :=
  leadInSender n.leadIn == s.station &&
  (match s.completedFlight with
    | some f => n.body != f.body
    | none => true)

/-- Duplicate detection at notice window close (R171). -/
def controllerAtNotice (m : MergedNotice) (s : State) : State :=
  if s.ctrl.mode.detectsDuplicate && (m.notices .a).any s.foreignOwn then enterFaulted .duplicate .duplicate s else s

/-- One block takes the merged notice result. -/
def noticeStep (wasJoined : Bool) (m : MergedNotice) (first : LaneId) (s : State) (step : CloseStep) : State :=
  match step with
  | .slotTable => tableAtNotice m first s
  | .noticeEngine => engineAtNotice wasJoined m s
  | .controller => controllerAtNotice m s

/-- The merged result of the notice window (R31, R33). -/
def State.mergedNotice (s : State) (a b : NoticeReading) : MergedNotice :=
  mergeNotices s.lanes.a.contributing s.lanes.b.contributing (noticeCopy s.lanes.a a) (noticeCopy s.lanes.b b)

/-- Notice window close: a notice sent on no lane ends its flight (R85), the blocks take the merged result in their order, and the
answer field begins. STREAM_CLOSED of a withdrawn CLAIM whose flight ends here comes before the events of those blocks, MODE_CHANGED
among them (R183; DESIGN CHOICE, log 73), and its outcome record is formed before the sender heard at this close is heard (R65, R102;
DESIGN CHOICE, log 79). -/
def closeNotice (a b : NoticeReading) (order : CloseOrder) (s : State) : State :=
  let m := s.mergedNotice a b
  let s := tellLevels a.levelShown b.levelShown (if s.completed then recordSent s else endFlightLost s)
  let wasJoined := s.ctrl.mode == .joined
  let s := order.steps.foldl (noticeStep wasJoined m order.first) s
  let s := beginField Config.noticeCloseAt s
  applyIf (s.answerAt == some Config.noticeCloseAt) startAnswer s

/-- NOTICE_WINDOW_CLOSE: field event 1; the station takes the merged notice result (R3, R86). -/
def execNoticeWindowClose (a b : NoticeReading) (order : CloseOrder) (s : State) : Host.Outcome State Fault Refusal :=
  checked order.admissible (running (fieldEvent 1 (closeNotice a b order)) s)

/-! ### Outcomes at the sender (R99 to R102) -/

/-- A DISSENTED CLAIM or RELEASE joins again as a new attempt (R79, R100). -/
def rejoin (q : Queued) (s : State) : State :=
  (removeInFlight s).mapQueue (insertQueued { q with attempt := q.attempt + 1, inFlight := false })

/-- A RELEASE of a send entry was refused after its third attempt: the entry stays RELEASING and offers a new one at the next round
start (R100, R121). -/
def releaseRefused (q : Queued) (record : OutcomeRecord) (s : State) : State :=
  match q.origin with
  | .send p =>
    if (s.send.get p).state == .releasing then
      giveEvent (.streamRefused p .dissent record) (s.mapSend p (fun e => { e with releaseDue := true }))
    else s
  | .recv _ => s
  | .slotTable => s
  | .controller => s

/-- The notice committed (R99): a CLAIM makes its entry LIVE, a RELEASE of a send entry closes it, the others have no further
effect. -/
def senderCommitted (q : Queued) (s : State) : State :=
  let record := outcomeRecord q s
  let s := removeInFlight s
  match q.kind, q.origin with
  | .claim, .send p => claimCommitted p q record false s
  | .release, .send p =>
    if (s.send.get p).state == .releasing then giveEvent (.streamClosed p (some record)) (closeSend p s) else s
  | _, _ => s

/-- The notice was dissented (R100). -/
def senderDissented (q : Queued) (s : State) : State :=
  let record := outcomeRecord q s
  match q.kind with
  | .claim =>
    if q.attempt < 3 then rejoin q s else refuseQueued .dissent (removeInFlight s) q
  | .release => if q.attempt < 3 then rejoin q s else releaseRefused q record (removeInFlight s)
  | .reclaim => removeInFlight s
  | .repairAsk => removeInFlight s

/-- The outcome of a completed REPAIR_ASK at a read answer field (R101). It leaves the queue. The outcome reaches its entry in JOINED only
(R159), where RESYNC too has the ask leave the queue (DESIGN CHOICE, log 64), and a withdrawn ask's outcome is dropped (R81). -/
def askOutcome (q : Queued) (ans : AnswerRecord) (s : State) : State :=
  let t := removeInFlight s
  match q.origin with
  | .recv p =>
    if q.withdrawn || s.ctrl.mode != .joined then t
    else if ans.accepts.getLsbD (tagStation q.tag).toNat then askAccepted p q.first q.count.toNat t
    else if ans.dissent then askGone p q.first q.count.toNat t
    else t
  | .send _ => t
  | .slotTable => t
  | .controller => t

/-- The outcome of the completed notice in flight, at a read answer field (R81, R99, R101). -/
def senderOutcome (committed : Bool) (ans : AnswerRecord) (s : State) : State :=
  match s.inFlight with
  | none => clearFlight s
  | some q =>
    match q.kind with
    | .repairAsk => askOutcome q ans s
    | _ =>
      if committed then senderCommitted q s
      else if q.withdrawn then withdrawnEnds q (outcomeRecord q s) (removeInFlight s)
      else senderDissented q s

/-- A roll call's answers are heard (R65, R97). -/
def hearRollCall (ans : AnswerRecord) (s : State) : State :=
  { s with table := { s.table with
      heard := s.table.heard.mapIdx (fun p age => if ans.accepts.getLsbD p then 0 else age) } }

/-- A read answer field (R94): commit or discard, the sender's outcome, and the engines' checks after a commit, their events in this order
(R183; DESIGN CHOICE, log 58). -/
def takeAnswers (ans : AnswerRecord) (sendFirst : Bool) (s : State) : State :=
  let s := applyIf s.notices.rollCall (hearRollCall ans) s
  let completed := s.completed
  match s.notices.tentative with
  | some t =>
    if ans.dissent then applyIf completed (senderOutcome false ans) s
    else tableChanged sendFirst (applyIf completed (senderOutcome true ans) (commitChange t s))
  | none => applyIf completed (senderOutcome false ans) s

/-- Answer close (R94, R95). -/
def closeAnswers (a b : AnswerReading) (sendFirst : Bool) (s : State) : State :=
  let ans := mergeAnswers s.lanes a b
  let s := tellLevels a.levelShown b.levelShown s
  let t := { s with notices := { s.notices with lastAnswer := some ans } }
  beginField Config.answerCloseAt (dropAnswer (if ans.read then takeAnswers ans sendFirst t else loseAnswers t))

/-- ANSWER_CLOSE: field event 2; the notice engine takes the answer field (R3, R94). -/
def execAnswerClose (a b : AnswerReading) (sendFirst : Bool) (s : State) : Host.Outcome State Fault Refusal :=
  running (fieldEvent 2 (closeAnswers a b sendFirst)) s

end Sys2Proof.Machine
end

