-- ==== Sys2Proof/Machine/Port.lean ====
section
/-! DEFINITION. The port in half (section 6.3): length words and data bytes. -/

namespace Sys2Proof.Machine

open Sys2Proof

/-- A block is opened: it takes a place, and a run of overrun bytes ends (R111, R113). -/
def openAssembly (value : Nat) (e : SendEntry) : SendEntry :=
  { e with assembly := some { length := value, payload := [] }, overrun := false }

/-- A length word given while the ready line is high (R111, R113): a value of 0 or above 256 is discarded with PORT_ERROR; a word during
an assembly discards the partial block with PORT_ERROR and opens a new one. -/
def takeLength (p : Port) (value : Nat) (s : State) : State :=
  if value < 1 || 256 < value then giveEvent (.sendPortError p .badLength) s
  else if (s.send.get p).assembly.isSome then
    giveEvent (.sendPortError p .lengthInAssembly) (s.mapSend p (openAssembly value))
  else s.mapSend p (openAssembly value)

/-- LENGTH_WORD: a length word given while the ready line is low is refused and changes nothing (R111; log 15). -/
def execLengthWord (p : Port) (value : Nat) (s : State) : Host.Outcome State Fault Refusal :=
  running (fun s => if s.ready p then takeLength p value s else s) s

/-- A byte joins the block being assembled; the last byte completes it with its check (R112). -/
def appendByte (a : Assembly) (byte : Byte) (e : SendEntry) : SendEntry :=
  let payload := a.payload ++ [byte]
  if payload.length < a.length then { e with assembly := some { a with payload := payload } }
  else { e with assembly := none, fifo := e.fifo ++ [{ payload := payload, check := check32 payload }] }

/-- A data byte at an in half that is open (R112, R113): with no block being assembled it is an overrun, and a run of
overruns gives one PORT_ERROR. -/
def takeByte (p : Port) (byte : Byte) (s : State) : State :=
  match (s.send.get p).assembly with
  | some a => s.mapSend p (appendByte a byte)
  | none =>
    if (s.send.get p).overrun then s
    else giveEvent (.sendPortError p .overrun) (s.mapSend p (fun e => { e with overrun := true }))

/-- DATA_BYTE: a data byte at the in half (R112); outside CLAIMING and LIVE none is taken (R113). -/
def execDataByte (p : Port) (byte : Byte) (s : State) : Host.Outcome State Fault Refusal :=
  running (fun s => if (s.send.get p).inHalfOpen then takeByte p byte s else s) s

end Sys2Proof.Machine
end

