-- ==== Sys2Proof/Machine/Supply.lean ====
section
/-! DEFINITION. The supply monitor, the three resets and their release (section 9.6, R163, R173 to R175). -/

namespace Sys2Proof.Machine

open Sys2Proof

/-- The retained context with another freeze flag. -/
def setFrozen (frozen : Bool) (s : State) : State :=
  { s with ctrl := { s.ctrl with context := { s.ctrl.context with frozen := frozen } } }

/-- The main supply falls below the warn falling threshold (R173). -/
def supplyWarns (s : State) : State :=
  if s.ctrl.supply == .ok then
    giveEvent .supplyWarn (setFrozen true { s with ctrl := { s.ctrl with supply := .warn } })
  else s

/-- SUPPLY_WARN (R173). -/
def execSupplyWarn (s : State) : Host.Outcome State Fault Refusal := running supplyWarns s

/-- The main supply rises above the warn rising threshold (R173). -/
def supplyRecovers (s : State) : State :=
  if s.ctrl.supply == .warn then
    giveEvent .supplyOk (setFrozen false { s with ctrl := { s.ctrl with supply := .ok } })
  else s

/-- SUPPLY_OK (R173). -/
def execSupplyOk (s : State) : Host.Outcome State Fault Refusal := running supplyRecovers s

/-- The retained context with its validity flag cleared. -/
def clearValid (c : Context) : Context := { c with valid := false }

/-- The backup comparator: while a supply reset holds, a low backup supply clears the validity flag, whichever of the two supplies fell
first (R174). -/
def compareBackup (h : ResetHold) (c : Context) : Context := if h.supply && h.backupLow then clearValid c else c

/-- SUPPLY_RESET: the main supply falls below the low falling threshold; all core state is cleared and the retained context is
kept, with its validity and its freeze flag, but for the validity of a context whose backup supply is low (R174). -/
def execSupplyReset (s : State) : Host.Outcome State Fault Refusal :=
  let h := { s.hold with supply := true }
  .next (State.cleared h s.ctrl.option (compareBackup h s.ctrl.context) s.pending)

/-- BACKUP_SUPPLY_LOW: the backup supply is below its threshold. The comparator acts only while a supply reset holds; a fall before it is
kept for the supply reset that follows (R174). -/
def execBackupSupplyLow (s : State) : Host.Outcome State Fault Refusal :=
  let h := { s.hold with backupLow := true }
  .next { s with hold := h, ctrl := { s.ctrl with context := compareBackup h s.ctrl.context } }

/-- POWER_ON_RESET: main and backup supply rise together from absent (R175). Nothing survives; the straps are not sampled yet (log 1). -/
def execPowerOnReset (s : State) : Host.Outcome State Fault Refusal :=
  .next (State.cleared { powerOn := true, pin := false, supply := false, backupLow := false } .unsampled .empty s.pending)

/-- PIN_RESET: the reset pin is asserted; the records are kept and the validity is cleared (R175). -/
def execPinReset (s : State) : Host.Outcome State Fault Refusal :=
  .next (State.cleared { s.hold with pin := true } s.ctrl.option (clearValid s.ctrl.context) s.pending)

/-- The retained context at a release (R163, R175): another station number clears its validity; the freeze flag follows the
supply. -/
def contextAtRelease (station : StationNo) (aboveWarn : Bool) (c : Context) : Context :=
  { c with valid := c.valid && c.station == station, frozen := !aboveWarn }

/-- No reset holds. A low backup supply stands over the release of a pin reset; the release of a supply reset ends what was told of it, as
no command tells that the backup supply has risen (DESIGN CHOICE, log 68). -/
def ResetHold.released (h : ResetHold) : ResetHold :=
  { powerOn := false, pin := false, supply := false, backupLow := h.backupLow && !h.supply }

/-- The release of every reset that holds (R163, R175): STARTING begins, the straps are sampled, the supply state is set from the main
supply, with a SUPPLY_WARN event if it does not stand above the warn rising threshold. -/
def release (straps : BitVec 10) (aboveWarn : Bool) (s : State) : State :=
  let o := optionOf straps
  let t := State.cleared s.hold.released o
    (contextAtRelease o.station aboveWarn s.ctrl.context) s.pending
  let t := beginField 0 { t with ctrl := { t.ctrl with supply := if aboveWarn then .ok else .warn } }
  if aboveWarn then t else giveEvent .supplyWarn t

/-- RESET_RELEASE: the resets that hold are released (R163, R175); with none holding there is nothing to release. -/
def execResetRelease (straps : BitVec 10) (aboveWarn : Bool) (s : State) : Host.Outcome State Fault Refusal :=
  .next (if s.holding then release straps aboveWarn s else s)

end Sys2Proof.Machine
end

