-- ==== Sys2Proof/Machine/Dispatch.lean ====
section
/-! DEFINITION. The meaning of every command: one arm per constructor of `Instr`. -/

namespace Sys2Proof.Machine

open Sys2Proof

def exec (i : Instr) (s : State) : Host.Outcome State Fault Refusal :=
  match i with
  | .openSend port count cls priority => Sys2Proof.Machine.execOpenSend port count cls priority s
  | .openReceive port tag delay cls => Sys2Proof.Machine.execOpenReceive port tag delay cls s
  | .close entry => Sys2Proof.Machine.execClose entry s
  | .readStream entry => Sys2Proof.Machine.execReadStream entry s
  | .readLanes => Sys2Proof.Machine.execReadLanes s
  | .readSlot slot => Sys2Proof.Machine.execReadSlot slot s
  | .readStation => Sys2Proof.Machine.execReadStation s
  | .takeEvents n => Sys2Proof.Machine.execTakeEvents n s
  | .setAlertMask causes => Sys2Proof.Machine.execSetAlertMask causes s
  | .clearAlert causes => Sys2Proof.Machine.execClearAlert causes s
  | .holdLane lane hold => Sys2Proof.Machine.execHoldLane lane hold s
  | .unknownRequestKind kind => Sys2Proof.Machine.execUnknownRequestKind kind s
  | .frameDiscarded flaw => Sys2Proof.Machine.execFrameDiscarded flaw s
  | .frameIdleTimeout => Sys2Proof.Machine.execFrameIdleTimeout s
  | .replyFrameSent => Sys2Proof.Machine.execReplyFrameSent s
  | .roundTimerExpiry order => Sys2Proof.Machine.execRoundTimerExpiry order s
  | .earlyWindowEdge lane reading order => Sys2Proof.Machine.execEarlyWindowEdge lane reading order s
  | .lateWindowEdge lane reading => Sys2Proof.Machine.execLateWindowEdge lane reading s
  | .deferralPoint => Sys2Proof.Machine.execDeferralPoint s
  | .openSearchAdoption lane otherLane leadInFirst order => Sys2Proof.Machine.execOpenSearchAdoption lane otherLane leadInFirst order s
  | .markClose a b leadInFirst => Sys2Proof.Machine.execMarkClose a b leadInFirst s
  | .seventhLeadInTick field => Sys2Proof.Machine.execSeventhLeadInTick field s
  | .arbitrationLoss field tick lane => Sys2Proof.Machine.execArbitrationLoss field tick lane s
  | .driveFault field tick lane => Sys2Proof.Machine.execDriveFault field tick lane s
  | .echoMismatch lane reading => Sys2Proof.Machine.execEchoMismatch lane reading s
  | .echoMeasurement lane value reading => Sys2Proof.Machine.execEchoMeasurement lane value reading s
  | .echoLate lane reading => Sys2Proof.Machine.execEchoLate lane reading s
  | .noticeWindowClose a b order => Sys2Proof.Machine.execNoticeWindowClose a b order s
  | .answerClose a b sendFirst => Sys2Proof.Machine.execAnswerClose a b sendFirst s
  | .repairWindowClose a b => Sys2Proof.Machine.execRepairWindowClose a b s
  | .slotStart slot => Sys2Proof.Machine.execSlotStart slot s
  | .resendSent => Sys2Proof.Machine.execResendSent s
  | .slotPass slot a b order => Sys2Proof.Machine.execSlotPass slot a b order s
  | .windowClose first runA runB reading => Sys2Proof.Machine.execWindowClose first runA runB reading s
  | .longRun lane reading => Sys2Proof.Machine.execLongRun lane reading s
  | .heldRun lane reading => Sys2Proof.Machine.execHeldRun lane reading s
  | .codeViolation lane kind reading => Sys2Proof.Machine.execCodeViolation lane kind reading s
  | .uncleanStretch lane activity => Sys2Proof.Machine.execUncleanStretch lane activity s
  | .lengthWord port value => Sys2Proof.Machine.execLengthWord port value s
  | .dataByte port byte => Sys2Proof.Machine.execDataByte port byte s
  | .outHalfItemTaken port => Sys2Proof.Machine.execOutHalfItemTaken port s
  | .supplyWarn => Sys2Proof.Machine.execSupplyWarn s
  | .supplyOk => Sys2Proof.Machine.execSupplyOk s
  | .supplyReset => Sys2Proof.Machine.execSupplyReset s
  | .backupSupplyLow => Sys2Proof.Machine.execBackupSupplyLow s
  | .powerOnReset => Sys2Proof.Machine.execPowerOnReset s
  | .pinReset => Sys2Proof.Machine.execPinReset s
  | .resetRelease straps aboveWarn => Sys2Proof.Machine.execResetRelease straps aboveWarn s
  | .openSearchEdge lane reading passiveFor => Sys2Proof.Machine.execOpenSearchEdge lane reading passiveFor s

end Sys2Proof.Machine
end

