-- ==== Sys2Proof/Machine/Step.lean ====
section
/-! DEFINITION. One step of the station: the command at the front of the queue, or one unit of time when none waits. -/

namespace Sys2Proof.Machine

open Sys2Proof

/-- With no command waiting, one 10 ns unit passes (log 2); nothing moves while a reset holds. -/
def idle (s : State) : State := if s.holding then s else tick s

/-- One step: the command at the front of the queue is executed on the state with the queue's rest. -/
def step (s : State) : Host.Outcome State Fault Refusal :=
  match s.pending with
  | [] => .next (idle s)
  | c :: rest => exec c { s with pending := rest }

/-- The state with the command that a word spells put at the front of the queue; the table gives no row bits, so no word spells
one (log 26). -/
def State.withFetchWord (s : State) (nbits w : Nat) : State :=
  match decodeTableWord nbits w with
  | some c => { s with pending := c :: s.pending }
  | none => s

end Sys2Proof.Machine
end

