-- ==== Sys2Proof/Machine/Formats.lean ====
section
/-! DEFINITION. The formats of chapter 11 on the management line: request frames as commands, and the bytes of reply frames and event
records. -/

namespace Sys2Proof.Machine

open Sys2Proof

/-! ### Request frames (R178, R194) -/

/-- The argument bytes a request kind requires (R179, R194). -/
def requiredArguments (kind : Byte) : Nat :=
  match kind.toNat with
  | 1 => 4
  | 2 => 5
  | 3 => 1
  | 4 => 1
  | 6 => 1
  | 8 => 1
  | 9 => 1
  | 10 => 1
  | 11 => 2
  | _ => 0

/-- The request of a kind with its arguments, those beyond the required ones ignored (R194). -/
def requestOf (kind : Byte) (args : List Byte) : Instr :=
  let arg := fun i => args.getD i 0
  match kind.toNat with
  | 1 => .openSend (arg 0) (arg 1) (arg 2) (arg 3)
  | 2 => .openReceive (arg 0) (arg 1) (arg 2 ++ arg 3) (arg 4)
  | 3 => .close (arg 0)
  | 4 => .readStream (arg 0)
  | 5 => .readLanes
  | 6 => .readSlot (arg 0)
  | 7 => .readStation
  | 8 => .takeEvents (arg 0)
  | 9 => .setAlertMask (arg 0)
  | 10 => .clearAlert (arg 0)
  | 11 => .holdLane (arg 0) (arg 1)
  | _ => .unknownRequestKind kind

/-- The command that the bytes of one incoming frame amount to (R194): a frame that ends before its length, a bad check, too few
arguments for its kind, or a request. -/
def frameCommand : List Byte → Instr
  | kind :: len :: rest =>
    if rest.length < len.toNat + 2 then .frameIdleTimeout
    else
      let args := rest.take len.toNat
      let check := (rest.drop len.toNat).take 2
      if check != bytesOf 2 (check16 (kind :: len :: args)) then .frameDiscarded .badCheck
      else if args.length < requiredArguments kind then .frameDiscarded .tooShort
      else requestOf kind args
  | _ => .frameIdleTimeout

/-! ### Codes (section 11.6) -/

/-- A reply code 0-8. -/
def ReplyCode.code : ReplyCode → Nat
  | .done => 0
  | .started => 1
  | .busy => 2
  | .badArg => 3
  | .noRoom => 4
  | .noSlots => 5
  | .notJoined => 6
  | .portTaken => 7
  | .notOpen => 8

def Mode.code : Mode → Nat
  | .starting => 0
  | .listening => 1
  | .joined => 2
  | .resync => 3
  | .dark => 4
  | .faulted => 5

def ModeCause.code : ModeCause → Nat
  | .startDone => 0
  | .darkOnset => 1
  | .noLane => 2
  | .learned => 3
  | .alone => 4
  | .epochAhead => 5
  | .answersLost => 6
  | .darkEnd => 7
  | .duplicate => 8

def LaneState.code : LaneState → Nat
  | .off => 0
  | .clear => 1
  | .suspect => 2
  | .surge => 3
  | .settling => 4

def SurgeCause.code : SurgeCause → Nat
  | .chatter => 0
  | .long => 1
  | .held => 2
  | .drive => 3
  | .echoLate => 4

def SendState.code : SendState → Nat
  | .closed => 0
  | .claiming => 1
  | .live => 2
  | .held => 3
  | .releasing => 4

def ReleasePath.code : ReleasePath → Nat
  | .fromClaim => 0
  | .fromLive => 1
  | .fromHeld => 2

def RecvState.code : RecvState → Nat
  | .closed => 0
  | .waiting => 1
  | .active => 2

def RetClass.code : RetClass → Nat
  | .r128 => 0
  | .r256 => 1
  | .r512 => 2
  | .r1024 => 3

def WinClass.code : WinClass → Nat
  | .w256 => 0
  | .w512 => 1
  | .w1024 => 2
  | .w2048 => 3

def Supply.code : Supply → Nat
  | .ok => 0
  | .warn => 1

def FaultReason.code : FaultReason → Nat
  | .duplicate => 0
  | .noLane => 1

def RefuseReason.code : RefuseReason → Nat
  | .noSlots => 0
  | .dissent => 1
  | .timeout => 2

def GoneReason.code : GoneReason → Nat
  | .dissent => 0
  | .limit => 1

/-- OPEN, OWNED, UNKNOWN. -/
def SlotUse.code : SlotUse → Nat
  | .openSlot => 0
  | .owned _ _ => 1
  | .unknown => 2

/-- Lane A is 0, lane B is 1. -/
def laneCode : LaneId → Nat
  | .a => 0
  | .b => 1

/-- A two-valued field. -/
def flagCode (b : Bool) : Nat := if b then 1 else 0

/-- A set of causes, EVENTS in the least significant bit (section 11.6). -/
def Causes.code (c : Causes) : Nat :=
  flagCode c.events + 2 * flagCode c.surge + 4 * flagCode c.loss + 8 * flagCode c.supply + 16 * flagCode c.fault

/-! ### Records (R194) -/

/-- A number in a fixed count of bytes, most significant first. -/
def numBytes (width n : Nat) : List Byte := bytesOf width (BitVec.ofNat (8 * width) n)

/-- A field of a record: its bytes, and whether it is present. -/
structure Field where
  present : Bool
  bytes   : List Byte
deriving DecidableEq, Repr

/-- A field of one number. -/
def fieldOf (width n : Nat) : Field := { present := true, bytes := numBytes width n }

/-- A field that may be absent: it is then sent as zeros of its width. -/
def optField (width : Nat) (n : Option Nat) : Field :=
  match n with
  | some n => fieldOf width n
  | none => { present := false, bytes := numBytes width 0 }

/-- A slot run: first slot, count. -/
def runField (r : Option Run) : Field := optField 2 (r.map (fun r => 256 * r.first + r.count))

/-- The presence field: one bit per field, in table order, from the most significant bit (R194). -/
def presence (fs : List Field) : List Byte :=
  bytesOf 4 ((fs.mapIdx (fun i f => if f.present then BitVec.twoPow 32 (31 - i) else 0)).foldl (· ||| ·) (0 : BitVec 32))

/-- A record: its presence field and its fields in order (R194). -/
def recordBytes (fs : List Field) : List Byte := presence fs ++ fs.flatMap (fun f => f.bytes)

/-- The fields of a send entry's record (R124, R194). The widths that the table of R194 does not name, of the release path and of some
counts, are the model's (DESIGN CHOICE, log 22). -/
def SendRecord.fields (r : SendRecord) : List Field :=
  [fieldOf 1 (portNumber r.port), fieldOf 1 r.state.code, fieldOf 1 r.tag.toNat,
   optField 1 (r.priority.map (fun k => k.toNat)), optField 1 (r.cls.map (fun c => c.code)),
   optField 1 r.requested, runField r.claimRun, runField r.slotRun,
   optField 1 (r.releasePath.map (fun p => p.code)), fieldOf 1 r.gen.toNat, fieldOf 2 r.nextSeq.toNat,
   optField 2 r.reservation, optField 2 r.retained, optField 2 (r.oldest.map (fun q => q.toNat)),
   optField 2 r.heldRounds, fieldOf 1 r.places, fieldOf 2 r.byteCounter]

/-- One gap run, 7 bytes: the ask reach as its offset from first (R194). -/
def GapRun.bytes (r : GapRun) : List Byte :=
  numBytes 2 r.first.toNat ++ numBytes 2 r.count ++ numBytes 1 (flagCode r.ask.isSome) ++ numBytes 1 r.asksUsed
  ++ numBytes 1 (match r.ask with
    | some a => (a.reach - r.first).toNat
    | none => 0)

/-- The gap runs: their number, then 7 bytes per run (R194). Absent, the field is one zero byte, its width with no run (DESIGN CHOICE,
log 70). -/
def gapField (gs : Option (List GapRun)) : Field :=
  match gs with
  | some l => { present := true, bytes := numBytes 1 l.length ++ l.flatMap (fun r => r.bytes) }
  | none => { present := false, bytes := numBytes 1 0 }

/-- The fields of a receive entry's record (R160, R194; DESIGN CHOICE for the widths of some counts and of the anchored field, log 22). -/
def RecvRecord.fields (r : RecvRecord) : List Field :=
  [fieldOf 1 (4 + portNumber r.port), fieldOf 1 r.state.code, optField 1 (r.tag.map (fun t => t.toNat)),
   optField 2 r.delay, optField 1 (r.cls.map (fun c => c.code)), optField 2 r.reservation,
   optField 1 (r.anchored.map flagCode), optField 1 (r.gen.map (fun g => g.toNat)),
   optField 2 (r.nextExpected.map (fun q => q.toNat)), optField 2 (r.nextPlayout.map (fun q => q.toNat)),
   optField 2 r.depth, optField 2 r.heldCount, optField 2 r.missingCount, gapField r.gaps, fieldOf 1 r.items,
   fieldOf 1 (flagCode r.overflow)]

/-- The fields of a lane record (R180, R194; DESIGN CHOICE for the width of the transmit hold, log 22). -/
def LaneRecord.fields (r : LaneRecord) : List Field :=
  [fieldOf 1 (laneCode r.lane), fieldOf 1 r.state.code, optField 1 (r.cause.map (fun c => c.code)),
   fieldOf 1 r.echoDelay.toNat, fieldOf 1 (flagCode r.hold), fieldOf 2 r.rounds]

/-- The owner and the tag of an OWNED entry. -/
def SlotUse.ownerTag : SlotUse → Option (StationNo × Tag)
  | .owned o t => some (o, t)
  | .openSlot => none
  | .unknown => none

/-- The fields of a slot record (R76, R194; DESIGN CHOICE for the widths of some counts and of the last mismatch, log 22). -/
def SlotRecord.fields (r : SlotRecord) : List Field :=
  [fieldOf 1 r.slot, fieldOf 1 r.entry.use.code, optField 1 (r.entry.use.ownerTag.map (fun x => x.1.toNat)),
   optField 1 (r.entry.use.ownerTag.map (fun x => x.2.toNat)), fieldOf 2 r.entry.silent,
   fieldOf 1 (flagCode r.entry.lastValid), fieldOf 1 (flagCode r.entry.reclaim), fieldOf 1 r.entry.mismatches,
   optField 3 (r.entry.lastMismatch.map (fun m => 65536 * m.owner.toNat + 256 * m.tag.toNat + m.epoch.toNat)),
   fieldOf 1 r.epoch.toNat]

/-- The fields of the station record (R181, R194; DESIGN CHOICE for the width of the alert line, log 22). -/
def StationRecord.fields (r : StationRecord) : List Field :=
  [fieldOf 1 r.mode.code, fieldOf 1 r.station.toNat, fieldOf 1 r.epoch.toNat, fieldOf 1 (flagCode r.pacing),
   fieldOf 2 r.capture, { present := true, bytes := r.heard.flatMap (numBytes 2) }, fieldOf 1 (flagCode r.valid),
   fieldOf 1 r.supply.code, optField 1 (r.faultReason.map (fun x => x.code)), fieldOf 1 r.latched.code,
   fieldOf 1 r.mask.code, fieldOf 1 (flagCode r.alertLine)]

/-! ### Event records (section 11.6) -/

/-- A number packed in `width` bits. -/
structure Bits where
  width : Nat
  value : Nat
deriving DecidableEq, Repr

/-- The packing of bit fields, the first in the most significant place. -/
def packBits (l : List Bits) : Nat := l.foldl (fun acc b => acc * 2 ^ b.width + b.value % 2 ^ b.width) 0

/-- The bits that a list of fields takes. -/
def bitsWidth (l : List Bits) : Nat := (l.map (fun b => b.width)).sum

def Run.bits (r : Run) : List Bits := [⟨5, r.first⟩, ⟨5, r.count⟩]

/-- An outcome record in 54 bits (section 11.6): the bitmap with position 0 first, then the heard flags, those too with
station 0 first (DESIGN CHOICE, log 69). -/
def OutcomeRecord.bits (o : OutcomeRecord) : List Bits :=
  let bitmap := (o.answer.map (fun x => x.1)).getD 0
  let dissent := (o.answer.map (fun x => x.2)).getD false
  [⟨2, o.kind.code.toNat⟩, ⟨6, o.tag.toNat⟩] ++ o.run.bits ++ [⟨2, o.attempt⟩, ⟨1, flagCode o.answer.isSome⟩]
  ++ (List.range 16).map (fun p => ⟨1, flagCode (bitmap.getLsbD p)⟩) ++ [⟨1, flagCode dissent⟩]
  ++ (List.range 16).map (fun p => ⟨1, flagCode (o.heard.getD p false)⟩)

/-- The surge cause of an event, when present. -/
def causeBits : Option SurgeCause → List Bits
  | some c => [⟨3, c.code⟩]
  | none => []

/-- The case of a PORT_ERROR, followed by the discarded sequence of an out-half overflow (section 11.6). -/
def PortCase.bits : PortCase → List Bits
  | .overrun => [⟨2, 0⟩]
  | .lengthInAssembly => [⟨2, 1⟩]
  | .badLength => [⟨2, 2⟩]
  | .overflow q => [⟨2, 3⟩, ⟨16, q.toNat⟩]

/-- The kind of an event, 1-18 (R182). -/
def Event.kind : Event → Nat
  | .modeChanged _ _ _ => 1
  | .laneChanged _ _ _ _ => 2
  | .surgeContinues _ _ _ => 3
  | .resyncDone _ _ => 4
  | .streamLive _ _ => 5
  | .streamRefused _ _ _ => 6
  | .streamClosed _ _ => 7
  | .slotsLost _ _ _ => 8
  | .heldReleased _ _ => 9
  | .receiveActive _ _ _ => 10
  | .receiveWaiting _ _ => 11
  | .rebased _ _ _ _ => 12
  | .blocksLost _ _ _ _ => 13
  | .repairGone _ _ _ _ => 14
  | .sendPortError _ _ => 15
  | .recvPortError _ _ => 15
  | .supplyWarn => 16
  | .supplyOk => 17
  | .fault _ => 18

/-- The detail fields of an event, in the order of R182; empty where the kind has none. -/
def Event.detail : Event → List Bits
  | .modeChanged previous new cause => [⟨3, previous.code⟩, ⟨3, new.code⟩, ⟨4, cause.code⟩]
  | .laneChanged _ previous new cause => [⟨3, previous.code⟩, ⟨3, new.code⟩] ++ causeBits cause
  | .surgeContinues _ cause rounds => causeBits cause ++ [⟨16, rounds⟩]
  | .resyncDone epoch converted => [⟨8, epoch.toNat⟩, ⟨5, converted⟩]
  | .streamLive _ o => o.bits
  | .streamRefused _ reason o => [⟨2, reason.code⟩] ++ o.bits
  | .streamClosed _ (some o) => o.bits
  | .streamClosed _ none => []
  | .slotsLost _ run epoch => run.bits ++ [⟨8, epoch.toNat⟩]
  | .heldReleased _ run => run.bits
  | .receiveActive _ tag run => [⟨6, tag.toNat⟩] ++ run.bits
  | .receiveWaiting _ tag => [⟨6, tag.toNat⟩]
  | .rebased _ old new first => [⟨4, old.toNat⟩, ⟨4, new.toNat⟩, ⟨16, first.toNat⟩]
  | .blocksLost _ first count gen => [⟨16, first.toNat⟩, ⟨16, count⟩, ⟨4, gen.toNat⟩]
  | .repairGone _ first count reason => [⟨16, first.toNat⟩, ⟨16, count⟩, ⟨2, reason.code⟩]
  | .sendPortError _ which => which.bits
  | .recvPortError _ which => which.bits
  | .supplyWarn => []
  | .supplyOk => []
  | .fault reason => [⟨2, reason.code⟩]

/-- The subject of an event: class 0 lane, 2 entry, 3 station, and its number (section 11.6). -/
def Event.subject (station : StationNo) : Event → Nat × Nat
  | .modeChanged _ _ _ => (3, station.toNat)
  | .laneChanged l _ _ _ => (0, laneCode l)
  | .surgeContinues l _ _ => (0, laneCode l)
  | .resyncDone _ _ => (3, station.toNat)
  | .streamLive p _ => (2, portNumber p)
  | .streamRefused p _ _ => (2, portNumber p)
  | .streamClosed p _ => (2, portNumber p)
  | .slotsLost p _ _ => (2, portNumber p)
  | .heldReleased p _ => (2, portNumber p)
  | .receiveActive p _ _ => (2, 4 + portNumber p)
  | .receiveWaiting p _ => (2, 4 + portNumber p)
  | .rebased p _ _ _ => (2, 4 + portNumber p)
  | .blocksLost p _ _ _ => (2, 4 + portNumber p)
  | .repairGone p _ _ _ => (2, 4 + portNumber p)
  | .sendPortError p _ => (2, portNumber p)
  | .recvPortError p _ => (2, 4 + portNumber p)
  | .supplyWarn => (3, station.toNat)
  | .supplyOk => (3, station.toNat)
  | .fault _ => (3, station.toNat)

/-- The 12 bytes of an event record: its detail is packed from the most significant bit (section 11.6). -/
def EventRecord.bytes (station : StationNo) (r : EventRecord) : List Byte :=
  let d := r.event.detail
  numBytes 1 (128 * flagCode (!d.isEmpty) + r.event.kind)
  ++ numBytes 1 (64 * (r.event.subject station).1 + (r.event.subject station).2)
  ++ numBytes 2 r.round.toNat
  ++ numBytes 8 (packBits d * 2 ^ (64 - bitsWidth d))

/-! ### Reply frames -/

/-- The content bytes of a reply (section 11.6). -/
def ReplyContent.bytes (station : StationNo) : ReplyContent → List Byte
  | .none => []
  | .heldCount n => numBytes 1 n
  | .newState st => numBytes 1 st.code
  | .send r => recordBytes r.fields
  | .recv r => recordBytes r.fields
  | .lanes a b => recordBytes a.fields ++ recordBytes b.fields
  | .slot r => recordBytes r.fields
  | .station r => recordBytes r.fields
  | .events records overrun left =>
    numBytes 1 (flagCode overrun) ++ numBytes 1 left ++ records.flatMap (fun r => r.bytes station)

/-- A reply frame: code, content length, content, frame check (section 11.6). -/
def Reply.bytes (station : StationNo) (r : Reply) : List Byte :=
  let content := r.content.bytes station
  let frame := numBytes 1 r.code.code ++ numBytes 2 content.length ++ content
  frame ++ bytesOf 2 (check16 frame)

end Sys2Proof.Machine
end

