-- ==== Sys2Proof/Safety.lean ====
section
/-! DEFINITION. The invariants of the station: the capacities and ranges that the manual gives its queues, counts and tables, the presence
of the mode's own state, and the block-store limit. -/

namespace Sys2Proof.Machine

open Sys2Proof

/-- The counts of a lane lie in the ranges of section 3.1, and an open-search reading began before the early window (R14). -/
def Lane.inRange (l : Lane) : Prop :=
  l.windowCounter ≤ 255 ∧ l.violations ≤ 255 ∧ l.run ≤ 50000 ∧ l.quiet ≤ 32 ∧ l.marks ≤ 4 ∧ l.rounds ≤ 65535
  ∧ l.contPhase < 16 ∧ ∀ x, l.search = some x → x.edge < 24800

/-- The counts of a live-table entry lie in the ranges of section 4.1. -/
def SlotEntry.inRange (e : SlotEntry) : Prop := e.silent ≤ 1023 ∧ e.mismatches ≤ 255

/-- The slot table has 24 entries, and 24 learned ones while learning, and 16 ages of at most 256 (section 4.1). -/
def SlotTable.inRange (t : SlotTable) : Prop :=
  t.live.length = 24 ∧ (∀ e ∈ t.live, e.inRange) ∧ t.heard.length = 16 ∧ (∀ age ∈ t.heard, age ≤ 256)
  ∧ ∀ L, t.learning = some L → L.table.length = 24

/-- At most 8 places of an in half are taken (R111). -/
def SendEntry.inRange (e : SendEntry) : Prop := e.places ≤ 8

/-- At most 8 items of an out half, and at most 16 gap runs (R150, R151). -/
def RecvEntry.inRange (e : RecvEntry) : Prop :=
  e.out.length ≤ 8 ∧ ∀ st, e.stream = some st → st.gaps.length ≤ 16

/-- The value of every port satisfies a property. -/
def PerPort.Every {α : Type} (P : α → Prop) (x : PerPort α) : Prop := P x.p0 ∧ P x.p1 ∧ P x.p2 ∧ P x.p3

/-- Every queue, count and table of the station is within the manual's bounds: the event queue (R183), the outgoing notice queue (R79), the
re-send queue (R126), the port FIFOs (R111, R150), the gap lists (R151), the timer, which has not passed a field event that has not occurred
(R3), the counts of the round clock (R12, R16), of the lane monitors and of the slot table. -/
def State.Bounded (s : State) : Prop :=
  s.mgmt.events.length ≤ 32 ∧ s.notices.queue.length ≤ 8 ∧ s.repair.queue.length ≤ 64
  ∧ s.clock.closed ≤ 28 ∧ s.clock.timer ≤ Config.eventAt s.clock.closed ∧ s.clock.capture ≤ 24999 ∧ s.clock.validCount ≤ 255
  ∧ s.clock.phase ≤ 100
  ∧ s.lanes.a.inRange ∧ s.lanes.b.inRange ∧ s.table.inRange
  ∧ s.send.Every SendEntry.inRange ∧ s.recv.Every RecvEntry.inRange

/-- The state that belongs to a station mode is present in that mode alone (section 9.1): the start-up round count in STARTING, the alone
count and the lock taken flag in LISTENING, dark rounds and return mode in DARK, the FAULTED reason in FAULTED, and learning in LISTENING or
RESYNC only (R66). -/
def State.ModeFields (s : State) : Prop :=
  (s.ctrl.startCount.isSome ↔ s.ctrl.mode = .starting)
  ∧ (s.ctrl.alone.isSome ↔ s.ctrl.mode = .listening) ∧ (s.ctrl.lockTaken.isSome ↔ s.ctrl.mode = .listening)
  ∧ (s.ctrl.darkRounds.isSome ↔ s.ctrl.mode = .dark) ∧ (s.ctrl.returnMode.isSome ↔ s.ctrl.mode = .dark)
  ∧ (s.ctrl.faultReason.isSome ↔ s.ctrl.mode = .faulted)
  ∧ (s.table.learning.isSome → s.ctrl.mode = .listening ∨ s.ctrl.mode = .resync)

/-- The buffers reserved by all streams of the station total at most 4096 (R106). -/
def State.StoreFits (s : State) : Prop := s.reserved ≤ 4096

/-- An outgoing notice queue holds no two notices of which one would duplicate the other, and at most one REPAIR_ASK
(R79, R153). -/
def queueDistinct (q : List Queued) : Prop :=
  q.Pairwise (fun x y => x.duplicates y = false) ∧ (q.filter (fun x => x.kind == .repairAsk)).length ≤ 1

/-- The `c` slots from slot `f` on are a maximal run of adjacent slots with the key `k` (R66, R75, R142, R167). -/
def MaximalRun {κ : Type} (key : Nat → Option κ) (f c : Nat) (k : κ) : Prop :=
  0 < c ∧ (∀ i, i < c → key (f + i) = some k) ∧ key (f + c) ≠ some k ∧ ∀ g, g + 1 = f → key g ≠ some k

/-- The run is a part of the run of `c` slots from slot `f`: parts of 12 from the lowest slot, the last the remainder (R75, R167). -/
def IsPart (f c : Nat) (r : Run) : Prop := ∃ j, 12 * j < c ∧ r = ⟨f + 12 * j, min 12 (c - 12 * j)⟩

/-- What a change of lane state leaves as it is while some enabled lane stays out of SURGE, so that the DARK condition neither begins nor
ends: everything but the lanes, the repair turn and the management port (R54, R132). -/
def State.LanesAside (u t : State) : Prop :=
  (∃ k, (u.lanes.get k).enabled = true ∧ (u.lanes.get k).state ≠ .surge ∧ (t.lanes.get k).state ≠ .surge) →
    t = { u with lanes := t.lanes, repair := { u.repair with turn := t.repair.turn }, mgmt := t.mgmt }

/-- The lane carries a drive of this station that a surge entry or a hold cuts: CONTENDING or DRIVING (R22, R46). -/
abbrev Lane.Drives (x : Lane) : Prop := x.drive = .contending ∨ x.drive = .driving

/-- The violation counter of a lane whose drive, if it carries one, a surge entry cuts and counts (R38, R46). -/
abbrev Lane.violationsCut (x : Lane) : Nat := if x.Drives then min 255 (x.violations + 1) else x.violations

/-- What an entry into SURGE makes of a lane: state and cause, the rounds in state, the continuation phase and both counts toward an exit
at 0, no use and no open mark reading any longer, an echo check owed that stands or begins with ECHO_LATE, and a drive in CONTENDING or
DRIVING cut (R14, R43, R44, R46, R49). -/
abbrev Lane.EntersSurge (cause : SurgeCause) (x y : Lane) : Prop :=
  y.state = .surge ∧ y.cause = some cause ∧ y.rounds = 0 ∧ y.contPhase = 0 ∧ y.quiet = 0 ∧ y.marks = 0
  ∧ y.admitted = false ∧ y.search = none ∧ y.echoOwed = (x.echoOwed || cause == .echoLate)
  ∧ y.drive = (if x.Drives then .cut else x.drive)

/-- What a reading makes of the dominant run of a lane (R41): a run that reaches back to the passive moment it shows has ended, a lane
dominant throughout has run for as long, a lane that rose has run since, and any other run stands. -/
abbrev Lane.Told (shown : LevelShown) (x y : Lane) : Prop :=
  (∀ n, shown = .passiveWithin n → n ≤ x.run → y.run = 0 ∧ y.dominant = false ∧ y.reported = .none)
  ∧ (∀ n, shown = .dominantFor n → x.state ≠ .off → x.run < n → y.run = min 50000 n ∧ y.dominant = decide (0 < n))
  ∧ (∀ n, shown = .risen n → x.state ≠ .off → y.run = (if n = x.run then x.run else min 50000 n) ∧ y.dominant = true)
  ∧ ((∀ n, shown = .passiveWithin n → x.run < n) → (∀ n, shown = .dominantFor n → x.state = .off ∨ n ≤ x.run) →
      (∀ n, shown = .risen n → x.state = .off) →
      y.run = x.run ∧ y.dominant = x.dominant ∧ y.reported = x.reported)

/-- What an entry of lane `l` into SURGE leaves of the rest of the station: LANE_CHANGED is given and SURGE latched, the repair turn lasts
while some lane is transmit-usable, the other lane stands but for a re-send that ends with the turn, and all else stands unless the DARK
condition begins (R44, R46, R54, R132). -/
abbrev State.SurgesOn (l : LaneId) (previous : LaneState) (cause : SurgeCause) (u t : State) : Prop :=
  t.mgmt.latched.surge = true ∧ State.LanesAside u t
  ∧ t.repair.turn = (u.repair.turn && (t.lanes.a.transmitUsable || t.lanes.b.transmitUsable))
  ∧ (t.repair.turn = u.repair.turn → t.lanes.get (otherLane l) = u.lanes.get (otherLane l))
  ∧ ((u.lanes.get (otherLane l)).enabled = true → (u.lanes.get (otherLane l)).state ≠ .surge →
      t.mgmt = (giveEvent (.laneChanged l previous .surge (some cause)) u).mgmt)

/-- The station takes requests: no reset holds and no transaction is open (R178). -/
abbrev State.TakesRequests (s : State) : Prop := s.holding = false ∧ s.mgmt.reply = none

end Sys2Proof.Machine

namespace Sys2Proof

/-- The command is a request frame (R178, R179): one of the eleven requests, or a kind that the station does not have. -/
def Instr.isRequest : Instr → Bool
  | .openSend _ _ _ _ => true
  | .openReceive _ _ _ _ => true
  | .close _ => true
  | .readStream _ => true
  | .readLanes => true
  | .readSlot _ => true
  | .readStation => true
  | .takeEvents _ => true
  | .setAlertMask _ => true
  | .clearAlert _ => true
  | .holdLane _ _ => true
  | .unknownRequestKind _ => true
  | _ => false

/-- The command may act while a reset holds: the three resets, the backup comparator, the release (R174, R175), and the end of a reply. -/
def Instr.actsInReset : Instr → Bool
  | .supplyReset => true
  | .backupSupplyLow => true
  | .powerOnReset => true
  | .pinReset => true
  | .resetRelease _ _ => true
  | .replyFrameSent => true
  | _ => false

end Sys2Proof
end

