-- ==== Sys2Proof/Certificates/Slice0/Obligations.lean ====
section
/-! DEFINITION. The statements of the package: what each command does to the station, what the round start, the notice exchange and
the slots do, and the invariants that every step keeps. Where a result comes after time has passed within the round, it is stated over
`reach r s`, the state at reading `r`, or over `atEvent k s`, the state at field event `k` of the round, which O2 to O4 describe. -/

open Sys2Proof Sys2Proof.Machine

/-! ### The queue of commands, and time -/

/-- A step with a command in front executes it on the state with the queue's rest. -/
def Obligations.StepRunsFrontCommand : Prop :=
  ∀ (c : Instr) (rest : List Instr) (s : State),
    step { s with pending := c :: rest } = exec c { s with pending := rest }

/-- With no command waiting a step passes one unit of time, or nothing while a reset holds (the model's choice, log 2). Time passes
up to the next field event of the round that has not occurred and up to the close of a window, 256 ticks after the one before it
(R1, R3, R37; that it waits there for the command is logs 2 and 3). Passing to a later reading moves the timer, the local time base
and the window counters, the run of a lane that was last read dominant counts on, or has ended if it outlives a report it would have
given (R41; log 4), and a reading of open search that has outlived its eight ticks is dropped (R14; log 46). Every other register of
the clock, the lane monitors, the echo measurement, the slot table, the streams, the repair service, the controller and the
management port stand (log 3). -/
def Obligations.TimePassesBetweenCommands : Prop :=
  (∀ s : State, s.pending = [] → s.holding = true → step s = .next s)
  ∧ (∀ s : State, s.pending = [] → s.holding = false → step s = .next (reach (s.clock.timer + 1) s))
  ∧ (Config.eventAt 0 = 800 ∧ Config.eventAt 1 = 1800 ∧ Config.eventAt 2 = 3500 ∧ Config.eventAt 3 = 5000
    ∧ (∀ n : Fin 24, Config.eventAt (n.val + 4) = 5800 + 800 * n.val) ∧ Config.eventAt 28 = 25000)
  ∧ (∀ (r : Nat) (s : State), r ≤ s.horizon ↔ r ≤ Config.eventAt s.clock.closed ∧ ∀ l : LaneId, (s.lanes.get l).state ≠ .off →
      r ≤ s.clock.timer + (100 * (256 - (s.lanes.get l).windowCounter) - s.clock.phase))
  ∧ (∀ (r : Nat) (s : State), s.horizon ≤ r → reach r s = reach s.horizon s)
  ∧ (∀ (r : Nat) (s : State), r ≤ s.clock.timer → reach r s = s)
  ∧ ∀ (r : Nat) (s : State), s.clock.timer < r → r ≤ s.horizon →
      let t := reach r s
      let d := r - s.clock.timer
      let base := s.clock.phase + d
      let due := fun (l : Lane) => l.state != .off && decide (256 ≤ l.windowCounter + base / 100)
      t.clock = { s.clock with timer := r, phase := if due s.lanes.a || due s.lanes.b then 100 else base % 100 }
      ∧ (∀ l : LaneId,
          let x := s.lanes.get l
          let y := t.lanes.get l
          let outlived := x.reported = .none ∧ 1200 < x.run + d ∨ x.reported = .long ∧ 50000 < x.run + d
          (x.state ≠ .off → y.windowCounter = min 255 (x.windowCounter + base / 100))
          ∧ (x.state = .off → y.windowCounter = x.windowCounter)
          ∧ (x.dominant = false → y.run = x.run ∧ y.dominant = false ∧ y.reported = x.reported)
          ∧ (x.dominant = true → ¬ outlived → y.run = min 50000 (x.run + d) ∧ y.dominant = true ∧ y.reported = x.reported)
          ∧ (x.dominant = true → outlived → y.run = 0 ∧ y.dominant = false ∧ y.reported = .none)
          ∧ y.search = x.search.filter (fun o => decide ((if o.crossed then o.carried + r else r - o.edge) ≤ 800))
          ∧ y.state = x.state ∧ y.cause = x.cause ∧ y.echoOwed = x.echoOwed ∧ y.violations = x.violations
          ∧ y.windowHeld = x.windowHeld ∧ y.quiet = x.quiet ∧ y.marks = x.marks ∧ y.rounds = x.rounds
          ∧ y.contPhase = x.contPhase ∧ y.echoDelay = x.echoDelay ∧ y.measuring = x.measuring ∧ y.hold = x.hold)
      ∧ t.pending = s.pending ∧ t.hold = s.hold ∧ t.table = s.table ∧ t.send = s.send ∧ t.repair = s.repair
      ∧ t.recv = s.recv ∧ t.ctrl = s.ctrl ∧ t.mgmt = s.mgmt

/-- The moments inside a round that no command marks, each where time passes it and no other (log 3; the moment before a command at
its reading: log 49). At 1518 a notice body has been sent on each lane still in DRIVING (R22, R28); the station's answer position is
driven on every lane that has been transmit-usable since the answer field began, and released after 100 units (R21, R93, R97; logs
47 and 57); at 3600 the repair lead-in begins, and a JOINED station with a re-send queued contends on every transmit-usable lane
with its head's priority and its own number (R25, R130; log 54); at the first symbol of a slot the block handed over is driven on
every lane that has been transmit-usable since the slot began, the station's own block in JOINED, a re-send during the repair turn
(R21, R116, R133; log 47). Between these moments drives and notices stand. A lane that is transmit-usable as a field begins may be
entered in it, until a surge entry or a hold keeps it out of the rest (R21, R30, R51, R52); for the fields that begin with a field
event, the answer field and the slots among them, FieldEventsOccurInOrder says which lanes those are. -/
def Obligations.MomentsInsideRoundDrive : Prop :=
  ∀ (r : Nat) (s : State), s.clock.timer < r → r ≤ s.horizon →
    let t := reach r s
    let from0 := s.clock.timer
    let passes := fun (m : Nat) => from0 < m ∧ m ≤ r
    let drives := fun (u : State) (l : LaneId) => (u.lanes.get l).drive
    let usable := s.lanes.a.transmitUsable || s.lanes.b.transmitUsable
    let entered := fun (l : LaneId) => (s.lanes.get l).admitted && (s.lanes.get l).transmitUsable
    let enters := entered .a || entered .b
    let station := s.ctrl.option.station
    let position := match s.notices.plan with
      | none => none
      | some .dissent => some 3400
      | some .accept => some (1800 + 100 * station.toNat)
      | some .rollCall => some (1800 + 100 * station.toNat)
    (passes 1518 → r ≤ 1800 →
      let answers := r = 1800 ∧ position = some 1800
      t.drive = (if answers ∧ enters then { s.drive with content := .accept } else s.drive)
      ∧ (∀ l, drives t l = (if answers ∧ entered l then .driving else drives s l))
      ∧ (∀ f, s.notices.flight = some f → s.drive.content = .noticeBody →
          t.notices = { s.notices with
            flight := some { f with sent := { a := drives s .a == .driving, b := drives s .b == .driving } } })
      ∧ (s.notices.flight = none ∨ s.drive.content ≠ .noticeBody → t.notices = s.notices))
    ∧ (∀ m, position = some m → 1518 ≤ from0 → passes m → r < m + 100 →
        t.notices = s.notices
        ∧ t.drive = { s.drive with
            content := if enters then (if m = 3400 then .dissent else .accept) else s.drive.content }
        ∧ ∀ l, drives t l = (if entered l then .driving else drives s l))
    ∧ (∀ m, position = some m → 1518 ≤ from0 → passes (m + 100) → r < 3600 →
        t.notices = s.notices ∧ t.drive = { s.drive with content := .none } ∧ ∀ l, drives t l = .notDriving)
    ∧ (3500 ≤ from0 → passes 3600 → r ≤ 5000 →
        let contends := s.ctrl.mode = .joined ∧ usable = true
        t.notices = s.notices
        ∧ (∀ l, (t.lanes.get l).contributing = (s.lanes.get l).receiveUsable
            ∧ (t.lanes.get l).admitted = (s.lanes.get l).transmitUsable)
        ∧ (∀ head rest, s.repair.queue = head :: rest → contends →
            t.drive = { content := .leadIn .repairWindow, leadIn := some (head.priority ++ station), lost := false,
                        handed := s.drive.handed, drove := none }
            ∧ ∀ l, drives t l = (if (s.lanes.get l).transmitUsable then .contending else .notDriving))
        ∧ (s.repair.queue = [] ∨ ¬ contends →
            t.drive = { content := .none, leadIn := none, lost := false, handed := s.drive.handed, drove := none }
            ∧ ∀ l, drives t l = .notDriving))
    ∧ (∀ n b, s.drive.handed = some (n, b) → 3600 ≤ from0 → passes (5100 + 800 * n) →
        let goes := if b.header.resend then s.repair.turn = true else s.ctrl.mode = .joined
        t.notices = s.notices
        ∧ (goes → t.drive = { s.drive with
              content := if enters then .block b else s.drive.content, drove := if enters then some b else none }
            ∧ ∀ l, drives t l = (if entered l then .driving else drives s l))
        ∧ (¬ goes → t.drive = s.drive ∧ ∀ l, drives t l = drives s l))
    ∧ (¬ passes 1518 → ¬ passes 3600 → (∀ m, position = some m → ¬ passes m ∧ ¬ passes (m + 100)) →
        (∀ n b, s.drive.handed = some (n, b) → ¬ passes (5100 + 800 * n)) →
        t.notices = s.notices ∧ t.drive = s.drive ∧ ∀ l, drives t l = drives s l)

/-- Each field event of a round occurs once, in order, at its reading (R3): a close or a pass that is not the next event, one that a
due window close precedes, and an expiry before the last pass change nothing (log 3), and one that is due leaves the timer at its
reading with the event counted. A new field begins with each close and each pass: the lanes that are receive-usable then contribute
to it, and those that are transmit-usable then may be entered in it (R21). A slot start acts only after the event before it and
before the timer moves on (log 42). A command that carries or implies a reading changes nothing when its reading has passed or when
a due command precedes it (log 3). -/
def Obligations.FieldEventsOccurInOrder : Prop :=
  ∀ s : State, s.holding = false →
    let nothing := fun (c : Instr) => exec c s = .next s
    let occurs := fun (c : Instr) (k : Nat) =>
      ∃ t, exec c s = .next t ∧ t.clock.timer = Config.eventAt k ∧ t.clock.closed = k + 1
        ∧ ∀ l : LaneId, (t.lanes.get l).contributing = (t.lanes.get l).receiveUsable
            ∧ (t.lanes.get l).admitted = (t.lanes.get l).transmitUsable
    let event := fun (c : Instr) (k : Nat) => (s.due k = true → occurs c k) ∧ (s.due k = false → nothing c)
    (∀ r, s.reaches r = true ↔ s.clock.timer ≤ r ∧ r ≤ s.horizon)
    ∧ (∀ k, s.due k = true ↔ s.clock.closed = k ∧ s.reaches (Config.eventAt k) = true)
    ∧ (∀ a b f, event (.markClose a b f) 0)
    ∧ (∀ a b order, order.admissible = true → event (.noticeWindowClose a b order) 1)
    ∧ (∀ a b f, event (.answerClose a b f) 2)
    ∧ (∀ a b, event (.repairWindowClose a b) 3)
    ∧ (∀ (n : Fin 24) a b order, passAdmissible order = true → event (.slotPass n a b order) (n.val + 4))
    ∧ (∀ order, order.admissible = true → s.due 28 = false → nothing (.roundTimerExpiry order))
    ∧ (∀ n : Fin 24, ¬ (s.clock.closed = n.val + 4 ∧ s.clock.timer = 5000 + 800 * n.val) → nothing (.slotStart n))
    ∧ (s.reaches 1500 = false → nothing (.seventhLeadInTick .noticeWindow))
    ∧ (s.reaches 4300 = false → nothing (.seventhLeadInTick .repairWindow))
    ∧ ∀ r, s.reaches r = false →
        (∀ l, nothing (.echoMismatch l r) ∧ nothing (.echoLate l r) ∧ nothing (.longRun l r) ∧ nothing (.heldRun l r))
        ∧ (∀ l v, nothing (.echoMeasurement l v r))
        ∧ (∀ l x y, nothing (.windowClose l x y r))
        ∧ (∀ l k, nothing (.codeViolation l k r))

/-! ### The management line -/

/-- Every command whose operands name an event of the manual completes in every state, and leaves the queue of commands that wait as
it is; one whose operands name none is the model's own safe fault (logs 5 and 6). While a reset holds, no command but the resets,
the backup comparator, the release and the end of a reply changes anything; while a reply is being sent, no request is taken (R174,
R178; logs 8 and 9). An unknown request kind is answered BAD_ARG, a discarded frame and an idle line change nothing, and the end of
the reply ends the transaction (R178, R194). -/
def Obligations.CommandsCompleteWhenTaken : Prop :=
  (∀ (c : Instr) (s : State),
    (c.wellFormed = true → ∃ t, exec c s = .next t ∧ t.pending = s.pending)
    ∧ (c.wellFormed = false → exec c s = .fault .illFormedCommand))
  ∧ (∀ (c : Instr) (s : State), s.holding = true → c.wellFormed = true → c.actsInReset = false → exec c s = .next s)
  ∧ (∀ (c : Instr) (s : State), s.holding = false → s.mgmt.reply ≠ none → c.isRequest = true → c.wellFormed = true →
      exec c s = .next s)
  ∧ (∀ (kind : Byte) (s : State), s.TakesRequests → (kind.toNat = 0 ∨ 11 < kind.toNat) →
      exec (.unknownRequestKind kind) s
        = .next { s with mgmt := { s.mgmt with reply := some { code := .badArg, content := .none } } })
  ∧ (∀ (flaw : FrameFlaw) (s : State), exec (.frameDiscarded flaw) s = .next s)
  ∧ (∀ s : State, exec .frameIdleTimeout s = .next s)
  ∧ (∀ s : State, exec .replyFrameSent s = .next { s with mgmt := { s.mgmt with reply := none } })

/-- OPEN_SEND: the first test that fails gives the reply, and the request changes nothing else: the mode, the ranges of the
arguments, the state of the entry, the room in the block store (R107); then, for a CLOSED entry, NO_SLOTS if the live table holds no
run of that many adjacent OPEN slots, and BUSY if the CLAIM is answered DUPLICATE or FULL (R108). -/
def Obligations.OpenSendTestedInOrder : Prop :=
  ∀ (port count cls priority : Byte) (s : State), s.TakesRequests →
    let answers := fun (c : ReplyCode) =>
      exec (.openSend port count cls priority) s
        = .next { s with mgmt := { s.mgmt with reply := some { code := c, content := .none } } }
    let inRange := port.toNat ≤ 3 ∧ 1 ≤ count.toNat ∧ count.toNat ≤ 12 ∧ cls.toNat ≤ 3
      ∧ 2 ≤ priority.toNat ∧ priority.toNat ≤ 5
    (s.ctrl.mode ≠ .joined → answers .notJoined)
    ∧ (s.ctrl.mode = .joined → ¬ inRange → answers .badArg)
    ∧ ∀ (p : Port) (c : RetClass), s.ctrl.mode = .joined → inRange → portOf port = some p → retClassOf cls = some c →
        ((s.send.get p).state ≠ .closed → (s.send.get p).state ≠ .held → answers .portTaken)
        ∧ ((s.send.get p).state = .closed ∨ (s.send.get p).state = .held → 4096 < s.reserved + c.size → answers .noRoom)
        ∧ ((s.send.get p).state = .closed → s.reserved + c.size ≤ 4096 →
            ((∀ f : Fin 24, f.val + count.toNat ≤ 24 → runOpen s.table.live ⟨f.val, count.toNat⟩ = false) → answers .noSlots)
            ∧ ((∃ f : Fin 24, f.val + count.toNat ≤ 24 ∧ runOpen s.table.live ⟨f.val, count.toNat⟩ = true) →
                ((∃ q ∈ s.notices.queue, q.kind = .claim ∧ q.tag = s.tagOf p) ∨ 8 ≤ s.notices.queue.length) →
                answers .busy))

/-- OPEN_SEND that passes its tests. A CLOSED entry with a run of OPEN slots and room in the queue: the CLAIM of the lowest all-OPEN
run of the count joins the queue behind the notices of its priority, the entry becomes CLAIMING with the next generation and next
sequence 0, its class is reserved, its in half is ready, and the reply is STARTED (R79, R105, R108, R111); that the CLAIM joins
ahead of a notice in flight of a higher priority value too is the model's choice (log 80). A HELD entry is adopted: LIVE at once
with the request's priority and class, its slot run, generation and next sequence kept, the ring empty, the held rounds absent, and
the reply DONE with the count of its slot run; the requested count is ignored (R109). -/
def Obligations.OpenSendTakesEntry : Prop :=
  ∀ (port count cls priority : Byte) (p : Port) (c : RetClass) (s : State), s.TakesRequests →
    s.ctrl.mode = .joined → portOf port = some p → retClassOf cls = some c → 1 ≤ count.toNat → count.toNat ≤ 12 →
    2 ≤ priority.toNat → priority.toNat ≤ 5 → s.reserved + c.size ≤ 4096 →
    let level := BitVec.ofNat 3 priority.toNat
    let done := fun (entry : SendEntry) (queue : List Queued) (r : Reply) =>
      ({ s with notices := { s.notices with queue := queue }, send := s.send.set p entry,
                mgmt := { s.mgmt with reply := some r } } : State)
    (∀ first : Fin 24, (s.send.get p).state = .closed →
        first.val + count.toNat ≤ 24 → runOpen s.table.live ⟨first.val, count.toNat⟩ = true →
        (∀ f : Fin 24, f < first → runOpen s.table.live ⟨f.val, count.toNat⟩ = false) →
        (∀ q ∈ s.notices.queue, q.kind = .claim → q.tag ≠ s.tagOf p) → s.notices.queue.length < 8 →
        let claim : Queued :=
          { kind := .claim, priority := level, tag := s.tagOf p, target := 0, first := BitVec.ofNat 16 first.val,
            count := BitVec.ofNat 5 count.toNat, origin := .send p, attempt := 1, queuedRound := some s.clock.round,
            inFlight := false, withdrawn := false, pending := false, lastSent := none }
        let before := fun (x : Queued) => decide (x.priority.toNat ≤ priority.toNat)
        let entry : SendEntry :=
          { state := .claiming, priority := some level, requested := some count.toNat,
            claimRun := some ⟨first.val, count.toNat⟩, slotRun := none, releasePath := none,
            gen := (s.send.get p).gen + 1, nextSeq := 0, cls := some c, ring := [], heldRounds := none, fifo := [],
            assembly := none, overrun := false, releaseDue := false, served := none }
        ∃ t, exec (.openSend port count cls priority) s = .next t
          ∧ t = done entry (s.notices.queue.takeWhile before ++ claim :: s.notices.queue.dropWhile before)
              { code := .started, content := .none }
          ∧ t.reserved = s.reserved + c.size ∧ t.ready p = true)
    ∧ ∀ run : Run, (s.send.get p).slotRun = some run → (s.send.get p).state = .held →
        ∃ t, exec (.openSend port count cls priority) s = .next t
          ∧ t = done
              { s.send.get p with state := .live, priority := some level, cls := some c, heldRounds := none, ring := [] }
              s.notices.queue { code := .done, content := .heldCount run.count }
          ∧ t.reserved = s.reserved + c.size

/-- OPEN_RECEIVE: the first test that fails gives the reply, and the request changes nothing else. One that passes opens the entry,
ACTIVE if the live table lists the tag and WAITING if not, not anchored, with an empty window, gap list and out half; its window
class is reserved, and the reply is DONE with the new state (R141). -/
def Obligations.OpenReceiveTestedAndOpened : Prop :=
  ∀ (port tag : Byte) (delay : BitVec 16) (cls : Byte) (s : State), s.TakesRequests →
    let answers := fun (c : ReplyCode) =>
      exec (.openReceive port tag delay cls) s
        = .next { s with mgmt := { s.mgmt with reply := some { code := c, content := .none } } }
    let inRange := port.toNat ≤ 3 ∧ tag.toNat ≤ 63 ∧ tag.toNat / 4 ≠ s.ctrl.option.station.toNat
      ∧ 16 ≤ delay.toNat ∧ delay.toNat ≤ 2047 ∧ cls.toNat ≤ 3
    (s.ctrl.mode ≠ .joined → answers .notJoined)
    ∧ (s.ctrl.mode = .joined → ¬ inRange → answers .badArg)
    ∧ ∀ (p : Port) (w : WinClass), s.ctrl.mode = .joined → inRange → portOf port = some p → winClassOf cls = some w →
        let owned := (s.table.live.filter (fun e => e.use.hasTag (BitVec.ofNat 6 tag.toNat))).length
        let k := if owned = 0 then 12 else owned
        ((s.recv.get p).stream ≠ none → answers .portTaken)
        ∧ ((s.recv.get p).stream = none → w.size < (delay.toNat + 1) * k → answers .badArg)
        ∧ ((s.recv.get p).stream = none → (delay.toNat + 1) * k ≤ w.size → 4096 < s.reserved + w.size → answers .noRoom)
        ∧ ((s.recv.get p).stream = none → (delay.toNat + 1) * k ≤ w.size → s.reserved + w.size ≤ 4096 →
            ∃ t, exec (.openReceive port tag delay cls) s = .next t
              ∧ t = { s with
                  recv := s.recv.set p
                    { stream := some { active := decide (0 < owned), tag := BitVec.ofNat 6 tag.toNat,
                                       delay := delay.toNat, cls := w, anchor := none, window := [], gaps := [] },
                      out := [], overflow := false }
                  mgmt := { s.mgmt with
                    reply := some { code := .done, content := .newState (if 0 < owned then .active else .waiting) } } }
              ∧ t.reserved = s.reserved + w.size)

/-- CLOSE of a send entry: an argument above 7 is BAD_ARG, a CLOSED entry NOT_OPEN, a RELEASING entry BUSY (R120, R179). A CLAIMING
entry whose CLAIM is not in flight loses it and is CLOSED at once; one whose CLAIM is in flight becomes RELEASING with the CLAIM
marked for withdrawal (R81, R120); in FAULTED too (the model's choice, log 52). A LIVE or HELD entry becomes RELEASING with its
release path and its in half discarded, and a RELEASE of its slot run is offered: QUEUED behind the notices of priority 0, or found
DUPLICATE, or FULL and then still due; the reply is STARTED (R80, R120). That DUPLICATE comes before FULL is the model's choice (log
7); so is that the RELEASE joins ahead of a notice in flight of a higher priority value too (log 80); that a LIVE entry whose slot
run is not taken yet offers its RELEASE at the next round start is DEDUCED (log 20). CLOSE of a receive entry: NOT_OPEN if it is
CLOSED; otherwise it becomes CLOSED with nothing handed to the port and no event, its REPAIR_ASK is withdrawn, marked if it is in
flight and removed if not, and the reply is DONE (R81, R158). -/
def Obligations.CloseEndsEntry : Prop :=
  ∀ (entry : Byte) (s : State), s.TakesRequests →
    let answers := fun (c : ReplyCode) (t : State) =>
      exec (.close entry) s = .next { t with mgmt := { t.mgmt with reply := some { code := c, content := .none } } }
    (7 < entry.toNat → answers .badArg s)
    ∧ (∀ p : Port, entryOf entry = some (.recv p) →
        let mine := fun (q : Queued) => q.kind == .repairAsk && q.origin == .recv p
        ((s.recv.get p).stream = none → answers .notOpen s)
        ∧ ((s.recv.get p).stream ≠ none → answers .done { s with
            notices := { s.notices with
              queue := (s.notices.queue.filter (fun q => !(mine q && !q.inFlight))).map
                (fun q => if mine q then { q with withdrawn := true } else q) }
            recv := s.recv.set p { stream := none, out := [], overflow := false } }))
    ∧ ∀ p : Port, entryOf entry = some (.send p) →
        let e := s.send.get p
        let mine := fun (q : Queued) => q.kind == .claim && q.origin == .send p
        let leaving := fun (path : ReleasePath) =>
          ({ e with state := .releasing, releasePath := some path, requested := none, heldRounds := none, fifo := [],
                    assembly := none, overrun := false } : SendEntry)
        let result := fun (path : ReleasePath) (queue : List Queued) (due : Bool) =>
          answers .started { s with
            notices := { s.notices with queue := queue }, send := s.send.set p { leaving path with releaseDue := due } }
        (e.state = .closed → answers .notOpen s)
        ∧ (e.state = .releasing → answers .busy s)
        ∧ (e.state = .claiming → (∀ q ∈ s.notices.queue, mine q = true → q.inFlight = false) →
            answers .done { s with
              notices := { s.notices with queue := s.notices.queue.filter (fun q => !mine q) }
              repair := { s.repair with queue := s.repair.queue.filter (fun r => r.tag != s.tagOf p) }
              send := s.send.set p { SendEntry.reset with gen := e.gen, nextSeq := e.nextSeq } })
        ∧ (e.state = .claiming → (∃ q ∈ s.notices.queue, mine q = true ∧ q.inFlight = true) →
            answers .started { s with
              notices := { s.notices with
                queue := s.notices.queue.map (fun q => if mine q then { q with withdrawn := true } else q) }
              send := s.send.set p (leaving .fromClaim) })
        ∧ ∀ path : ReleasePath, (e.state = .live ∧ path = .fromLive ∨ e.state = .held ∧ path = .fromHeld) →
            (e.slotRun = none → result path s.notices.queue true)
            ∧ ∀ run : Run, e.slotRun = some run →
                let q := releaseNotice (.send p) (s.tagOf p) run
                let duplicate :=
                  ∃ x ∈ s.notices.queue, x.kind = .release ∧ x.tag = q.tag ∧ x.first = q.first ∧ x.count = q.count
                (duplicate → result path s.notices.queue false)
                ∧ (¬ duplicate → 8 ≤ s.notices.queue.length → result path s.notices.queue true)
                ∧ (¬ duplicate → s.notices.queue.length < 8 →
                    result path (s.notices.queue.takeWhile (fun x => x.priority == 0) ++ q
                      :: s.notices.queue.dropWhile (fun x => x.priority == 0)) false)

/-- The read requests change nothing but the reply, which carries the record as it stands at that moment: the two lane records
(R180), the slot record or BAD_ARG above the table (R76), the send or receive entry's record field by field (R124, R160) or BAD_ARG
above 7, the station record with the alert line (R181). -/
def Obligations.ReadRequestsReportState : Prop :=
  ∀ s : State, s.TakesRequests →
    let answers := fun (c : ReplyCode) (x : ReplyContent) =>
      (.next { s with mgmt := { s.mgmt with reply := some { code := c, content := x } } } : Host.Outcome State Fault Refusal)
    let lane := fun (id : LaneId) (l : Lane) =>
      ({ lane := id, state := l.state, cause := l.cause, echoDelay := l.echoDelay, hold := l.hold, rounds := l.rounds }
        : LaneRecord)
    let sent := fun (p : Port) (e : SendEntry) =>
      let buffers := match e.cls with
        | some c => c.size
        | none => 0
      let retains := e.state == .live || e.state == .releasing
      ({ port := p, state := e.state, tag := BitVec.ofNat 6 (s.ctrl.option.station.toNat * 4 + portNumber p),
         priority := e.priority, cls := e.cls, requested := e.requested, claimRun := e.claimRun, slotRun := e.slotRun,
         releasePath := e.releasePath, gen := e.gen, nextSeq := e.nextSeq,
         reservation := match e.state with
           | .closed => none
           | .held => none
           | .claiming => some buffers
           | .live => some buffers
           | .releasing => some (if e.releasePath = some .fromHeld then 0 else buffers)
         retained := if retains then some e.ring.length else none
         oldest := if retains then e.ring.head?.map (fun r => r.seq) else none
         heldRounds := e.heldRounds, places := e.fifo.length + (if e.assembly.isSome then 1 else 0)
         byteCounter := match e.assembly with
           | none => 0
           | some a => a.length - a.payload.length } : SendRecord)
    let received := fun (p : Port) (e : RecvEntry) =>
      match e.stream with
      | none =>
        ({ port := p, state := .closed, tag := none, delay := none, cls := none, reservation := none, anchored := none,
           gen := none, nextExpected := none, nextPlayout := none, depth := none, heldCount := none, missingCount := none,
           gaps := none, items := e.out.length, overflow := e.overflow } : RecvRecord)
      | some st =>
        let open_ : RecvRecord :=
          { port := p, state := if st.active then .active else .waiting, tag := some st.tag, delay := some st.delay,
            cls := some st.cls, reservation := some st.cls.size, anchored := some false, gen := none,
            nextExpected := none, nextPlayout := none, depth := none, heldCount := none, missingCount := none,
            gaps := some st.gaps, items := e.out.length, overflow := e.overflow }
        match st.anchor with
        | none => open_
        | some a =>
          { open_ with
            anchored := some true, gen := some a.gen, nextPlayout := some a.nextPlayout
            nextExpected := some (a.nextPlayout + BitVec.ofNat 16 st.window.length), depth := some st.window.length
            heldCount := some (st.window.filter (fun pl => pl.block.isSome)).length
            missingCount := some (st.window.filter (fun pl => pl.block.isNone)).length }
    exec .readLanes s = answers .done (.lanes (lane .a s.lanes.a) (lane .b s.lanes.b))
    ∧ (∀ (n : Byte) (e : SlotEntry), s.table.live[n.toNat]? = some e →
        exec (.readSlot n) s = answers .done (.slot { slot := n.toNat, entry := e, epoch := s.table.epoch }))
    ∧ (∀ n : Byte, s.table.live.length ≤ n.toNat → exec (.readSlot n) s = answers .badArg .none)
    ∧ (∀ (n : Byte) (p : Port), entryOf n = some (.send p) →
        exec (.readStream n) s = answers .done (.send (sent p (s.send.get p))))
    ∧ (∀ (n : Byte) (p : Port), entryOf n = some (.recv p) →
        exec (.readStream n) s = answers .done (.recv (received p (s.recv.get p))))
    ∧ (∀ n : Byte, 7 < n.toNat → exec (.readStream n) s = answers .badArg .none)
    ∧ exec .readStation s = answers .done (.station
        { mode := s.ctrl.mode, station := s.ctrl.option.station, epoch := s.table.epoch, pacing := s.clock.pacing,
          capture := s.clock.capture, heard := s.table.heard, valid := s.ctrl.context.valid, supply := s.ctrl.supply,
          faultReason := s.ctrl.faultReason, latched := s.mgmt.latched, mask := s.mgmt.mask, alertLine := s.alertLine })

/-- TAKE_EVENTS removes the oldest records, up to the named number, and replies DONE with them, the overrun flag as it stood and the
number left; the flag is then cleared (R184). SET_ALERT_MASK: EVENTS, SURGE, LOSS and FAULT become masked as named, SUPPLY never; no
latch and no record changes, the alert line takes its new level at once, and the reply is DONE (R186). CLEAR_ALERT: each named cause
among SURGE, LOSS, SUPPLY and FAULT becomes clear, the others stand; an EVENTS named has no effect, the records stay in the queue,
and the reply is DONE (R187). -/
def Obligations.EventAndAlertRequestsServed : Prop :=
  (∀ (n : Byte) (s : State), s.TakesRequests →
    (1 ≤ n.toNat → n.toNat ≤ 8 →
      exec (.takeEvents n) s = .next { s with mgmt := { s.mgmt with
        events := s.mgmt.events.drop n.toNat
        overrun := false
        reply := some
          { code := .done
            content := .events (s.mgmt.events.take n.toNat) s.mgmt.overrun (s.mgmt.events.length - n.toNat) } } })
    ∧ ((n.toNat = 0 ∨ 8 < n.toNat) →
      exec (.takeEvents n) s
        = .next { s with mgmt := { s.mgmt with reply := some { code := .badArg, content := .none } } }))
  ∧ (∀ (causes : Byte) (s : State), s.TakesRequests →
    let mask : Causes :=
      { events := causes.getLsbD 0, surge := causes.getLsbD 1, loss := causes.getLsbD 2, supply := false,
        fault := causes.getLsbD 4 }
    let done : Option Reply := some { code := .done, content := .none }
    (∃ t, exec (.setAlertMask causes) s = .next t
      ∧ t = { s with mgmt := { s.mgmt with mask := mask, reply := done } }
      ∧ (t.alertLine = true ↔
          (s.mgmt.events ≠ [] ∧ mask.events = false) ∨ (s.mgmt.latched.surge = true ∧ mask.surge = false)
          ∨ (s.mgmt.latched.loss = true ∧ mask.loss = false) ∨ (s.mgmt.latched.fault = true ∧ mask.fault = false)
          ∨ s.mgmt.latched.supply = true))
    ∧ exec (.clearAlert causes) s = .next { s with mgmt := { s.mgmt with
        latched :=
          { events := s.mgmt.latched.events
            surge := s.mgmt.latched.surge && !causes.getLsbD 1
            loss := s.mgmt.latched.loss && !causes.getLsbD 2
            supply := s.mgmt.latched.supply && !causes.getLsbD 3
            fault := s.mgmt.latched.fault && !causes.getLsbD 4 }
        reply := done } })

/-- HOLD_LANE: off only clears the hold; on sets it, cuts a field or mark being driven there, uncounted, and keeps the lane out of
the rest of the field, whether the hold goes off within it or not (log 47), and a repair turn that is left with no transmit-usable
lane ends, with a re-send being driven cut on every lane; arguments above 1 are BAD_ARG (R30, R132, R179). A mark that the hold cuts
before its eighth tick is ERASED on that lane (R11); that the eighth tick, passive, ends no driving is DEDUCED (log 39). -/
def Obligations.HoldLaneSetsHold : Prop :=
  ∀ (lane hold : Byte) (s : State), s.TakesRequests →
    let done : Option Reply := some { code := .done, content := .none }
    ((1 < lane.toNat ∨ 1 < hold.toNat) →
      exec (.holdLane lane hold) s
        = .next { s with mgmt := { s.mgmt with reply := some { code := .badArg, content := .none } } })
    ∧ ∀ l : LaneId, laneOf lane = some l →
        let x := s.lanes.get l
        (hold.toNat = 0 →
          exec (.holdLane lane hold) s = .next { s with
            lanes := s.lanes.set l { x with hold := false }
            mgmt := { s.mgmt with reply := done } })
        ∧ (hold.toNat = 1 →
            let breaks := s.drive.content == .mark && x.drive == .driving && decide (s.clock.timer < 700)
            let cut := fun (y : Lane) =>
              if y.drive == .contending || y.drive == .driving then { y with drive := .cut } else y
            let lanes := s.lanes.set l { cut x with hold := true, admitted := false, markSpoiled := x.markSpoiled || breaks }
            (s.repair.turn = false ∨ lanes.a.transmitUsable = true ∨ lanes.b.transmitUsable = true →
              exec (.holdLane lane hold) s = .next { s with lanes := lanes, mgmt := { s.mgmt with reply := done } })
            ∧ (s.repair.turn = true → lanes.a.transmitUsable = false → lanes.b.transmitUsable = false →
              exec (.holdLane lane hold) s = .next { s with
                lanes := if s.drive.content.isResend then lanes.map cut else lanes
                repair := { s.repair with turn := false }
                mgmt := { s.mgmt with reply := done } }))

/-! ### Events, alert, supply and resets -/

/-- An event given joins the tail of the queue with the low 16 bits of the round number; a queue of 32 loses its oldest record and
sets the overrun flag; an entry into SURGE latches SURGE, BLOCKS_LOST latches LOSS, SUPPLY_WARN latches SUPPLY and FAULT latches
FAULT; nothing else changes (R182, R183, R185). The alert line is asserted exactly while no reset holds and some active cause is
enabled or SUPPLY is latched; at a release it takes the level that the release yields: asserted if the supply does not stand above
the warn rising threshold (R188). -/
def Obligations.GivenEventsDriveAlertLine : Prop :=
  (∀ (e : Event) (s : State),
    let record : EventRecord := { round := s.clock.round.setWidth 16, event := e }
    let full := decide (32 ≤ s.mgmt.events.length)
    giveEvent e s = { s with mgmt := { s.mgmt with
      events := (if full then s.mgmt.events.tail else s.mgmt.events) ++ [record]
      overrun := s.mgmt.overrun || full
      latched :=
        { events := s.mgmt.latched.events
          surge := s.mgmt.latched.surge || (match e with
            | .laneChanged _ previous new _ => new == .surge && previous != .surge
            | _ => false)
          loss := s.mgmt.latched.loss || (match e with
            | .blocksLost _ _ _ _ => true
            | _ => false)
          supply := s.mgmt.latched.supply || (match e with
            | .supplyWarn => true
            | _ => false)
          fault := s.mgmt.latched.fault || (match e with
            | .fault _ => true
            | _ => false) } } })
  ∧ (∀ s : State, s.alertLine = true ↔
    s.holding = false ∧
      ((s.mgmt.events ≠ [] ∧ s.mgmt.mask.events = false) ∨ (s.mgmt.latched.surge = true ∧ s.mgmt.mask.surge = false)
      ∨ (s.mgmt.latched.loss = true ∧ s.mgmt.mask.loss = false) ∨ (s.mgmt.latched.fault = true ∧ s.mgmt.mask.fault = false)
      ∨ s.mgmt.latched.supply = true))
  ∧ ∀ (straps : BitVec 10) (above : Bool) (s : State), s.holding = true →
      ∃ t, exec (.resetRelease straps above) s = .next t ∧ t.alertLine = !above

/-- Each of the three resets holds, releases every drive, and clears the round clock, the lanes, the slot table, the notice engine,
the send entries, the repair service, the receive entries and the management port (R18, R22, R30, R35, R77, R104, R125, R138, R161,
R174, R189); lane state as R55 from the option word that stands. A supply reset keeps the retained context whole, a pin reset keeps
its records and clears the validity, a power-on reset leaves no record with validity and freeze clear; a low backup supply clears
the validity while a supply reset holds, whichever of the two supplies fell first (R174, R175); that the release of a supply reset
ends what was told of the backup supply is the model's choice (log 68). That the option word stands at a supply reset and at a pin
reset is DEDUCED (log 29). RESET_RELEASE: the straps become the option word, the mode is STARTING with start-up count 0 and every
other count, the orphan list and the FAULTED reason absent, the lanes are CLEAR or OFF, a context of another station loses its
validity, and the supply state, the freeze flag and the SUPPLY alert follow the main supply (R36, R163, R175); with no reset holding
nothing changes (the model's choice, log 9). The supply monitor: OK to WARN gives SUPPLY_WARN and sets the freeze flag, WARN to OK
gives SUPPLY_OK and clears it; a threshold passed in the state it leads to changes nothing (R173). -/
def Obligations.ResetsReleaseAndSupply : Prop :=
  (∀ s : State,
    let cleared := fun (t : State) =>
      t.holding = true ∧ t.pending = s.pending ∧ t.alertLine = false
      ∧ t.clock = { timer := 0, round := 0, capture := 0, pacing := false, validCount := 0, closed := 0, lateWindow := false,
                    edgeTaken := false, drove := false, phase := 0 }
      ∧ (∀ l : LaneId, t.lanes.get l =
          { state := if (match l with
              | .a => t.ctrl.option.laneA
              | .b => t.ctrl.option.laneB) then .clear else .off
            cause := none, echoOwed := false, windowCounter := 0, violations := 0, windowHeld := false, run := 0,
            dominant := false, reported := .none, quiet := 0, marks := 0, rounds := 0, contPhase := 0, drive := .notDriving,
            echoDelay := 0, measuring := false, hold := false, contributing := false, admitted := false, usableSince := none,
            lostAt := none, cutAt := none, drove := false, fieldFlaw := false, guardFlaw := false, markSpoiled := false, search := none })
      ∧ t.drive = { content := .none, leadIn := none, lost := false, handed := none, drove := none }
      ∧ t.table.live = List.replicate 24
          { use := .unknown, silent := 0, lastValid := false, reclaim := false, mismatches := 0, lastMismatch := none }
      ∧ t.table.epoch = 0 ∧ t.table.heard = List.replicate 16 256 ∧ t.table.learning = none
      ∧ t.notices = { queue := [], flight := none, plan := none, rollCall := false, tentative := none, lastAnswer := none,
                      sentNotice := false }
      ∧ (∀ p : Port, t.send.get p =
          { state := .closed, priority := none, requested := none, claimRun := none, slotRun := none, releasePath := none,
            gen := 0, nextSeq := 0, cls := none, ring := [], heldRounds := none, fifo := [], assembly := none,
            overrun := false, releaseDue := false, served := none })
      ∧ t.repair = { queue := [], turn := false }
      ∧ (∀ p : Port, t.recv.get p = { stream := none, out := [], overflow := false })
      ∧ t.mgmt = { events := [], overrun := false, latched := ⟨false, false, false, false, false⟩,
                   mask := ⟨false, false, false, false, false⟩, reply := none }
    (∃ t, exec .supplyReset s = .next t ∧ cleared t ∧ t.hold = { s.hold with supply := true }
      ∧ t.ctrl.context = (if s.hold.backupLow then { s.ctrl.context with valid := false } else s.ctrl.context)
      ∧ t.ctrl.option = s.ctrl.option)
    ∧ (∃ t, exec .pinReset s = .next t ∧ cleared t ∧ t.hold = { s.hold with pin := true }
      ∧ t.ctrl.context = { s.ctrl.context with valid := false } ∧ t.ctrl.option = s.ctrl.option)
    ∧ (∃ t, exec .powerOnReset s = .next t ∧ cleared t
      ∧ t.hold = { powerOn := true, pin := false, supply := false, backupLow := false } ∧ t.ctrl.context.records = []
      ∧ t.ctrl.context.valid = false ∧ t.ctrl.context.frozen = false)
    ∧ (s.hold.supply = true →
      exec .backupSupplyLow s
        = .next { s with
            hold := { s.hold with backupLow := true }
            ctrl := { s.ctrl with context := { s.ctrl.context with valid := false } } })
    ∧ (s.hold.supply = false → exec .backupSupplyLow s = .next { s with hold := { s.hold with backupLow := true } }))
  ∧ (∀ (straps : BitVec 10) (above : Bool) (s : State),
    let become := fun (state : Supply) (frozen : Bool) =>
      ({ s with ctrl := { s.ctrl with supply := state, context := { s.ctrl.context with frozen := frozen } } } : State)
    (s.holding = false →
      exec (.resetRelease straps above) s = .next s
      ∧ (s.ctrl.supply = .ok → exec .supplyWarn s = .next (giveEvent .supplyWarn (become .warn true)))
      ∧ (s.ctrl.supply = .warn → exec .supplyOk s = .next (giveEvent .supplyOk (become .ok false)))
      ∧ (s.ctrl.supply = .warn → exec .supplyWarn s = .next s)
      ∧ (s.ctrl.supply = .ok → exec .supplyOk s = .next s))
    ∧ (s.holding = true →
      ∃ t, exec (.resetRelease straps above) s = .next t ∧ t.holding = false ∧ t.pending = s.pending
        ∧ t.hold.backupLow = (s.hold.backupLow && !s.hold.supply)
        ∧ t.ctrl.option = { station := straps.extractLsb' 0 4, laneA := straps.getLsbD 4, laneB := straps.getLsbD 5,
                            policy := if straps.getLsbD 6 then .fault else .arb, pacing := straps.getLsbD 7,
                            chatter := straps.extractLsb' 8 2 }
        ∧ t.ctrl.mode = .starting ∧ t.ctrl.startCount = some 0 ∧ t.ctrl.alone = none ∧ t.ctrl.lockTaken = none
        ∧ t.ctrl.darkRounds = none ∧ t.ctrl.returnMode = none ∧ t.ctrl.orphans = [] ∧ t.ctrl.faultReason = none
        ∧ t.ctrl.context = { s.ctrl.context with
            valid := s.ctrl.context.valid && (s.ctrl.context.station == straps.extractLsb' 0 4), frozen := !above }
        ∧ t.ctrl.supply = (if above then .ok else .warn)
        ∧ t.lanes.a.state = (if straps.getLsbD 4 then .clear else .off)
        ∧ t.lanes.b.state = (if straps.getLsbD 5 then .clear else .off)
        ∧ t.mgmt.events = (if above then [] else [{ round := 0, event := .supplyWarn }])
        ∧ t.mgmt.latched = ⟨false, false, false, !above, false⟩
        ∧ t.clock.timer = 0 ∧ t.clock.round = 0 ∧ t.clock.closed = 0))

/-! ### The block ports -/

/-- A length word: refused with no effect while the ready line is low; 0 or above 256 is discarded with PORT_ERROR; any other opens
a block, and a word during an assembly discards the partial block with PORT_ERROR (R111, R113; log 15 for a word during an assembly
that fills the last place). A data byte: with the entry neither CLAIMING nor LIVE none is taken; it joins the block being assembled,
and the last byte completes the block with its 32-bit check; with no block being assembled it is discarded, and the first of a run
gives PORT_ERROR (R112, R113); that a byte joins its block in FAULTED too is DEDUCED (log 27). The oldest item of the out half is
taken and its place becomes free (R150). -/
def Obligations.BlockPortsTakeAndGive : Prop :=
  ∀ (p : Port) (s : State), s.holding = false →
    let e := s.send.get p
    let taken := e.state = .claiming ∨ e.state = .live
    (s.ready p = true ↔ taken ∧ e.fifo.length + (if e.assembly.isSome then 1 else 0) < 8 ∧ s.ctrl.mode ≠ .faulted)
    ∧ (∀ value : Nat,
        let opened := { s with
          send := s.send.set p { e with assembly := some { length := value, payload := [] }, overrun := false } }
        (s.ready p = false → exec (.lengthWord p value) s = .next s)
        ∧ (s.ready p = true → (value = 0 ∨ 256 < value) →
            exec (.lengthWord p value) s = .next (giveEvent (.sendPortError p .badLength) s))
        ∧ (s.ready p = true → 1 ≤ value → value ≤ 256 → e.assembly = none → exec (.lengthWord p value) s = .next opened)
        ∧ (s.ready p = true → 1 ≤ value → value ≤ 256 → e.assembly ≠ none →
            exec (.lengthWord p value) s = .next (giveEvent (.sendPortError p .lengthInAssembly) opened)))
    ∧ (∀ byte : Byte,
        (¬ taken → exec (.dataByte p byte) s = .next s)
        ∧ (∀ a, e.assembly = some a → taken → a.payload.length + 1 < a.length →
            exec (.dataByte p byte) s = .next { s with
              send := s.send.set p { e with assembly := some { a with payload := a.payload ++ [byte] } } })
        ∧ (∀ a, e.assembly = some a → taken → a.length ≤ a.payload.length + 1 →
            exec (.dataByte p byte) s = .next { s with
              send := s.send.set p
                { e with
                  assembly := none
                  fifo := e.fifo ++ [{ payload := a.payload ++ [byte], check := check32 (a.payload ++ [byte]) }] } })
        ∧ (taken → e.assembly = none → e.overrun = true → exec (.dataByte p byte) s = .next s)
        ∧ (taken → e.assembly = none → e.overrun = false →
            exec (.dataByte p byte) s
              = .next (giveEvent (.sendPortError p .overrun) { s with send := s.send.set p { e with overrun := true } })))
    ∧ exec (.outHalfItemTaken p) s
        = .next { s with recv := s.recv.set p { s.recv.get p with out := (s.recv.get p).out.tail } }

/-! ### The round clock -/

/-- A local round starts at expiry, every field event of the round having occurred (R1, R3, R9): the round number advances, the
timer restarts, the repair turn ends, every heard age below 256 advances (R65), and the station drives the mark on its drivable
lanes exactly if it has the pacing permit (R7; log 35) and the pacing flag and no open-search reading is open; otherwise the flag is
cleared and the late window opens, unless a reading is open (log 13; a reading whose eighth tick ends at expiry is still open: log
46). A candidate edge in the early window, on a receive-usable lane of a searching clock, starts a local round at the edge: the
capture value is its reading, the pacing flag is cleared, the count of valid marks stands, nothing is driven, and the lane reads
dominant from there (R5, R6, R7, R8, R41); any other edge changes nothing. That one whose reading has passed does so is the model's
choice (log 34). -/
def Obligations.RoundStartsAtExpiryOrEdge : Prop :=
  ∀ (order : RoundOrder) (s : State), s.holding = false → order.admissible = true →
    let starts := fun (t : State) =>
      t.clock.round = s.clock.round + 1 ∧ t.clock.timer = 0 ∧ t.clock.closed = 0
      ∧ t.clock.validCount = s.clock.validCount ∧ t.repair.turn = false
      ∧ t.table.heard = s.table.heard.map (fun age => min 256 (age + 1)) ∧ t.hold = s.hold ∧ t.pending = s.pending
    (s.due 28 = true →
      let u := reach 25000 s
      let readingOpen := u.lanes.a.search.isSome || u.lanes.b.search.isSome
      ∃ t, exec (.roundTimerExpiry order) s = .next t ∧
        let drives := t.ctrl.option.pacing && (t.ctrl.mode == .joined || t.ctrl.mode == .resync) && s.clock.pacing
          && !readingOpen && (t.lanes.a.drivable || t.lanes.b.drivable)
        starts t ∧ t.clock.capture = s.clock.capture ∧ t.clock.edgeTaken = false
        ∧ t.clock.pacing = drives ∧ t.clock.drove = drives ∧ t.clock.lateWindow = (!drives && !readingOpen)
        ∧ (∀ l : LaneId, (t.lanes.get l).drive = if drives && (t.lanes.get l).drivable then .driving else .notDriving)
        ∧ t.drive.content = (if drives then .mark else .none))
    ∧ ∀ (l : LaneId) (r : Nat),
      let accepted := s.ctrl.mode ≠ .starting ∧ (s.lanes.get l).receiveUsable = true ∧ 24800 ≤ r ∧ r ≤ 24999
        ∧ s.reaches r = true
      (¬ accepted → exec (.earlyWindowEdge l r order) s = .next s)
      ∧ (accepted →
        ∃ t, exec (.earlyWindowEdge l r order) s = .next t
          ∧ starts t ∧ t.clock.capture = r ∧ t.clock.pacing = false ∧ t.clock.lateWindow = false
          ∧ t.clock.edgeTaken = true ∧ t.clock.drove = false ∧ (∀ k : LaneId, (t.lanes.get k).drive = .notDriving)
          ∧ t.drive.content = .none ∧ (t.lanes.get l).dominant = true ∧ (t.lanes.get l).run = 0)

/-- An edge in the late window realigns the timer to 0 at the edge without a round start: the capture value is its reading (739 for
an edge at the deferral point of station 15, log 33), the pacing flag is cleared, the late window ends (log 74), the lane reads
dominant from there, and a new mark field begins; any other edge changes nothing (R6, R7, R10, R41; an edge whose reading has
passed: log 34). At the deferral point the late window closes; with the pacing permit (R7; log 35) and a drivable lane the timer
realigns to 0, the mark is driven on every drivable lane and the pacing flag is set; without them nothing is driven; with no late
window nothing happens (R10). -/
def Obligations.LateWindowRealignsTimer : Prop :=
  ∀ s : State, s.holding = false →
    let point := 200 + 36 * s.ctrl.option.station.toNat
    (∀ (l : LaneId) (r : Nat),
      let accepted := s.clock.lateWindow = true ∧ s.ctrl.mode ≠ .starting ∧ (s.lanes.get l).receiveUsable = true
        ∧ r ≤ point ∧ s.reaches r = true
      let u := reach r s
      (¬ accepted → exec (.lateWindowEdge l r) s = .next s)
      ∧ (accepted → exec (.lateWindowEdge l r) s = .next (beginField 0 { u with
          lanes := u.lanes.set l { u.lanes.get l with run := 0, dominant := true, reported := .none }
          clock := { u.clock with
            timer := 0, capture := min 739 r, pacing := false, lateWindow := false, edgeTaken := true } })))
    ∧ (let u := reach point s
      let comes := s.clock.lateWindow = true ∧ s.reaches point = true
      let drives := s.ctrl.option.pacing = true ∧ (s.ctrl.mode = .joined ∨ s.ctrl.mode = .resync)
        ∧ (s.lanes.a.drivable = true ∨ s.lanes.b.drivable = true)
      (¬ comes → exec .deferralPoint s = .next s)
      ∧ (comes → ¬ drives → exec .deferralPoint s = .next { u with clock := { u.clock with lateWindow := false } })
      ∧ (comes → drives →
          ∃ t, exec .deferralPoint s = .next t
            ∧ t.clock = { u.clock with timer := 0, lateWindow := false, pacing := true, drove := true }
            ∧ (∀ l : LaneId, (t.lanes.get l).drive = if (s.lanes.get l).drivable then .driving else .notDriving)
            ∧ (∀ l : LaneId, (t.lanes.get l).state = (s.lanes.get l).state) ∧ t.drive.content = .mark
            ∧ t.pending = s.pending ∧ t.hold = s.hold ∧ t.table = s.table ∧ t.notices = u.notices ∧ t.send = s.send
            ∧ t.repair = s.repair ∧ t.recv = s.recv ∧ t.ctrl = s.ctrl ∧ t.mgmt = s.mgmt))

/-- Open search: with the count of valid marks 0, an edge on a receive-usable lane that was passive for 800 units or more, outside
the early and late windows, opens a reading on a lane that has none then, an earlier one having ended (log 46 for one that ends at
the edge itself); any other edge opens none (R14; an edge whose reading has passed: log 34). A reading that completes VALID is
adopted, eight ticks after its edge: the timer is set to 800 with its mark close taken, the capture value to the reading at its
edge, the pacing flag is cleared, a valid mark is counted and every reading closes; a round starts with it, the heard ages advance
and the answer plan, the tentative change and the repair turn of the round cut short are dropped, unless a round has started since
the edge (R14, R15, R65; log 12 for what that round settles first). The copy of the other lane, if a reading is open there, is
judged by its ticks alone (R5; log 43), and in SETTLING counts as the mark copies of R50 do. The adopted mark ends a dominant run of
its lane that reaches back to its eighth tick, and the reading of the other lane tells of its run from its own edge on (R41; log 4).
Without a reading, or at another moment, nothing happens (log 3; that the count of valid marks is not tested again is log 56). -/
def Obligations.OpenSearchReadsAndAdopts : Prop :=
  ∀ (l : LaneId) (s : State), s.holding = false →
    (∀ (r passiveFor : Nat),
      let accepted := s.clock.validCount = 0 ∧ s.ctrl.mode ≠ .starting ∧ (s.lanes.get l).receiveUsable = true
        ∧ r < 24800 ∧ s.reaches r = true ∧ 800 ≤ passiveFor
        ∧ ¬ (s.clock.lateWindow = true ∧ r ≤ 200 + 36 * s.ctrl.option.station.toNat)
        ∧ ((reach r s).lanes.get l).search = none
      let u := reach r s
      (¬ accepted → exec (.openSearchEdge l r passiveFor) s = .next s)
      ∧ (accepted → exec (.openSearchEdge l r passiveFor) s = .next { u with
          lanes := u.lanes.set l { u.lanes.get l with
            run := 0, dominant := true, reported := .none, search := some { edge := r, carried := 0, crossed := false } } }))
    ∧ ∀ (second : MarkReading) (leadInFirst : Bool) (order : RoundOrder), order.admissible = true →
      ((s.lanes.get l).search = none → exec (.openSearchAdoption l second leadInFirst order) s = .next s)
      ∧ ∀ x : Search, (s.lanes.get l).search = some x →
        let ends := if x.crossed then 800 - x.carried else x.edge + 800
        (s.reaches ends = false → exec (.openSearchAdoption l second leadInFirst order) s = .next s)
        ∧ (s.reaches ends = true →
          ∃ t, exec (.openSearchAdoption l second leadInFirst order) s = .next t
            ∧ t.clock.timer = 800 ∧ t.clock.closed = 1 ∧ t.clock.capture = x.edge ∧ t.clock.pacing = false
            ∧ t.clock.lateWindow = false ∧ t.clock.validCount = min 255 (s.clock.validCount + 1)
            ∧ t.clock.round = (if x.crossed then s.clock.round else s.clock.round + 1)
            ∧ t.table.heard = (if x.crossed then s.table.heard else s.table.heard.map (fun age => min 256 (age + 1)))
            ∧ (x.crossed = false → t.notices.plan = none ∧ t.notices.tentative = none ∧ t.repair.turn = false)
            ∧ (let y := (reach ends s).lanes.get (otherLane l)
              let z := t.lanes.get (otherLane l)
              let valid := second = .ticks [.dominant, .dominant, .dominant, .dominant, .passive, .dominant, .passive, .passive]
              let marks := if valid then min 4 (y.marks + 1) else if y.echoOwed && decide (4 ≤ y.marks) then y.marks else 0
              let exits := y.echoOwed = false ∧ (marks = 4 ∨ 32 ≤ y.quiet)
              x.crossed = true → y.search ≠ none → y.state = .settling → y.marks ≤ 4 →
                (exits → z.state = .clear) ∧ (¬ exits → z.state = .settling ∧ z.marks = marks))
            ∧ (let other := (reach ends s).lanes.get (otherLane l)
              let since := match other.search with
                | some y => if y.crossed then y.carried + ends else ends - y.edge
                | none => 800
              Lane.Told (.passiveWithin 60) ((reach ends s).lanes.get l) (t.lanes.get l)
              ∧ Lane.Told (second.levelShown since) other (t.lanes.get (otherLane l)))
            ∧ t.lanes.a.search = none ∧ t.lanes.b.search = none ∧ t.hold = s.hold ∧ t.pending = s.pending)

/-- Mark close: the mark is VALID if some lane's copy is, and a copy is VALID if a candidate edge was accepted on a lane that was
receive-usable at the start of the field and is so still, and its eight ticks match the pattern (R4, R5, R52; the lane on which the
edge was accepted is DEDUCED, log 36; that the ticks of a lane with a later edge are judged whole is the model's choice, log 71);
the count of consecutive valid marks advances or returns to 0, and a station that drove a mark that was not VALID clears its pacing
flag (R12). In LISTENING a VALID mark returns the alone count to 0, and the lock is taken once, at a count of 4 or more (R165; "or
more" is DEDUCED, log 11): learning begins with no epoch, and the runs of a valid retained context carried (R66). A JOINED station
with a notice in flight begins to contend on its transmit-usable lanes with the notice's lead-in value, as they stand before or
after the monitors take the mark (R25, R84; that order is an operand, log 5); otherwise nothing is driven. On a SETTLING lane a
VALID copy advances the valid-mark count up to 4 and any other returns it to 0, but for a count of 4 that an owed echo check holds
(log 41); with the echo check not owed, a count of 4 or a quiet-window count of 32 takes the lane to CLEAR with its counts 0, no
cause and LANE_CHANGED, lane A's before lane B's (R50, R51, R53; log 7); in any other state a copy changes neither state nor counts
(R50). The streams, the repair service, the queued notices and the mode stand. -/
def Obligations.MarkCloseCountsMarks : Prop :=
  (∀ (x : Lane) (accepted : Bool) (r : MarkReading),
    (markCopy x accepted r).isValid = true ↔
      x.receiveUsable = true ∧ x.contributing = true ∧ x.lostAt = none ∧ x.markSpoiled = false ∧ accepted = true
      ∧ r = .ticks [.dominant, .dominant, .dominant, .dominant, .passive, .dominant, .passive, .passive])
  ∧ ∀ (a b : MarkReading) (leadInFirst : Bool) (s : State), s.holding = false → s.due 0 = true →
    let u := atEvent 0 s
    let accepted := fun (l : LaneId) => u.clock.edgeTaken || (u.clock.drove && (u.lanes.get l).drive != .notDriving)
    let valid := (markCopy u.lanes.a (accepted .a) a).isValid || (markCopy u.lanes.b (accepted .b) b).isValid
    let count := if valid then min 255 (s.clock.validCount + 1) else 0
    let context := if s.ctrl.context.valid then s.ctrl.context.records else []
    ∃ t, exec (.markClose a b leadInFirst) s = .next t
      ∧ t.clock = { u.clock with
          validCount := count, pacing := s.clock.pacing && (valid || !s.clock.drove), lateWindow := false }
      ∧ (s.ctrl.mode ≠ .listening → t.ctrl = s.ctrl ∧ t.table = s.table)
      ∧ (s.ctrl.mode = .listening → t.ctrl.alone = (if valid then some 0 else s.ctrl.alone))
      ∧ (s.ctrl.mode = .listening → ¬ (4 ≤ count ∧ s.ctrl.lockTaken = some false) →
          t.ctrl.lockTaken = s.ctrl.lockTaken ∧ t.table = s.table)
      ∧ (s.ctrl.mode = .listening → 4 ≤ count → s.ctrl.lockTaken = some false →
          t.ctrl.lockTaken = some true
          ∧ t.table = { s.table with
              learning := some {
                epoch := none, rounds := 0
                carried := context.map (fun r => { run := r.run, tag := r.tag, pending := false, broken := false })
                table := (List.range 24).map (fun n =>
                  match context.find? (fun r => decide (r.run.first ≤ n ∧ n < r.run.first + r.run.count)) with
                  | some r => { use := .owned s.ctrl.option.station r.tag, carried := true }
                  | none => { use := .unknown, carried := false }) } })
      ∧ (let usable := fun (l : LaneId) => if leadInFirst then (u.lanes.get l).transmitUsable else (t.lanes.get l).transmitUsable
        let contends := fun (l : LaneId) => s.ctrl.mode == .joined && s.notices.flight.isSome && usable l
        (∀ l : LaneId, (t.lanes.get l).drive = (if contends l then .contending else .notDriving)
          ∧ (t.lanes.get l).contributing = (t.lanes.get l).receiveUsable)
        ∧ t.drive.content = (if contends .a || contends .b then .leadIn .noticeWindow else .none)
        ∧ t.drive.leadIn = (if contends .a || contends .b then s.notices.flight.map (fun f => f.leadIn) else none))
      ∧ t.ctrl.mode = s.ctrl.mode ∧ t.notices = u.notices ∧ t.send = s.send ∧ t.repair = s.repair ∧ t.recv = s.recv
      ∧ t.hold = s.hold ∧ t.pending = s.pending
      ∧ ((∀ l : LaneId, (u.lanes.get l).state = .settling → (u.lanes.get l).marks ≤ 4) →
          let copied := fun (l : LaneId) => (markCopy (u.lanes.get l) (accepted l) (match l with
            | .a => a
            | .b => b)).isValid
          let marks := fun (l : LaneId) =>
            let x := u.lanes.get l
            if copied l then min 4 (x.marks + 1) else if x.echoOwed && x.marks == 4 then 4 else 0
          let exits := fun (l : LaneId) =>
            let x := u.lanes.get l
            x.state == .settling && !x.echoOwed && (marks l == 4 || decide (32 ≤ x.quiet))
          let told := fun (l : LaneId) (v : State) => if exits l then giveEvent (.laneChanged l .settling .clear none) v else v
          t.mgmt = (told .b (told .a u)).mgmt
          ∧ ∀ l : LaneId,
            let x := u.lanes.get l
            let y := t.lanes.get l
            (exits l = true → y.state = .clear ∧ y.cause = none ∧ y.rounds = 0 ∧ y.marks = 0 ∧ y.quiet = 0)
            ∧ (exits l = false → y.state = x.state ∧ y.cause = x.cause ∧ y.rounds = x.rounds ∧ y.quiet = x.quiet
                ∧ y.marks = (if x.state = .settling then marks l else x.marks)))

/-! ### Lead-ins and the station's own drive -/

/-- The lead-in outcome of the notice window: with a notice in flight and a lane still contending the station has WON, and the
contending lanes go on to the body; otherwise it is LOST or NOT_SENT, and the notice stays queued, no longer in flight, or leaves
the queue if it is marked for withdrawal, a CLAIM of a RELEASING entry then closing that entry, with STREAM_CLOSED and the outcome
record, its re-sends dropped (R102, R120, R136; the record of a notice never sent: logs 24 and 51); with no notice in flight nothing
happens (R28, R81, R85). The lead-in outcome of the repair window: WON takes the repair turn and drives the re-send of the queue's
head, stamped with slot index 31, on the contending lanes; otherwise nothing is driven and there is no turn; a station that did not
contend does nothing (R28, R130, R131). -/
def Obligations.LeadInOutcome : Prop :=
  ∀ s : State, s.holding = false →
    let driven := fun (u : State) (c : DriveContent) =>
      ({ u with
        lanes := u.lanes.map (fun l => if l.drive == .contending then { l with drive := .driving } else l)
        drive := { u.drive with content := c } } : State)
    let contending := fun (u : State) => u.lanes.a.drive = .contending ∨ u.lanes.b.drive = .contending
    (s.reaches 1500 = true →
      let u := reach 1500 s
      let won := u.drive.content = .leadIn .noticeWindow ∧ contending u
      let ended := fun (queue : List Queued) => ({ u with
        drive := { u.drive with content := .none }, notices := { u.notices with flight := none, queue := queue } } : State)
      (u.notices.flight = none ∨ u.drive.content = .noticeBody → exec (.seventhLeadInTick .noticeWindow) s = .next u)
      ∧ (u.notices.flight ≠ none → won → exec (.seventhLeadInTick .noticeWindow) s = .next (driven u .noticeBody))
      ∧ ∀ q, u.notices.queue.find? (fun x => x.inFlight) = some q → u.notices.flight ≠ none → u.drive.content ≠ .noticeBody →
          ¬ won →
          (q.withdrawn = false → exec (.seventhLeadInTick .noticeWindow) s
            = .next (ended (u.notices.queue.map (fun x => { x with inFlight := false }))))
          ∧ (q.withdrawn = true → ∃ t, exec (.seventhLeadInTick .noticeWindow) s = .next t
              ∧ t.notices = (ended (u.notices.queue.filter (fun x => !x.inFlight))).notices ∧ t.drive = (ended []).drive
              ∧ t.lanes = u.lanes
              ∧ (q.kind ≠ .claim → t.send = s.send ∧ t.repair = s.repair ∧ t.mgmt = s.mgmt)
              ∧ ∀ p : Port, q.kind = .claim → q.origin = .send p →
                let e := s.send.get p
                let record : OutcomeRecord :=
                  { kind := .claim, tag := q.tag, run := q.lastSent.getD ⟨q.first.toNat, q.count.toNat⟩, attempt := q.attempt
                    answer := match q.lastSent, s.notices.lastAnswer with
                      | some _, some r => if r.read then some (r.accepts, r.dissent) else none
                      | _, _ => none
                    heard := s.table.heard.map (fun age => decide (age ≤ 255)) }
                (e.state = .releasing →
                  t.send = s.send.set p { SendEntry.reset with gen := e.gen, nextSeq := e.nextSeq }
                  ∧ t.repair = { s.repair with queue := s.repair.queue.filter (fun r => r.tag != s.tagOf p) }
                  ∧ t.mgmt = (giveEvent (.streamClosed p (some record)) u).mgmt)
                ∧ (e.state ≠ .releasing → t.send = s.send ∧ t.repair = s.repair ∧ t.mgmt = s.mgmt)))
    ∧ (s.reaches 4300 = true →
      let u := reach 4300 s
      (u.drive.content ≠ .leadIn .repairWindow → exec (.seventhLeadInTick .repairWindow) s = .next u)
      ∧ (u.drive.content = .leadIn .repairWindow → ¬ contending u →
          exec (.seventhLeadInTick .repairWindow) s = .next { u with drive := { u.drive with content := .none } })
      ∧ (let head := s.repair.queue.head?.bind (fun r =>
          ((s.send.get (portOfNumber r.tag.toNat)).ring.find? (fun x => x.seq == r.seq)).map (fun b => (r.tag, b)))
        ∀ x, head = some x → u.drive.content = .leadIn .repairWindow → contending u →
          exec (.seventhLeadInTick .repairWindow) s = .next { driven u (.block
            { header := { owner := s.ctrl.option.station, tag := x.1, gen := x.2.gen, seq := x.2.seq, fill := x.2.fill,
                          resend := true, index := 31, epoch := s.table.epoch,
                          length := BitVec.ofNat 9 x.2.payload.length },
              payload := x.2.payload, check := x.2.check }) with repair := { s.repair with turn := true } }))

/-- A lead-in tick read back against the station's value, on a lane that contends: left passive and read dominant, the station
loses arbitration, and every contending front end withdraws (R26), the lane dominant for the 20 units of the sample at the least
(R41; log 4); driven dominant and read passive, every contending front end withdraws, one echo mismatch is counted on the lane,
which was read passive (R41), and under policy FAULT the lane, if CLEAR or SUSPECT, enters SURGE with cause DRIVE: its counts
return to 0, its drive, already withdrawn, is not cut or counted again, and the other lane is only withdrawn (R27, R43, R44,
R46). The tick is read back at the end of its sample, 60 units and the lane's echo delay after it began (R23; for the seventh
tick no later than the lead-in's end, log 44). On a lane that does not contend in that lead-in nothing happens; that a drive
fault on a lane which a surge entry has cut within the tick counts and withdraws nothing is the model's choice (log 66), so is
that the second of two lanes whose tick is read passive counts and enters nothing (log 75), that a tick never read dominant is
judged so at an echo delay of 0 or 1 if this command comes before ECHO_LATE (log 78), and that a command whose reading has
passed changes nothing (log 3). -/
def Obligations.LeadInReadBackWithdraws : Prop :=
  ∀ (field : LeadInField) (tick : Fin 7) (l : LaneId) (s : State), s.holding = false →
    let start := match field with
      | .noticeWindow => 800
      | .repairWindow => 3600
    let sampled := min (start + 700) (start + 100 * tick.val + 60 + (s.lanes.get l).echoDelay.toNat)
    let u := reach sampled s
    let x := u.lanes.get l
    let contends := u.drive.content = .leadIn field ∧ x.drive = .contending
    let withdrawn := fun (y : State) =>
      ({ y with
        lanes := y.lanes.map (fun z => if z.drive == .contending then { z with drive := .withdrawn } else z)
        drive := { y.drive with lost := true } } : State)
    let counted := { u with
      lanes := u.lanes.set l
        { x with violations := min 255 (x.violations + 1), run := 0, dominant := false, reported := .none } }
    let told := if x.state ≠ .off ∧ x.run < 20 then
        { u with lanes := u.lanes.set l { x with run := 20, dominant := true, reported := .none } }
      else u
    let usable := x.state = .clear ∨ x.state = .suspect
    (s.reaches sampled = false →
      exec (.arbitrationLoss field tick l) s = .next s ∧ exec (.driveFault field tick l) s = .next s)
    ∧ (s.reaches sampled = true → ¬ contends →
        exec (.arbitrationLoss field tick l) s = .next u ∧ exec (.driveFault field tick l) s = .next u)
    ∧ ∀ v : BitVec 7, u.drive.leadIn = some v → s.reaches sampled = true → contends →
      (v.getLsbD (6 - tick.val) = true →
          exec (.arbitrationLoss field tick l) s = .next (withdrawn told) ∧ exec (.driveFault field tick l) s = .next u)
      ∧ (v.getLsbD (6 - tick.val) = false →
          exec (.arbitrationLoss field tick l) s = .next u
          ∧ (¬ (s.ctrl.option.policy = .fault ∧ usable) → exec (.driveFault field tick l) s = .next (withdrawn counted))
          ∧ (s.ctrl.option.policy = .fault → usable →
              ∃ t, exec (.driveFault field tick l) s = .next t
                ∧ Lane.EntersSurge .drive { x with drive := .withdrawn } (t.lanes.get l)
                ∧ (t.lanes.get l).violations = min 255 (x.violations + 1)
                ∧ (t.lanes.get l).run = 0 ∧ (t.lanes.get l).dominant = false
                ∧ (∀ k : LaneId, (t.lanes.get k).drive ≠ .contending) ∧ t.drive.lost = true
                ∧ State.SurgesOn l x.state .drive (withdrawn counted) t))

/-- A mismatch in the station's own drive on a lane that is DRIVING is counted, and the drive there ends (R11, R23, R29, R38): a
body or a block while its elements come back, from the echo delay after its first element to the echo delay after its last; a mark
in the sample 40 to 60 of a tick driven dominant, which spoils the lane's copy of the mark and lets a measurement of the tick run on
(R24; log 32); an answer position in the sample 20 to 40 of its dominant half; in the latter two the lane was read passive (R41). At
any other reading, or on a lane that is not DRIVING, nothing happens. A mismatched notice body counts as not sent on the lane, its
last element driven or not (R29; log 48). -/
def Obligations.EchoMismatchCutsDrive : Prop :=
  ∀ (l : LaneId) (r : Nat) (s : State), s.holding = false → s.reaches r = true →
    let u := reach r s
    let x := u.lanes.get l
    let d := r - x.echoDelay.toNat
    let position := 1800 + 100 * s.ctrl.option.station.toNat
    let start := fun (b : Block) => if b.header.index.toNat < 24 then 5100 + 800 * b.header.index.toNat else 4300
    let half := fun (a : Nat) => decide (a ≤ d ∧ d < a + 50 ∧ 20 ≤ d % 100 ∧ d % 100 ≤ 40)
    let compared := match u.drive.content with
      | .mark => decide (40 ≤ d % 100 ∧ d % 100 ≤ 60) && [0, 1, 2, 3, 5].contains (d / 100)
      | .accept => (u.notices.plan == some .accept || u.notices.plan == some .rollCall) && half position
          || u.notices.plan == some .dissent && half 3400
      | .dissent => (u.notices.plan == some .accept || u.notices.plan == some .rollCall) && half position
          || u.notices.plan == some .dissent && half 3400
      | .noticeBody => decide (1500 ≤ d ∧ d ≤ 1518)
      | .block b => decide (start b ≤ d ∧ d ≤ start b + 2 * (15 + b.header.length.toNat))
      | .leadIn _ => false
      | .none => false
    let cut := { x with violations := min 255 (x.violations + 1), drive := .cut }
    let passive := { cut with run := 0, dominant := false, reported := .none }
    let result := fun (y : Lane) => exec (.echoMismatch l r) s = .next { u with lanes := u.lanes.set l y }
    let mismatches := x.drive = .driving ∧ x.echoDelay.toNat ≤ r ∧ compared = true
    (¬ mismatches → exec (.echoMismatch l r) s = .next u)
    ∧ (mismatches → u.drive.content = .noticeBody →
        exec (.echoMismatch l r) s = .next { u with
          lanes := u.lanes.set l cut
          notices := { u.notices with
            flight := u.notices.flight.map (fun f => { f with sent := f.sent.set l false }) } })
    ∧ (mismatches → (∃ b, u.drive.content = .block b) → result cut)
    ∧ (mismatches → u.drive.content = .mark → result { passive with markSpoiled := true, cutAt := some r })
    ∧ (mismatches → u.drive.content = .accept ∨ u.drive.content = .dissent → result passive)

/-- An echo measurement of 60 or less is written and clears an owed echo check, and the lane reads dominant from there; a SETTLING
lane with an exit count met then enters CLEAR (R24, R41, R49, R51). It is taken where it began, so many units before, with the first
tick of a mark or a lead-in tick driven dominant after 20 units that the station left passive, on a lane that drove that tick (R24).
A measurement that reaches 61 puts a usable lane into SURGE with cause ECHO_LATE, the echo check owed, its counts 0, its drive cut
and one violation counted for it (R38, R44, R46, R49), but not again where a mismatch has cut the mark's first tick; on a lane that
a surge entry has cut within the tick it owes the check alone; its final value is written when it comes, and one below 255 is the
lane risen from passive (R24, R41, R43). Anything else changes nothing. Which ticks a lane measures, and that neither a surge entry
nor a mismatch of the mark ends a measurement, is DEDUCED (log 32); that a hold set on after such a cut does not end it either is
the model's choice (log 72). -/
def Obligations.EchoDelayMeasured : Prop :=
  ∀ (l : LaneId) (r : Nat) (s : State), s.holding = false → s.reaches r = true →
    let u := reach r s
    let x := u.lanes.get l
    let start := fun (field : LeadInField) => match field with
      | .noticeWindow => 800
      | .repairWindow => 3600
    let measured := fun (t : Nat) =>
      match u.drive.content, u.drive.leadIn with
      | .mark, _ => decide (t = 0)
      | .leadIn field, some v =>
        decide (∃ k : Fin 7, t = start field + 100 * k.val ∧ v.getLsbD (6 - k.val) = false
          ∧ (k.val = 0 ∨ v.getLsbD (7 - k.val) = true))
      | _, _ => false
    let drives := fun (t : Nat) =>
      x.drive = .contending ∨ x.drive = .driving ∨ (x.drive = .cut ∧ ∃ c, x.cutAt = some c ∧ t ≤ c)
    let measures := fun (value : Nat) => value ≤ r ∧ measured (r - value) = true ∧ drives (r - value)
    (∀ value : BitVec 8, value.toNat ≤ 60 →
      (¬ measures value.toNat → exec (.echoMeasurement l value r) s = .next u)
      ∧ (measures value.toNat → x.state ≠ .settling →
          exec (.echoMeasurement l value r) s = .next { u with
            lanes := u.lanes.set l { x with
              echoDelay := value, measuring := false, echoOwed := false, run := 0, dominant := true, reported := .none } })
      ∧ (measures value.toNat → x.state = .settling →
          ∃ t, exec (.echoMeasurement l value r) s = .next t
            ∧ (t.lanes.get l).state = (if 4 ≤ x.marks ∨ 32 ≤ x.quiet then .clear else .settling)
            ∧ (t.lanes.get l).echoDelay = value ∧ (t.lanes.get l).echoOwed = false ∧ (t.lanes.get l).cause = none
            ∧ (t.lanes.get l).dominant = true ∧ (t.lanes.get l).run = 0
            ∧ (∀ k : LaneId, k ≠ l → t.lanes.get k = u.lanes.get k) ∧ State.LanesAside u t))
    ∧ (∀ value : BitVec 8, 60 < value.toNat →
        exec (.echoMeasurement l value r) s
          = .next (if x.measuring then
              (if value.toNat < 255 then { u with lanes := u.lanes.set l { x with
                echoDelay := value, measuring := false, run := 0, dominant := true, reported := .none } }
              else { u with lanes := u.lanes.set l { x with echoDelay := value, measuring := false } })
            else u))
    ∧ (¬ measures 61 → exec (.echoLate l r) s = .next u)
    ∧ (measures 61 → x.state = .surge →
        exec (.echoLate l r) s = .next { u with lanes := u.lanes.set l { x with
          measuring := true, echoOwed := true, run := 0, dominant := false, reported := .none } })
    ∧ (measures 61 → x.state ≠ .surge →
        ∃ t, exec (.echoLate l r) s = .next t
          ∧ Lane.EntersSurge .echoLate x (t.lanes.get l) ∧ (t.lanes.get l).drive = .cut
          ∧ (t.lanes.get l).violations = x.violationsCut ∧ (t.lanes.get l).measuring = true
          ∧ (t.lanes.get l).run = 0 ∧ (t.lanes.get l).dominant = false
          ∧ State.SurgesOn l x.state .echoLate u t)

/-! ### Notices and answers -/

/-- A JOINED station that sent nothing judges a VALID CLAIM, RELEASE or RECLAIM of another station whose epoch is not ahead: a
malformed one or one of an epoch behind is dissented; one of its own epoch is accepted with its tentative change if the kind's
condition holds in the live table, and dissented if not (R86, R87, R88, R89, R90). The sender is heard (R65). Station 0, whose
accept position begins with the answer field, drives its accept at once (R93). -/
def Obligations.NoticeOfAnotherStationJudged : Prop :=
  ∀ (a b : NoticeReading) (order : CloseOrder) (s : State), s.holding = false → order.admissible = true → s.due 1 = true →
    s.ctrl.mode = .joined → s.notices.flight = none → (∀ q ∈ s.notices.queue, q.inFlight = false) →
    let u := atEvent 1 s
    ∀ n : Notice, u.mergedNotice a b = .valid n →
    leadInSender n.leadIn ≠ s.ctrl.option.station → n.body.kind ≠ .repairAsk →
    serialAhead s.table.epoch n.body.epoch = false →
    let sender := leadInSender n.leadIn
    let run : Run := ⟨n.body.first.toNat, n.body.count.toNat⟩
    let allowed := match n.body.kind with
      | .claim => runOpen s.table.live run
      | .release => runOwned s.table.live run sender n.body.tag
      | .reclaim =>
        n.body.target != s.ctrl.option.station && runOwned s.table.live run n.body.target n.body.tag
          && runSilent s.table.live run
      | .repairAsk => false
    let accepts := !n.malformed && n.body.epoch == s.table.epoch && allowed
    let drives := accepts && s.ctrl.option.station == 0
    ∃ t, exec (.noticeWindowClose a b order) s = .next t
      ∧ t.notices = { u.notices with
          plan := some (if accepts then .accept else .dissent)
          tentative := if accepts then some { kind := n.body.kind, run := run, owner := sender, tag := n.body.tag } else none }
      ∧ t.table = { s.table with heard := s.table.heard.set sender.toNat 0 }
      ∧ (∀ l : LaneId, (t.lanes.get l).drive = if drives && (u.lanes.get l).transmitUsable then .driving else .notDriving)
      ∧ t.clock = u.clock ∧ t.ctrl = s.ctrl ∧ t.send = s.send ∧ t.repair = s.repair ∧ t.recv = s.recv ∧ t.mgmt = s.mgmt
      ∧ t.hold = s.hold ∧ t.pending = s.pending

/-- A REPAIR_ASK of another station, taken by a JOINED station that sent nothing. Malformed, for another station's stream, or of an
epoch behind, it gets no answer (R91). The owner judges it against the retention ring of the stream, which a LIVE entry keeps and a
RELEASING one with release path FROM_LIVE: without a ring it dissents (R127); with every named sequence retained it accepts and
those not yet queued join the re-send queue at its tail, or, if they do not all fit, it stays silent; with some sequence gone it
dissents, and those retained join as far as there is room (R126, R128, R129). The sender is heard (R65), and an epoch ahead puts the
station into RESYNC (R64). -/
def Obligations.RepairAskServedByOwner : Prop :=
  ∀ (a b : NoticeReading) (order : CloseOrder) (s : State), s.holding = false → order.admissible = true → s.due 1 = true →
    s.ctrl.mode = .joined → s.notices.flight = none → (∀ q ∈ s.notices.queue, q.inFlight = false) →
    let u := atEvent 1 s
    ∀ n : Notice, u.mergedNotice a b = .valid n →
    leadInSender n.leadIn ≠ s.ctrl.option.station → n.body.kind = .repairAsk →
    let tag := n.body.tag
    let e := s.send.get (portOfNumber tag.toNat)
    let ahead := serialAhead s.table.epoch n.body.epoch
    let mine := leadInPriority n.leadIn = 6 ∧ 1 ≤ n.body.count.toNat ∧ n.body.count.toNat ≤ 16
      ∧ tagStation tag = s.ctrl.option.station ∧ (n.body.epoch = s.table.epoch ∨ ahead = true)
    let rings := e.state = .live ∨ (e.state = .releasing ∧ e.releasePath = some .fromLive)
    let retained := fun (q : Seq) => e.ring.any (fun r => r.seq == q)
    let named := (List.range n.body.count.toNat).map (fun i => n.body.first + BitVec.ofNat 16 i)
    let fresh := named.filter (fun q => retained q && !s.repair.queue.any (fun r => r.tag == tag && r.seq == q))
    let free := 64 - s.repair.queue.length
    let answers := fun (notices : NoticeEngine) (joining : List Seq) =>
      ∃ t, exec (.noticeWindowClose a b order) s = .next t
        ∧ t.notices = notices
        ∧ t.repair.queue = s.repair.queue
            ++ joining.map (fun q => { tag := tag, seq := q, priority := e.priority.getD 0 })
        ∧ t.table.heard = s.table.heard.set (leadInSender n.leadIn).toNat 0 ∧ t.table.live = s.table.live
        ∧ t.send = s.send ∧ t.recv = s.recv ∧ t.hold = s.hold ∧ t.pending = s.pending
        ∧ t.ctrl.mode = (if ahead then .resync else .joined)
        ∧ (ahead = false → t.ctrl = s.ctrl ∧ t.mgmt = s.mgmt ∧ t.table.learning = s.table.learning)
    let dissent := { u.notices with plan := some .dissent, tentative := none }
    (¬ mine → answers u.notices [])
    ∧ (mine → ¬ rings → answers dissent [])
    ∧ (mine → rings → named.all retained = true → fresh.length ≤ free →
        answers { u.notices with plan := some .accept, tentative := none } fresh)
    ∧ (mine → rings → named.all retained = true → free < fresh.length → answers u.notices [])
    ∧ (mine → rings → named.all retained = false → answers dissent (fresh.take free))

/-- Every other notice window. One that reads IDLE, with no notice of the station's own, is a roll call: a station in JOINED or
RESYNC answers at its accept position with no tentative change, any other does not (R97). A CLAIM, RELEASE or RECLAIM of another
station with an epoch ahead puts a JOINED station into RESYNC, learning from that epoch, and is dissented only if malformed (R64,
R66, R87). A JOINED station that completed a notice takes it from what it sent if the window reads that notice, ERASED or IDLE: a
CLAIM, RELEASE or RECLAIM is accepted with its tentative change, or dissented, as the live table has it, and a REPAIR_ASK gets no
plan (R92; in an IDLE window no roll call is heard, log 60); it dissents if the window reads a different notice of another station
(R92). The notice has been sent in the round, with the run it is queued with (R95, R102). In a DIVERGENT window a JOINED station
dissents, whether it has sent one of the two notices or none, and an epoch ahead in either puts it into RESYNC (R64, R92, R98). A
station that sent nothing does nothing at an ERASED window (R98), and outside JOINED it only hears the senders of a VALID or a
DIVERGENT one (R65, R86); a completed notice gets no plan outside JOINED (R86, R92). A notice that was WON and sent on no lane ends
its flight at the window, in its place in the queue, or out of it if it is marked for withdrawal, and the window is taken as if none
had been in flight (R81, R85). -/
def Obligations.OtherNoticeWindowsAnswered : Prop :=
  ∀ (a b : NoticeReading) (order : CloseOrder) (s : State), s.holding = false → order.admissible = true → s.due 1 = true →
    let u := atEvent 1 s
    let m := u.mergedNotice a b
    let silent := u.notices.flight = none ∧ ∀ q ∈ u.notices.queue, q.inFlight = false
    let foreign := fun (n : Notice) => leadInSender n.leadIn ≠ s.ctrl.option.station
    let ahead := fun (n : Notice) => serialAhead s.table.epoch n.body.epoch
    let next := fun (P : State → Prop) => ∃ t, exec (.noticeWindowClose a b order) s = .next t ∧ P t
    let dissent := { u.notices with plan := some .dissent, tentative := none }
    let stands := fun (t : State) => t.table.live = s.table.live ∧ t.table.epoch = s.table.epoch
      ∧ t.table.learning = s.table.learning ∧ t.ctrl = s.ctrl ∧ t.send = s.send ∧ t.repair = s.repair ∧ t.recv = s.recv
      ∧ t.mgmt = s.mgmt ∧ t.hold = s.hold ∧ t.pending = s.pending
    let hears := fun (ns : List Notice) (t : State) => ∀ k : Fin 16, t.table.heard[k.val]? = s.table.heard[k.val]?.map (fun age =>
      if ns.any (fun n => (leadInSender n.leadIn).toNat == k.val) then 0 else age)
    (m = .idle → silent → next (fun t =>
        t.notices = (if s.ctrl.mode = .joined ∨ s.ctrl.mode = .resync
          then { u.notices with rollCall := true, plan := some .rollCall, tentative := none }
          else { u.notices with rollCall := true })
        ∧ t.clock = u.clock ∧ t.table = s.table ∧ t.ctrl = s.ctrl ∧ t.send = s.send ∧ t.repair = s.repair ∧ t.recv = s.recv
        ∧ t.mgmt = s.mgmt ∧ t.hold = s.hold ∧ t.pending = s.pending))
    ∧ (∀ n : Notice, m = .valid n → silent → foreign n → s.ctrl.mode = .joined → n.body.kind ≠ .repairAsk → ahead n = true →
        next (fun t => t.notices = (if n.malformed then dissent else u.notices) ∧ t.ctrl.mode = .resync
          ∧ t.table.live = s.table.live ∧ t.table.epoch = s.table.epoch
          ∧ ∃ L, t.table.learning = some L ∧ L.epoch = some n.body.epoch ∧ L.rounds = 0))
    ∧ (∀ f : Flight, u.notices.flight = some f → f.sent.a = true ∨ f.sent.b = true →
        let run : Run := ⟨f.body.first.toNat, f.body.count.toNat⟩
        let station := s.ctrl.option.station
        let sent := { u.notices with
          sentNotice := true
          queue := u.notices.queue.map (fun q =>
            if q.inFlight then { q with lastSent := some ⟨q.first.toNat, q.count.toNat⟩ } else q) }
        let allowed := match f.body.kind with
          | .claim => runOpen s.table.live run
          | .release => runOwned s.table.live run station f.body.tag
          | .reclaim =>
            f.body.target != station && runOwned s.table.live run f.body.target f.body.tag && runSilent s.table.live run
          | .repairAsk => false
        let fits := fun (n : Notice) => foreign n ∨ n = ⟨f.leadIn, f.body⟩
        (s.ctrl.mode = .joined → m = .idle ∨ m = .erased ∨ m = .valid ⟨f.leadIn, f.body⟩ →
          next (fun t => t.notices =
            if f.body.kind = .repairAsk then sent
            else { sent with
              plan := some (if allowed then .accept else .dissent)
              tentative := if allowed then some { kind := f.body.kind, run := run, owner := station, tag := f.body.tag }
                else none }))
        ∧ (s.ctrl.mode = .joined → ∀ n : Notice, m = .valid n → n ≠ ⟨f.leadIn, f.body⟩ → foreign n →
            next (fun t => t.notices = { sent with plan := some .dissent, tentative := none }))
        ∧ (s.ctrl.mode = .joined → ∀ x y : Notice, m = .divergent x y → fits x → fits y →
            next (fun t => t.notices = { sent with plan := some .dissent, tentative := none }))
        ∧ (s.ctrl.mode ≠ .joined →
            m = .idle ∨ m = .erased ∨ (∃ n, m = .valid n ∧ fits n) ∨ (∃ x y, m = .divergent x y ∧ fits x ∧ fits y) →
            next (fun t => t.notices = sent ∧ stands t)))
    ∧ (∀ x y : Notice, m = .divergent x y →
        let own := fun (n : Notice) =>
          ∃ f, u.notices.flight = some f ∧ (f.sent.a = true ∨ f.sent.b = true) ∧ n = ⟨f.leadIn, f.body⟩
        foreign x ∨ own x → foreign y ∨ own y → s.ctrl.mode = .joined →
        next (fun t => t.notices.plan = some .dissent ∧ t.notices.tentative = none
          ∧ t.ctrl.mode = (if ahead x || ahead y then .resync else .joined) ∧ hears [x, y] t))
    ∧ (m = .erased → silent → next (fun t => t.notices = u.notices ∧ stands t ∧ t.table = s.table ∧ t.clock = u.clock))
    ∧ (∀ n : Notice, m = .valid n → silent → foreign n → s.ctrl.mode ≠ .joined →
        next (fun t => t.notices = u.notices ∧ stands t ∧ hears [n] t ∧ t.clock = u.clock))
    ∧ (∀ x y : Notice, m = .divergent x y → silent → foreign x → foreign y → s.ctrl.mode ≠ .joined →
        next (fun t => t.notices = u.notices ∧ stands t ∧ hears [x, y] t ∧ t.clock = u.clock))
    ∧ ∀ f : Flight, u.notices.flight = some f → f.sent.a = false → f.sent.b = false →
        let clear := { s with notices := { s.notices with
          flight := none, queue := s.notices.queue.map (fun q => { q with inFlight := false }) } }
        ((∀ q, u.notices.queue.find? (fun x => x.inFlight) = some q → q.withdrawn = false) →
          exec (.noticeWindowClose a b order) s = exec (.noticeWindowClose a b order) clear)
        ∧ ∀ q, u.notices.queue.find? (fun x => x.inFlight) = some q → q.withdrawn = true →
          next (fun t => t.notices.flight = none ∧ t.notices.queue = u.notices.queue.filter (fun x => !x.inFlight))

/-- Answer close with a tentative change of another station's notice: read without dissent it is committed, each slot of the run
set afresh and the epoch advanced by one, and the engines check their entries against the new table (R142, R157); read with a
dissent it is discarded and the live table stands; an unread field leaves the table as it is and puts a JOINED station into
RESYNC with learning begun from its epoch (R58, R66, R94, R95). Without a tentative change and with no notice sent, or with the
field read, nothing changes but the last answer record and, in a roll call with the field read, in every mode, the ages of the
stations whose accept positions read dominant, which return to 0 (R65, R94, R97). -/
def Obligations.AnswerCloseCommitsOrDiscards : Prop :=
  ∀ (a b : AnswerReading) (sendFirst : Bool) (s : State), s.holding = false → s.due 2 = true →
    s.notices.flight = none → (∀ q ∈ s.notices.queue, q.inFlight = false) →
    let u := atEvent 2 s
    let ans := mergeAnswers u.lanes a b
    (∀ tc : Tentative, s.notices.tentative = some tc →
    let use : SlotUse := match tc.kind with
      | .claim => .owned tc.owner tc.tag
      | _ => .openSlot
    ∃ t, exec (.answerClose a b sendFirst) s = .next t
      ∧ t.notices.plan = none ∧ t.notices.tentative = none ∧ t.notices.rollCall = false
      ∧ t.clock = u.clock ∧ t.hold = s.hold ∧ t.pending = s.pending
      ∧ (ans.read = true → t.notices.lastAnswer = some ans ∧ t.ctrl = s.ctrl)
      ∧ (ans.read = true → ans.dissent = false →
          t.table.epoch = s.table.epoch + 1 ∧ t.table.learning = s.table.learning
          ∧ t.table.live = s.table.live.mapIdx (fun n e =>
              if tc.run.first ≤ n ∧ n < tc.run.first + tc.run.count then SlotEntry.fresh use else e)
          ∧ (let told := tellLevels a.levelShown b.levelShown u
            let before : State := { told with notices := { u.notices with lastAnswer := some ans } }
            let v := tableChanged sendFirst (commitChange tc before)
            s.notices.rollCall = false →
              t.send = v.send ∧ t.repair = v.repair ∧ t.recv = v.recv ∧ t.mgmt = v.mgmt
              ∧ t.notices.queue = v.notices.queue))
      ∧ (ans.read = true → ans.dissent = true →
          t.table.epoch = s.table.epoch ∧ t.table.live = s.table.live ∧ t.table.learning = s.table.learning
          ∧ t.send = s.send ∧ t.repair = s.repair ∧ t.recv = s.recv ∧ t.mgmt = s.mgmt)
      ∧ (ans.read = false →
          t.notices.lastAnswer = some { read := false, accepts := 0, dissent := false }
          ∧ t.table.epoch = s.table.epoch ∧ t.table.live = s.table.live ∧ t.send = s.send ∧ t.recv = s.recv)
      ∧ (ans.read = false → s.ctrl.mode = .joined →
          t.ctrl.mode = .resync ∧ ∃ L, t.table.learning = some L ∧ L.epoch = some s.table.epoch ∧ L.rounds = 0))
    ∧ (s.notices.tentative = none → ans.read = true ∨ s.notices.sentNotice = false →
      ∃ t, exec (.answerClose a b sendFirst) s = .next t
        ∧ t.table = { s.table with heard := s.table.heard.mapIdx (fun p age =>
            if s.notices.rollCall = true ∧ ans.read = true ∧ ans.accepts.getLsbD p = true then 0 else age) }
        ∧ t.notices.plan = none ∧ t.notices.tentative = none ∧ t.notices.rollCall = false ∧ t.notices.lastAnswer = some ans
        ∧ t.clock = u.clock ∧ t.ctrl = s.ctrl ∧ t.send = s.send ∧ t.repair = s.repair ∧ t.recv = s.recv ∧ t.mgmt = s.mgmt
        ∧ t.hold = s.hold ∧ t.pending = s.pending)

/-- What the engines do when the live table has changed (R121, R122, R142, R157). A LIVE entry whose run, or claim run until it
takes it, and a HELD entry whose slot run is no longer all the station's with the entry's tag becomes CLOSED with SLOTS_LOST, a
RELEASING entry with STREAM_CLOSED; its re-sends leave the re-send queue (R136). A receive entry becomes WAITING when the table
lists no slot with its tag, with its gap list emptied, its REPAIR_ASK withdrawn (R81) and RECEIVE_WAITING, and ACTIVE when the table
lists one again, with RECEIVE_ACTIVE and the run of the tag (R142; of several the lowest, log 61, and of more than 12 slots all, log 77). The
checks of the two engines come in the order that the command carries, each entry by entry (R183; logs 5 and 7). -/
def Obligations.TableChangeChecksEntries : Prop :=
  ∀ s : State,
    (∀ p : Port,
      let e := s.send.get p
      let run := match e.state with
        | .live => e.slotRun.or e.claimRun
        | .held => e.slotRun
        | .releasing => e.slotRun
        | .closed => none
        | .claiming => none
      let owned := fun (r : Run) => runOwned s.table.live r s.ctrl.option.station (s.tagOf p) = true
      (run = none → checkSend p s = s)
      ∧ ∀ r, run = some r →
        (owned r → checkSend p s = s)
        ∧ (¬ owned r → checkSend p s = giveEvent
            (if e.state = .releasing then .streamClosed p none else .slotsLost p r s.table.epoch) { s with
              send := s.send.set p { SendEntry.reset with gen := e.gen, nextSeq := e.nextSeq }
              repair := { s.repair with queue := s.repair.queue.filter (fun x => x.tag != s.tagOf p) } }))
    ∧ (∀ p : Port, (s.recv.get p).stream = none → checkRecv p s = s)
    ∧ (∀ (p : Port) (st : RecvStream), (s.recv.get p).stream = some st →
        let key := fun (n : Nat) => match (s.table.live[n]?).map (fun e => e.use) with
          | some (.owned _ t) => if t = st.tag then some () else none
          | _ => none
        let listed := ∃ n, key n = some ()
        let become := fun (x : RecvStream) => s.recv.set p { s.recv.get p with stream := some x }
        let mine := fun (q : Queued) => q.kind == .repairAsk && q.origin == .recv p
        ((st.active = true ↔ listed) → checkRecv p s = s)
        ∧ (st.active = true → ¬ listed → checkRecv p s = giveEvent (.receiveWaiting p st.tag) { s with
            recv := become { st with active := false, gaps := [] }
            notices := { s.notices with
              queue := (s.notices.queue.filter (fun q => !mine q || q.inFlight)).map
                (fun q => if mine q then { q with withdrawn := true } else q) } })
        ∧ (st.active = false → listed → ∃ r : Run, MaximalRun key r.first r.count () ∧ (∀ n, key n = some () → r.first ≤ n)
            ∧ checkRecv p s = giveEvent (.receiveActive p st.tag r) { s with recv := become { st with active := true } }))
    ∧ (let sends := [Port.p0, .p1, .p2, .p3].foldl (fun x p => checkSend p x)
      let recvs := [Port.p0, .p1, .p2, .p3].foldl (fun x p => checkRecv p x)
      tableChanged true s = recvs (sends s) ∧ tableChanged false s = sends (recvs s))

/-- The station's own completed CLAIM, at a read answer field: without a dissent it commits, its entry becomes LIVE with an empty
ring and keeps the committed run as claim run until the next round start, the claim leaves the queue and STREAM_LIVE is given,
before the engines check their entries against the new table (R99, R110, R121, R142; log 58), and no notice is in flight. It is
dissented if the dissent position reads dominant, and also if the station holds no tentative change for it, whatever was read: it
dissented to its own claim, or met another notice (R92, R98, R99); nothing is committed then. Dissented at its first or second
attempt the claim joins the queue again, behind the notices of its priority, and the entry stays CLAIMING (R100); at its third it
leaves the queue, its entry is CLOSED and its re-sends are dropped, with STREAM_REFUSED and the outcome record (R100, R102, R110,
R136; the record of a notice with no run as last sent: logs 24 and 51). -/
def Obligations.OwnClaimCommitsOrRejoins : Prop :=
  ∀ (a b : AnswerReading) (sendFirst : Bool) (p : Port) (s : State), s.holding = false → s.due 2 = true →
    let u := atEvent 2 s
    let ans := mergeAnswers u.lanes a b
    ∀ f : Flight, u.notices.flight = some f →
    ∀ q : Queued, u.notices.queue.find? (fun x => x.inFlight) = some q → f.sent.a = true ∨ f.sent.b = true →
    q.kind = .claim → q.origin = .send p → q.withdrawn = false → q.tag = s.tagOf p → (s.send.get p).state = .claiming →
    ans.read = true →
    let rest := u.notices.queue.filter (fun x => !x.inFlight)
    let run : Run := ⟨q.first.toNat, q.count.toNat⟩
    ∃ t, exec (.answerClose a b sendFirst) s = .next t ∧ t.notices.flight = none ∧ (∀ x ∈ t.notices.queue, x.inFlight = false) ∧
      let record : OutcomeRecord :=
        { kind := .claim, tag := q.tag, run := q.lastSent.getD run, attempt := q.attempt
          answer := q.lastSent.map (fun _ => (ans.accepts, ans.dissent))
          heard := t.table.heard.map (fun age => decide (age ≤ 255)) }
      (∀ tc : Tentative, u.notices.tentative = some tc → tc.kind = .claim → tc.owner = s.ctrl.option.station → tc.tag = q.tag →
          tc.run = run → tc.run.first + tc.run.count ≤ s.table.live.length → ans.dissent = false →
          let live := { s.send.get p with
            state := .live, requested := none, claimRun := some tc.run, slotRun := none, ring := [] }
          let v := tableChanged sendFirst (giveEvent (.streamLive p record) { commitChange tc u with
            send := s.send.set p live
            notices := { u.notices with flight := none, queue := rest, lastAnswer := some ans } })
          t.send.get p = live ∧ t.send = v.send ∧ t.repair = v.repair ∧ t.recv = v.recv ∧ t.mgmt = v.mgmt
          ∧ t.notices.queue = v.notices.queue)
      ∧ (u.notices.tentative = none ∨ ans.dissent = true →
          t.table.live = s.table.live ∧ t.table.epoch = s.table.epoch
          ∧ (q.attempt < 3 →
            let before := fun (x : Queued) => decide (x.priority.toNat ≤ q.priority.toNat)
            t.send = s.send ∧ t.mgmt = s.mgmt
            ∧ t.notices.queue = rest.takeWhile before ++ { q with attempt := q.attempt + 1, inFlight := false }
                :: rest.dropWhile before)
          ∧ (3 ≤ q.attempt →
            t.send = s.send.set p { SendEntry.reset with gen := (s.send.get p).gen, nextSeq := (s.send.get p).nextSeq }
            ∧ t.notices.queue = rest ∧ t.repair.queue = s.repair.queue.filter (fun r => r.tag != s.tagOf p)
            ∧ t.mgmt = (giveEvent (.streamRefused p .dissent record) u).mgmt))

/-- The station's other completed notices at a read answer field. One that commits is committed in its own live table (R58, R94). A
RELEASE that commits leaves the queue and closes its entry, with STREAM_CLOSED and the outcome record, and its re-sends are dropped
(R99, R102, R121, R136); after any commit the engines check their entries against the new table (R121, R142; log 58); dissented, it
joins the queue again until its third attempt, after which the entry stays RELEASING and offers a new one at the next round start,
with STREAM_REFUSED (R100, R121). A RECLAIM leaves the queue with no further effect, committed or not, and so does a committed
RELEASE of the controller's (R99, R100). A REPAIR_ASK leaves the queue. In JOINED, with the owner's accept its runs become ASKED,
with a dissent alone they are abandoned with REPAIR_GONE, with neither nothing changes (R101, R154); in any other mode its outcome
does not reach its entry (R159), and that the ask leaves the queue there too is the model's choice (log 64). A withdrawn CLAIM that
commits leaves its RELEASING entry the run, with a RELEASE due; one that does not closes it with STREAM_CLOSED (R81, R120; the
outcome record of a notice with no run as last sent: logs 24 and 51). -/
def Obligations.OwnNoticesAtAnswerClose : Prop :=
  ∀ (a b : AnswerReading) (sendFirst : Bool) (p : Port) (s : State), s.holding = false → s.due 2 = true →
    let u := atEvent 2 s
    let ans := mergeAnswers u.lanes a b
    ∀ f : Flight, u.notices.flight = some f → ∀ q : Queued, u.notices.queue.find? (fun x => x.inFlight) = some q →
    f.sent.a = true ∨ f.sent.b = true → ans.read = true →
    let e := s.send.get p
    let rest := u.notices.queue.filter (fun x => !x.inFlight)
    let closed := { SendEntry.reset with gen := e.gen, nextSeq := e.nextSeq }
    let committed := u.notices.tentative.isSome && !ans.dissent
    let releases := q.kind = .release ∧ q.origin = .send p ∧ q.withdrawn = false ∧ e.state = .releasing
    let withdrawn := q.kind = .claim ∧ q.origin = .send p ∧ q.withdrawn = true ∧ e.state = .releasing
    ∃ t, exec (.answerClose a b sendFirst) s = .next t ∧ t.notices.flight = none
      ∧ t.notices.plan = none ∧ t.notices.tentative = none ∧ t.notices.lastAnswer = some ans ∧
      let record := fun (kind : NoticeKind) =>
        ({ kind := kind, tag := q.tag, run := q.lastSent.getD ⟨q.first.toNat, q.count.toNat⟩, attempt := q.attempt
           answer := q.lastSent.map (fun _ => (ans.accepts, ans.dissent))
           heard := t.table.heard.map (fun age => decide (age ≤ 255)) } : OutcomeRecord)
      (∀ tc : Tentative, u.notices.tentative = some tc → ans.dissent = false →
          t.table.epoch = s.table.epoch + 1
          ∧ t.table.live = s.table.live.mapIdx (fun n x =>
              if tc.run.first ≤ n ∧ n < tc.run.first + tc.run.count then SlotEntry.fresh tc.use else x))
      ∧ (committed = false → t.table.live = s.table.live ∧ t.table.epoch = s.table.epoch)
      ∧ (∀ tc : Tentative, u.notices.tentative = some tc → ans.dissent = false →
          let base : State := { commitChange tc u with
            notices := { u.notices with flight := none, queue := rest, lastAnswer := some ans } }
          let ends := fun (w : State) =>
            let v := tableChanged sendFirst w
            t.send = v.send ∧ t.repair = v.repair ∧ t.recv = v.recv ∧ t.mgmt = v.mgmt ∧ t.notices.queue = v.notices.queue
          (releases → ends (giveEvent (.streamClosed p (some (record .release))) { base with
            send := s.send.set p closed
            repair := { s.repair with queue := s.repair.queue.filter (fun r => r.tag != s.tagOf p) } }))
          ∧ (withdrawn → ends { base with send := s.send.set p { e with
              claimRun := some ⟨q.first.toNat, q.count.toNat⟩, slotRun := none, releaseDue := true } })
          ∧ (q.kind = .reclaim ∨ (q.kind = .release ∧ q.origin = .controller) → ends base))
      ∧ (releases → committed = true → t.send.get p = closed)
      ∧ (releases → committed = false → q.attempt < 3 → t.send = s.send ∧ t.mgmt = s.mgmt
          ∧ t.notices.queue = rest.takeWhile (fun x => decide (x.priority.toNat ≤ q.priority.toNat))
              ++ { q with attempt := q.attempt + 1, inFlight := false }
              :: rest.dropWhile (fun x => decide (x.priority.toNat ≤ q.priority.toNat)))
      ∧ (releases → committed = false → 3 ≤ q.attempt →
          t.send = s.send.set p { e with releaseDue := true } ∧ t.notices.queue = rest
          ∧ t.mgmt = (giveEvent (.streamRefused p .dissent (record .release)) u).mgmt)
      ∧ (q.kind = .reclaim → q.withdrawn = false → committed = false →
          t.send = s.send ∧ t.recv = s.recv ∧ t.mgmt = s.mgmt ∧ t.notices.queue = rest)
      ∧ (withdrawn → committed = true → t.send.get p = { e with
          claimRun := some ⟨q.first.toNat, q.count.toNat⟩, slotRun := none, releaseDue := true })
      ∧ (withdrawn → committed = false → t.send.get p = closed ∧ t.notices.queue = rest
          ∧ t.mgmt = (giveEvent (.streamClosed p (some (record .claim))) u).mgmt)
      ∧ (q.kind = .repairAsk → q.origin = .recv p → u.notices.tentative = none →
          let meets := fun (r : GapRun) =>
            (List.range q.count.toNat).any (fun i => decide ((q.first + BitVec.ofNat 16 i - r.first).toNat < r.count))
          let asked := fun (r : GapRun) =>
            ({ r with asksUsed := min 3 (r.asksUsed + 1)
                      ask := some { lastRound := s.clock.round, reach := q.first + BitVec.ofNat 16 (q.count.toNat - 1) } }
              : GapRun)
          let gaps := fun (g : List GapRun → List GapRun) => s.recv.set p { s.recv.get p with
            stream := (s.recv.get p).stream.map (fun st => { st with gaps := g st.gaps }) }
          let accepted := ans.accepts.getLsbD (tagStation q.tag).toNat
          t.notices.queue = rest ∧ t.send = s.send
          ∧ ((q.withdrawn = true ∨ s.ctrl.mode ≠ .joined ∨ (accepted = false ∧ ans.dissent = false)) → t.recv = s.recv ∧ t.mgmt = s.mgmt)
          ∧ (q.withdrawn = false → s.ctrl.mode = .joined → accepted = true →
              t.recv = gaps (fun l => l.map (fun r => if meets r then asked r else r)) ∧ t.mgmt = s.mgmt)
          ∧ (q.withdrawn = false → s.ctrl.mode = .joined → accepted = false → ans.dissent = true →
              t.recv = gaps (fun l => l.filter (fun r => !meets r))
              ∧ t.mgmt = (giveEvent (.repairGone p q.first q.count.toNat .dissent) u).mgmt))

/-- An unread answer field after a notice the station completed (R95): no notice is in flight; a CLAIM keeps its place in the queue
and becomes the pending claim, a RELEASE or RECLAIM keeps its place, a REPAIR_ASK leaves the queue (R101); the live table stands,
and a JOINED station, its notice in flight still or not, goes to RESYNC with learning begun from its epoch (R66, R95, R168). An
adoption that cuts the round short ends a notice whose answers are not awaited as after a lost arbitration, in its place in the
queue, or out of it if it is marked for withdrawal (R15, R81, R85), and treats a completed one, or an answer field not yet closed,
as unread (R15, R95; log 23). -/
def Obligations.UnreadAnswersAreLost : Prop :=
  (∀ (a b : AnswerReading) (sendFirst : Bool) (s : State), s.holding = false → s.due 2 = true →
    let u := atEvent 2 s
    (mergeAnswers u.lanes a b).read = false → u.notices.sentNotice = true →
    ∃ t, exec (.answerClose a b sendFirst) s = .next t ∧ t.notices.flight = none
      ∧ t.notices.plan = none ∧ t.notices.tentative = none
      ∧ t.notices.lastAnswer = some { read := false, accepts := 0, dissent := false }
      ∧ t.table.live = s.table.live ∧ t.table.epoch = s.table.epoch ∧ t.recv = s.recv
      ∧ (s.ctrl.mode = .joined →
          t.ctrl.mode = .resync ∧ ∃ L, t.table.learning = some L ∧ L.epoch = some s.table.epoch ∧ L.rounds = 0)
      ∧ (s.ctrl.mode ≠ .joined → t.ctrl = s.ctrl)
      ∧ ∀ f : Flight, u.notices.flight = some f → ∀ q : Queued, u.notices.queue.find? (fun x => x.inFlight) = some q →
          f.sent.a = true ∨ f.sent.b = true →
          t.send = s.send
          ∧ (q.kind = .claim → t.notices.queue = u.notices.queue.map (fun x =>
              { x with inFlight := false, pending := x.pending || x.inFlight }))
          ∧ (q.kind = .release ∨ q.kind = .reclaim →
              t.notices.queue = u.notices.queue.map (fun x => { x with inFlight := false }))
          ∧ (q.kind = .repairAsk → t.notices.queue = u.notices.queue.filter (fun x => !x.inFlight)))
  ∧ ∀ s : State,
    let t := cutShort s
    let sent := ∃ f, s.notices.flight = some f ∧ (f.sent.a = true ∨ f.sent.b = true)
    let awaits := s.clock.closed = 2 ∨ (s.clock.closed = 1 ∧ (s.notices.sentNotice = true ∨ sent))
    let owes := s.notices.sentNotice = true ∨ sent ∨ s.notices.tentative ≠ none
    t.notices.flight = none ∧ t.notices.plan = none ∧ t.notices.rollCall = false ∧ t.notices.tentative = none
    ∧ t.table.live = s.table.live ∧ t.table.epoch = s.table.epoch ∧ t.recv = s.recv ∧ t.clock = s.clock
    ∧ (¬ awaits → t.ctrl = s.ctrl ∧ t.table = s.table ∧ t.notices.lastAnswer = s.notices.lastAnswer)
    ∧ (awaits → t.notices.lastAnswer = some { read := false, accepts := 0, dissent := false })
    ∧ (awaits → ¬ (owes ∧ s.ctrl.mode = .joined) → t.ctrl = s.ctrl)
    ∧ (awaits → owes → s.ctrl.mode = .joined → t.ctrl.mode = .resync
        ∧ ∃ L, t.table.learning = some L ∧ L.epoch = some s.table.epoch ∧ L.rounds = 0)
    ∧ ∀ q : Queued, s.notices.queue.find? (fun x => x.inFlight) = some q →
        let stays := s.notices.queue.map (fun x => { x with inFlight := false })
        let leaves := s.notices.queue.filter (fun x => !x.inFlight)
        let lost := ¬ (awaits ∧ sent)
        let record := fun (x : Queued) =>
          if x.inFlight then { x with lastSent := some ⟨x.first.toNat, x.count.toNat⟩ } else x
        (lost → q.withdrawn = false → t.notices.queue = stays ∧ t.send = s.send)
        ∧ (lost → q.withdrawn = true → t.notices.queue = leaves)
        ∧ (¬ lost → q.kind = .claim → t.notices.queue = s.notices.queue.map (fun x =>
            { record x with inFlight := false, pending := x.pending || x.inFlight }))
        ∧ (¬ lost → q.kind = .release ∨ q.kind = .reclaim → t.notices.queue = s.notices.queue.map (fun x =>
            { record x with inFlight := false }))
        ∧ (¬ lost → q.kind = .repairAsk → t.notices.queue = leaves)

/-! ### The repair window and the slots -/

/-- Repair window close, and a re-sent block wherever it comes. The block is offered to every ACTIVE anchored entry of its tag: of
the current generation, behind the next expected sequence and with its place MISSING of the current generation, it fills that place,
keeping its due round, and its sequence leaves the gap list; any other, of another generation, late, duplicate or not yet expected,
changes nothing, and so does one at an entry that is WAITING or not anchored (R147, R152). At repair window close an IDLE or ERASED
result changes nothing; a VALID header's owner is heard (R65), its epoch, if it is the first or ahead, becomes the learned epoch
(R69), and one ahead of the table epoch puts a JOINED station into RESYNC, learning from it (R64, R66). At the pass of a slot the
slot's own effect comes first: to an ACTIVE anchored entry of the slot's tag with room it is a slot without a block, and then the
block is offered (R143, R146, R147). -/
def Obligations.ResentBlocksFillPlaces : Prop :=
  ∀ (a b : BlockReading) (s : State), s.holding = false →
    let fills := fun (x : Block) (st : RecvStream) (an : Anchor) (pl : Place) =>
      x.header.resend = true ∧ st.active = true ∧ st.tag = x.header.tag ∧ st.anchor = some an ∧ x.header.gen = an.gen
      ∧ serialAhead x.header.seq (an.nextPlayout + BitVec.ofNat 16 st.window.length) = true
      ∧ st.window[(x.header.seq - an.nextPlayout).toNat]? = some pl ∧ pl.block = none ∧ pl.gen = an.gen
    let takes := fun (x : Block) (st st' : RecvStream) =>
      (∀ an pl, fills x st an pl → st' = { st with
        window := st.window.set (x.header.seq - an.nextPlayout).toNat { pl with block := some (x.header.fill, x.payload) }
        gaps := leaveGap x.header.seq st.gaps })
      ∧ ((∀ an pl, ¬ fills x st an pl) → st' = st)
    (s.due 3 = true →
      let u := atEvent 3 s
      let m := (u.mergedBlock false a b).copy
      ∃ t, exec (.repairWindowClose a b) s = .next t
        ∧ t.clock = u.clock ∧ t.notices = u.notices ∧ t.send = s.send ∧ t.table.live = s.table.live ∧ t.table.epoch = s.table.epoch
        ∧ t.repair.queue = s.repair.queue ∧ t.hold = s.hold ∧ t.pending = s.pending
        ∧ (m.isValid = false →
            t.table = s.table ∧ t.repair = s.repair ∧ t.recv = s.recv ∧ t.ctrl = s.ctrl ∧ t.mgmt = s.mgmt)
        ∧ ∀ x : Block, m = .valid x →
          let newer := fun (L : Learning) => match L.epoch with
            | none => some x.header.epoch
            | some y => if serialAhead y x.header.epoch then some x.header.epoch else some y
          let ahead := s.ctrl.mode = .joined ∧ serialAhead s.table.epoch x.header.epoch = true
          t.table.heard = s.table.heard.set x.header.owner.toNat 0
          ∧ (∀ p : Port, ((s.recv.get p).stream = none → t.recv.get p = s.recv.get p)
              ∧ ∀ st, (s.recv.get p).stream = some st →
                ∃ st', t.recv.get p = { s.recv.get p with stream := some st' } ∧ takes x st st')
          ∧ (¬ ahead → t.ctrl = s.ctrl ∧ t.repair = s.repair ∧ t.mgmt = s.mgmt
              ∧ t.table.learning = s.table.learning.map (fun L => { L with epoch := newer L }))
          ∧ (ahead → t.ctrl.mode = .resync ∧ t.repair.turn = false
              ∧ t.table.learning = (enterResync .epochAhead x.header.epoch s).table.learning
              ∧ t.mgmt = (giveEvent (.modeChanged .joined .resync .epochAhead) s).mgmt))
    ∧ ∀ (n : Fin 24) (order : List PassStep), passAdmissible order = true → s.due (n.val + 4) = true →
      let u := atEvent (n.val + 4) s
      ∀ x : Block, (u.mergedBlock true a b).copy = .valid x → x.header.resend = true →
      ∃ t, exec (.slotPass n a b order) s = .next t
        ∧ ∀ p : Port, ((s.recv.get p).stream = none → t.recv.get p = s.recv.get p)
          ∧ ∀ st, (s.recv.get p).stream = some st →
            let served := st.active && (useAt s.table.live n.val).hasTag st.tag && decide (st.window.length < st.cls.size)
            let marked := match st.anchor with
              | none => st
              | some an =>
                let next := an.nextPlayout + BitVec.ofNat 16 st.window.length
                let due := s.clock.round + BitVec.ofNat 32 st.delay
                if served then
                  { st with
                    window := st.window ++ [{ block := none, seq := next, gen := an.gen, due := due }]
                    gaps := joinGap next st.gaps }
                else st
            ∃ st', t.recv.get p = { s.recv.get p with stream := some st' } ∧ takes x marked st'

/-- The slot start of a slot that is OWNED by this station with the tag of an entry whose slot run holds it, in JOINED, RESYNC or
DARK: a LIVE entry hands over its retained block of the next sequence if it has one, and otherwise its oldest waiting block or a
FILL block, which is retained in the place of the block that shares its ring position; a RELEASING entry with release path FROM_LIVE
does the same with FILL blocks only; a HELD entry, and one RELEASING FROM_HELD, hands over a FILL block that is not retained. The
block carries owner, tag, generation, sequence, slot index, table epoch and length (R114, R115, R116, R118). In an OPEN slot of its
repair turn the station hands over the block of the re-send queue's head, stamped with the slot index (R133); in any other OPEN slot
nothing, and nothing in a slot that is UNKNOWN or OWNED by another station, nor in the station's own where no entry's slot run holds
the slot with its tag, where the entry is in another state, RELEASING FROM_CLAIM with it, or in STARTING, LISTENING and FAULTED
(R114, R123). That a slot start acts between the event before it and its pass is log 42. -/
def Obligations.SlotStartHandsBlock : Prop :=
  ∀ (n : Fin 24) (s : State), s.holding = false → s.clock.closed = n.val + 4 → s.clock.timer = 5000 + 800 * n.val →
    let stamped := fun (tag : Tag) (b : Retained) (resend : Bool) => ({ s.drive with
      handed := some (n.val,
        { header := { owner := s.ctrl.option.station, tag := tag, gen := b.gen, seq := b.seq, fill := b.fill,
                      resend := resend, index := BitVec.ofNat 5 n.val, epoch := s.table.epoch,
                      length := BitVec.ofNat 9 b.payload.length },
          payload := b.payload, check := b.check }) } : FieldDrive)
    (∀ p : Port, ∀ run : Run, (s.send.get p).slotRun = some run → run.first ≤ n.val → n.val < run.first + run.count →
      (s.ctrl.mode = .joined ∨ s.ctrl.mode = .resync ∨ s.ctrl.mode = .dark) →
      useAt s.table.live n.val = .owned s.ctrl.option.station (s.tagOf p) →
      let e := s.send.get p
      let hands := fun (b : Retained) (e' : SendEntry) (queue : List Resend) =>
        exec (.slotStart n) s = .next { s with
          send := s.send.set p { e' with served := some n.val }
          repair := { s.repair with queue := queue }
          drive := stamped (s.tagOf p) b false }
      let fill : Retained := { seq := e.nextSeq, gen := e.gen, fill := true, payload := [], check := check32 [] }
      let shares := fun (r : Retained) => r.seq.toNat % e.size == e.nextSeq.toNat % e.size
      let old := e.ring.find? shares
      let kept := e.ring.filter (fun r => !shares r)
      let queue := match old with
        | some o => s.repair.queue.filter (fun r => !(r.tag == s.tagOf p && r.seq == o.seq))
        | none => s.repair.queue
      let fromLive := e.state = .releasing ∧ e.releasePath = some .fromLive
      let prepared := ∃ r, old = some r ∧ r.seq = e.nextSeq
      (∀ r, old = some r → r.seq = e.nextSeq → e.state = .live ∨ fromLive → hands r e s.repair.queue)
      ∧ (e.fifo = [] → e.state = .live → ¬ prepared → hands fill { e with ring := kept ++ [fill] } queue)
      ∧ (∀ (w : PortBlock) (rest : List PortBlock), e.fifo = w :: rest → e.state = .live → ¬ prepared →
          let b : Retained := { seq := e.nextSeq, gen := e.gen, fill := false, payload := w.payload, check := w.check }
          hands b { e with ring := kept ++ [b], fifo := rest } queue)
      ∧ (fromLive → ¬ prepared → hands fill { e with ring := kept ++ [fill] } queue)
      ∧ (e.state = .held ∨ (e.state = .releasing ∧ e.releasePath = some .fromHeld) → hands fill e s.repair.queue))
    ∧ (useAt s.table.live n.val = .openSlot →
        let head := s.repair.queue.head?.bind (fun r =>
          ((s.send.get (portOfNumber r.tag.toNat)).ring.find? (fun x => x.seq == r.seq)).map (fun b => (r.tag, b)))
        let turn := s.repair.turn = true ∧ (s.lanes.a.transmitUsable = true ∨ s.lanes.b.transmitUsable = true)
        (∀ x, head = some x → turn → exec (.slotStart n) s = .next { s with drive := stamped x.1 x.2 true })
        ∧ (head = none ∨ ¬ turn → exec (.slotStart n) s = .next s))
    ∧ (useAt s.table.live n.val = .unknown → exec (.slotStart n) s = .next s)
    ∧ ∀ (owner : StationNo) (tag : Tag), useAt s.table.live n.val = .owned owner tag →
        let served := fun (p : Port) =>
          let e := s.send.get p
          tag = s.tagOf p ∧ (∃ run : Run, e.slotRun = some run ∧ run.first ≤ n.val ∧ n.val < run.first + run.count)
          ∧ (e.state = .live ∨ e.state = .held
            ∨ (e.state = .releasing ∧ (e.releasePath = some .fromLive ∨ e.releasePath = some .fromHeld)))
        owner ≠ s.ctrl.option.station ∨ (s.ctrl.mode ≠ .joined ∧ s.ctrl.mode ≠ .resync ∧ s.ctrl.mode ≠ .dark) ∨ (∀ p, ¬ served p) →
          exec (.slotStart n) s = .next s

/-- A re-send, driven or handed over for the slot in progress, that is driven to its last element on at least one lane leaves the
re-send queue; cut on every lane, or not driven, it stays; with no re-send out nothing happens (R133, R134), and that nothing
happens either when that reading has passed is the model's choice (log 3). -/
def Obligations.ResendSentLeavesQueue : Prop :=
  ∀ s : State, s.holding = false →
    let out := match s.drive.content with
      | .block b => some b
      | _ => s.drive.handed.map (fun x => x.2)
    (∀ b, out = some b → b.header.resend = true →
      let start := if b.header.index.toNat < 24 then 5100 + 800 * b.header.index.toNat else 4300
      let ends := start + 2 * (15 + b.header.length.toNat)
      let u := reach ends s
      let sent := u.drive.content = .block b ∧ (u.lanes.a.drive = .driving ∨ u.lanes.b.drive = .driving)
      (s.reaches ends = false → exec .resendSent s = .next s)
      ∧ (s.reaches ends = true → sent →
        exec .resendSent s = .next { u with
          repair := { u.repair with
            queue := u.repair.queue.filter (fun r => !(r.tag == b.header.tag && r.seq == b.header.seq)) } })
      ∧ (s.reaches ends = true → ¬ sent → exec .resendSent s = .next u))
    ∧ (∀ b, out = some b → b.header.resend = false → exec .resendSent s = .next s)
    ∧ (out = none → exec .resendSent s = .next s)

/-- The pass of slot n leaves the live table alone in STARTING and LISTENING, and maintains its entry in the other modes (R59): an
UNKNOWN one stands; an OPEN one has no silence, and counts a table mismatch for a VALID block that names it (R63; that any other
VALID block leaves it alone is DEDUCED, log 17); an OWNED one with a block of its owner and tag, the station's own read back among
them, is renewed, with any other VALID block counts a table mismatch, unless the station is JOINED and the block's epoch is ahead,
which puts it into RESYNC, and without a block grows silent if a lane contributes (in DARK too, log 59), and is marked for reclaim
at 512 in JOINED if another station owns it. The other slots stand, and the block's owner is heard (R59, R60, R61, R62, R64, R65,
R74). From LISTENING, JOINED and RESYNC a block that names this station and is not its own leads to FAULTED, which
DuplicateNumberFound states (R171). -/
def Obligations.SlotPassMaintainsEntry : Prop :=
  ∀ (n : Fin 24) (a b : BlockReading) (order : List PassStep) (s : State), s.holding = false →
    passAdmissible order = true → s.due (n.val + 4) = true →
    let u := atEvent (n.val + 4) s
    let m := (u.mergedBlock true a b).copy
    let named := fun (x : Block) => x.header.resend = false ∧ x.header.index.toNat = n.val
    let ahead := fun (x : Block) => s.ctrl.mode = .joined ∧ serialAhead s.table.epoch x.header.epoch = true
    let mismatch := fun (e : SlotEntry) (x : Block) => { e with
      mismatches := min 255 (e.mismatches + 1)
      lastMismatch := some { owner := x.header.owner, tag := x.header.tag, epoch := x.header.epoch } }
    (∀ x, m = .valid x → s.ctrl.mode = .listening ∨ s.ctrl.mode = .joined ∨ s.ctrl.mode = .resync →
      ¬ (named x ∧ x.header.owner = s.ctrl.option.station ∧
        ¬ ∃ d, u.drive.drove = some d ∧ d.header.tag = x.header.tag ∧ d.header.seq = x.header.seq)) →
    ∀ e : SlotEntry, s.table.live[n.val]? = some e →
    ∃ t, exec (.slotPass n a b order) s = .next t
      ∧ (∀ k : Fin 24, k ≠ n → t.table.live[k.val]? = s.table.live[k.val]?) ∧ t.table.live.length = s.table.live.length
      ∧ t.clock = u.clock ∧ t.table.epoch = s.table.epoch ∧ t.repair.queue = s.repair.queue
      ∧ t.hold = s.hold ∧ t.pending = s.pending
      ∧ (s.ctrl.mode = .starting ∨ s.ctrl.mode = .listening → t.table.live = s.table.live)
      ∧ (s.ctrl.mode ≠ .starting → s.ctrl.mode ≠ .listening →
        let entry := fun (e' : SlotEntry) => t.table.live[n.val]? = some e'
        let quiet := { e with lastValid := false, silent := 0, reclaim := false }
        (e.use = .unknown → entry e)
        ∧ (e.use = .openSlot → m.isValid = false → entry quiet)
        ∧ (∀ x, m = .valid x → e.use = .openSlot →
            (¬ named x ∨ ahead x → entry quiet) ∧ (named x → ¬ ahead x → entry (mismatch quiet x)))
        ∧ (∀ o g, e.use = .owned o g →
            (m.isValid = false → entry (if u.lanes.a.contributing || u.lanes.b.contributing then { e with
              lastValid := false
              silent := min 1023 (e.silent + 1)
              reclaim := e.reclaim || (e.silent == 511 && s.ctrl.mode == .joined && o != s.ctrl.option.station) }
              else { e with lastValid := false }))
            ∧ ∀ x, m = .valid x →
              let agrees := named x ∧ x.header.owner = o ∧ x.header.tag = g
              (agrees → entry { e with lastValid := true, silent := 0, reclaim := false })
              ∧ (¬ agrees → ahead x → entry { e with lastValid := false })
              ∧ (¬ agrees → ¬ ahead x → entry (mismatch { e with lastValid := false } x))))
      ∧ (∀ x, m = .valid x → t.table.heard = s.table.heard.set x.header.owner.toNat 0
          ∧ t.ctrl.mode = (if ahead x then .resync else s.ctrl.mode))
      ∧ (m.isValid = false → t.table.heard = s.table.heard ∧ t.ctrl.mode = s.ctrl.mode)

/-- A schedule-bearing block read VALID in a slot with this station's number, in a slot the station did not drive or with another
tag or sequence than it drove, and a notice read VALID that carries this station's number and is not the one it completed there,
find a duplicate number: from LISTENING, JOINED or RESYNC the station enters FAULTED with reason DUPLICATE, drives nothing, ends
learning and its flight, clears the validity of its retained context and latches FAULT (R171, R172). -/
def Obligations.DuplicateNumberFound : Prop :=
  ∀ s : State, s.holding = false → (s.ctrl.mode = .listening ∨ s.ctrl.mode = .joined ∨ s.ctrl.mode = .resync) →
    let faults := fun (o : Host.Outcome State Fault Refusal) =>
      ∃ t, o = .next t ∧ t.ctrl.mode = .faulted ∧ t.ctrl.faultReason = some .duplicate ∧ t.table.learning = none
        ∧ t.notices.flight = none ∧ t.notices.plan = none ∧ t.notices.tentative = none
        ∧ t.drive.content = .none ∧ t.drive.handed = none ∧ (∀ l : LaneId, (t.lanes.get l).drive = .notDriving)
        ∧ t.ctrl.context.valid = false ∧ t.mgmt.latched.fault = true ∧ t.hold = s.hold ∧ t.pending = s.pending
    (∀ (n : Fin 24) (a b : BlockReading) (order : List PassStep), passAdmissible order = true → s.due (n.val + 4) = true →
      let u := atEvent (n.val + 4) s
      ∀ x, (u.mergedBlock true a b).copy = .valid x → x.header.resend = false → x.header.index.toNat = n.val →
        x.header.owner = s.ctrl.option.station →
        (¬ ∃ d, u.drive.drove = some d ∧ d.header.tag = x.header.tag ∧ d.header.seq = x.header.seq) →
        faults (exec (.slotPass n a b order) s))
    ∧ ∀ (a b : NoticeReading) (order : CloseOrder), order.admissible = true → s.due 1 = true →
      let u := atEvent 1 s
      let m := u.mergedNotice a b
      let other := fun (x : Notice) => leadInSender x.leadIn = s.ctrl.option.station
        ∧ ¬ ∃ f, u.notices.flight = some f ∧ (f.sent.a = true ∨ f.sent.b = true) ∧ f.body = x.body
      (∀ x, m = .valid x → other x → faults (exec (.noticeWindowClose a b order) s))
      ∧ (∀ x y, m = .divergent x y → other x ∨ other y → faults (exec (.noticeWindowClose a b order) s))

/-- What the pass of slot n teaches a station that is learning (R68, R69): a re-send makes the learned entry OPEN, any other VALID
block of the slot makes it OWNED as its header says, an IDLE slot makes it OPEN, and an ERASED one, or a VALID block of another slot
index, leaves it; a carried entry stands at an IDLE slot and at a block of the station's own with its tag, and any other use that it
takes breaks the carried runs that hold it. The first header epoch, and one ahead of it, becomes the learned epoch. The other
learned entries and the round count stand, and a station that is not learning learns nothing. A JOINED station whose table epoch is
behind the block's goes to RESYNC, and the same pass is the first that it learns from (R64). Learning begun in RESYNC has the round
count 0, and carries each run that the live table lists as the station's with the tag of one of its LIVE, HELD or RELEASING entries,
and the run of the pending claim (R66; log 37). -/
def Obligations.LearnedTableFollowsSlots : Prop :=
  (∀ (n : Fin 24) (a b : BlockReading) (order : List PassStep) (s : State), s.holding = false → passAdmissible order = true →
    s.due (n.val + 4) = true →
    let u := atEvent (n.val + 4) s
    let m := (u.mergedBlock true a b).copy
    let learns := fun (L L' : Learning) =>
      L'.rounds = L.rounds ∧ L'.table.length = L.table.length ∧ (∀ k, k ≠ n.val → L'.table[k]? = L.table[k]?)
      ∧ (∀ x, m = .valid x → L'.epoch = (match L.epoch with
          | none => some x.header.epoch
          | some y => if serialAhead y x.header.epoch then some x.header.epoch else some y))
      ∧ (m.isValid = false → L'.epoch = L.epoch)
      ∧ ∀ e : LearnedEntry, L.table[n.val]? = some e →
        let stands := L'.table = L.table ∧ L'.carried = L.carried
        let becomes := fun (use : SlotUse) => L'.table[n.val]? = some { use := use, carried := false }
          ∧ L'.carried = (if e.carried then L.carried.map (fun r =>
              if r.run.first ≤ n.val ∧ n.val < r.run.first + r.run.count then { r with broken := true } else r) else L.carried)
        (m = .erased → stands)
        ∧ (m = .idle → e.carried = true → stands) ∧ (m = .idle → e.carried = false → becomes .openSlot)
        ∧ ∀ x, m = .valid x →
          let own := e.carried = true ∧ x.header.owner = s.ctrl.option.station ∧ ∃ o, e.use = .owned o x.header.tag
          (x.header.index.toNat ≠ n.val → stands)
          ∧ (x.header.index.toNat = n.val → x.header.resend = true → becomes .openSlot)
          ∧ (x.header.index.toNat = n.val → x.header.resend = false → own → stands)
          ∧ (x.header.index.toNat = n.val → x.header.resend = false → ¬ own → becomes (.owned x.header.owner x.header.tag))
    let ahead := fun (x : Block) => s.ctrl.mode = .joined ∧ serialAhead s.table.epoch x.header.epoch = true
    (∀ x, m = .valid x → s.ctrl.mode = .listening ∨ s.ctrl.mode = .joined ∨ s.ctrl.mode = .resync →
      ¬ (x.header.resend = false ∧ x.header.index.toNat = n.val ∧ x.header.owner = s.ctrl.option.station ∧
        ¬ ∃ d, u.drive.drove = some d ∧ d.header.tag = x.header.tag ∧ d.header.seq = x.header.seq)) →
    ∃ t, exec (.slotPass n a b order) s = .next t
      ∧ ((∀ x, m = .valid x → ¬ ahead x) →
          (s.table.learning = none → t.table.learning = none)
          ∧ ∀ L, s.table.learning = some L → ∃ L', t.table.learning = some L' ∧ learns L L')
      ∧ ∀ x, m = .valid x → ahead x →
          t.ctrl.mode = .resync ∧ ∃ L, (enterResync .epochAhead x.header.epoch s).table.learning = some L
            ∧ ∃ L', t.table.learning = some L' ∧ learns L L')
  ∧ ∀ (cause : ModeCause) (epoch : Epoch) (s : State),
    let kept := fun (t : Tag) => ∃ p : Port, s.tagOf p = t
      ∧ ((s.send.get p).state = .live ∨ (s.send.get p).state = .held ∨ (s.send.get p).state = .releasing)
    let own := fun (k : Nat) (t : Tag) => kept t ∧ useAt s.table.live k = .owned s.ctrl.option.station t
    let claims := fun (k : Nat) (t : Tag) => ∃ q, s.notices.queue.find? (fun x => x.pending) = some q ∧ q.tag = t
      ∧ q.first.toNat ≤ k ∧ k < q.first.toNat + q.count.toNat
    ∃ L, (enterResync cause epoch s).table.learning = some L ∧ L.epoch = some epoch ∧ L.rounds = 0 ∧ L.table.length = 24
      ∧ ∀ k : Fin 24,
        let entry := fun (e : LearnedEntry) => L.table[k.val]? = some e
        (∀ t, own k.val t → entry { use := .owned s.ctrl.option.station t, carried := true })
        ∧ (∀ t, (∀ x, ¬ own k.val x) → claims k.val t → entry { use := .owned s.ctrl.option.station t, carried := true })
        ∧ ((∀ x, ¬ own k.val x) → (∀ x, ¬ claims k.val x) → entry { use := .unknown, carried := false })

/-- The pass of slot n advances the next sequence of an entry that was served at its slot start, in JOINED, RESYNC and DARK, leaves
it in the other modes, and leaves every other entry as it is (R117, R123). From LISTENING, JOINED and RESYNC a block that names this
station and is not its own leads to FAULTED, which DuplicateNumberFound states (R171). -/
def Obligations.SlotPassAdvancesSequence : Prop :=
  ∀ (n : Fin 24) (a b : BlockReading) (order : List PassStep) (s : State), s.holding = false → passAdmissible order = true →
    s.due (n.val + 4) = true →
    let u := atEvent (n.val + 4) s
    let issues := s.ctrl.mode = .joined ∨ s.ctrl.mode = .resync ∨ s.ctrl.mode = .dark
    (∀ x, (u.mergedBlock true a b).copy = .valid x → s.ctrl.mode = .listening ∨ s.ctrl.mode = .joined ∨ s.ctrl.mode = .resync →
      ¬ (x.header.resend = false ∧ x.header.index.toNat = n.val ∧ x.header.owner = s.ctrl.option.station ∧
        ¬ ∃ d, u.drive.drove = some d ∧ d.header.tag = x.header.tag ∧ d.header.seq = x.header.seq)) →
    ∃ t, exec (.slotPass n a b order) s = .next t
      ∧ ∀ p : Port, t.send.get p =
          (if (s.send.get p).served = some n.val then { s.send.get p with
              served := none
              nextSeq := if issues then (s.send.get p).nextSeq + 1 else (s.send.get p).nextSeq }
           else s.send.get p)

/-- The pass of a slot OWNED with the tag of an ACTIVE anchored receive entry: with room in the window the block of the slot's owner
and tag with the next expected sequence and the current generation becomes HELD, due D rounds on (R143, R144); without a block, or
with a VALID block that is not of the stream, the next expected sequence becomes MISSING, due D rounds on, and joins the gap list
(R146, R151); a full window takes neither (R144, R146). An entry that is not anchored takes no slot without a block. The out half
stands. -/
def Obligations.SlotPassReceivesBlock : Prop :=
  ∀ (n : Fin 24) (a b : BlockReading) (order : List PassStep) (p : Port) (s : State), s.holding = false →
    passAdmissible order = true → s.due (n.val + 4) = true →
    let u := atEvent (n.val + 4) s
    let m := (u.mergedBlock true a b).copy
    ∀ (o : StationNo) (tag : Tag), useAt s.table.live n.val = .owned o tag →
    ∀ st : RecvStream, (s.recv.get p).stream = some st → st.active = true → st.tag = tag →
    let becomes := fun (st' : RecvStream) =>
      ∃ t, exec (.slotPass n a b order) s = .next t ∧ t.recv.get p = { s.recv.get p with stream := some st' }
    let ofStream := fun (x : Block) =>
      x.header.resend = false ∧ x.header.index.toNat = n.val ∧ x.header.owner = o ∧ x.header.tag = tag
    let noBlock := m.isValid = false ∨ ∃ x, m = .valid x ∧ ¬ ofStream x ∧ ¬ (x.header.resend = true ∧ x.header.tag = tag)
    (st.anchor = none → noBlock → becomes st)
    ∧ ∀ an : Anchor, st.anchor = some an →
      let next := an.nextPlayout + BitVec.ofNat 16 st.window.length
      let due := s.clock.round + BitVec.ofNat 32 st.delay
      (∀ x, m = .valid x → ofStream x → x.header.gen = an.gen → x.header.seq = next →
          (st.window.length < st.cls.size → becomes { st with
            window := st.window ++ [{ block := some (x.header.fill, x.payload), seq := next, gen := an.gen, due := due }] })
          ∧ (st.window.length = st.cls.size → becomes st))
      ∧ (noBlock → st.window.length < st.cls.size → becomes { st with
            window := st.window ++ [{ block := none, seq := next, gen := an.gen, due := due }]
            gaps := joinGap next st.gaps })
      ∧ (noBlock → st.cls.size ≤ st.window.length → becomes st)

/-- A block of the stream that is not the next expected one. The first anchors an entry: its generation and sequence are current,
and it is HELD at place sequence modulo W (R142). One ahead, inside the window, leaves the sequences before it MISSING, which join
the gap list, and is HELD; beyond a window that is not empty it is discarded; beyond an empty one the entry re-anchors at it, with
BLOCKS_LOST of the sequences left out, from the next expected one on, of the current generation (R144; the next playout place after
that is the model's choice, log 10). One behind fills its place if that is MISSING and of the current generation, and leaves the gap
list, and is discarded otherwise (R145). One of another generation rebases the entry first: the gap list is empty, the window keeps
its places, the REPAIR_ASK of the entry is withdrawn, REBASED is given, and the block is the next expected one (R81, R156), which is
discarded if the window is full (R144). One of the current generation that is exactly 32 768 from the next expected sequence,
neither ahead nor behind, is discarded (R145). The events and the queue are stated of the step that takes the block, which the
receive engine runs at the pass for each port in turn. -/
def Obligations.SlotPassReceivesOutOfOrder : Prop :=
  (∀ (n : Fin 24) (a b : BlockReading) (order : List PassStep) (p : Port) (s : State), s.holding = false →
    passAdmissible order = true → s.due (n.val + 4) = true →
    let m := ((atEvent (n.val + 4) s).mergedBlock true a b).copy
    ∀ x : Block, m = .valid x → ∀ st : RecvStream, (s.recv.get p).stream = some st →
    useAt s.table.live n.val = .owned x.header.owner x.header.tag → st.active = true → st.tag = x.header.tag →
    x.header.resend = false → x.header.index.toNat = n.val → st.window.length ≤ st.cls.size →
    let seq := x.header.seq
    let becomes := fun (st' : RecvStream) =>
      ∃ t, exec (.slotPass n a b order) s = .next t ∧ t.recv.get p = { s.recv.get p with stream := some st' }
    let place := fun (content : Option (Bool × List Byte)) (q : Seq) (gen : Gen) =>
      ({ block := content, seq := q, gen := gen, due := s.clock.round + BitVec.ofNat 32 st.delay } : Place)
    let held := place (some (x.header.fill, x.payload)) seq x.header.gen
    (st.anchor = none → st.window = [] → becomes { st with
      anchor := some { gen := x.header.gen, nextPlayout := seq, nextPlace := seq.toNat % st.cls.size }, window := [held] })
    ∧ ∀ an : Anchor, st.anchor = some an →
      let next := an.nextPlayout + BitVec.ofNat 16 st.window.length
      let k := (seq - next).toNat
      let before := (List.range k).map (fun i => next + BitVec.ofNat 16 i)
      let j := (seq - an.nextPlayout).toNat
      (x.header.gen = an.gen → serialAhead next seq = true →
        (st.window.length + k < st.cls.size → becomes { st with
          window := st.window ++ before.map (fun q => place none q an.gen) ++ [held]
          gaps := before.foldl (fun g q => joinGap q g) st.gaps })
        ∧ (st.cls.size ≤ st.window.length + k → st.window ≠ [] → becomes st)
        ∧ (st.cls.size ≤ k → st.window = [] →
            becomes { st with
              anchor := some { an with nextPlayout := seq, nextPlace := (an.nextPlace + k) % st.cls.size }, window := [held] }
            ∧ ∃ t, exec (.slotPass n a b order) s = .next t ∧ t.mgmt.latched.loss = true))
      ∧ (x.header.gen = an.gen → serialAhead seq next = true →
        (∀ pl, st.window[j]? = some pl →
          (pl.block = none → pl.gen = an.gen → becomes { st with
            window := st.window.set j { pl with block := some (x.header.fill, x.payload) }, gaps := leaveGap seq st.gaps })
          ∧ (pl.block ≠ none ∨ pl.gen ≠ an.gen → becomes st))
        ∧ (st.window[j]? = none → becomes st))
      ∧ (x.header.gen ≠ an.gen → st.window.length < st.cls.size → becomes { st with
          anchor := some { an with
            gen := x.header.gen, nextPlayout := seq - BitVec.ofNat 16 st.window.length }
          window := st.window ++ [held], gaps := [] })
      ∧ (x.header.gen ≠ an.gen → st.window.length = st.cls.size → becomes { st with
          anchor := some { an with gen := x.header.gen, nextPlayout := seq - BitVec.ofNat 16 st.window.length }, gaps := [] })
      ∧ (x.header.gen = an.gen → k = 32768 → becomes st))
  ∧ (∀ (p : Port) (x : Block) (s : State) (st : RecvStream) (an : Anchor), (s.recv.get p).stream = some st →
      st.anchor = some an →
      let seq := x.header.seq
      let next := an.nextPlayout + BitVec.ofNat 16 st.window.length
      let k := (seq - next).toNat
      let held : Place :=
        { block := some (x.header.fill, x.payload), seq := seq, gen := x.header.gen, due := s.clock.round + BitVec.ofNat 32 st.delay }
      let become := fun (st' : RecvStream) => s.recv.set p { s.recv.get p with stream := some st' }
      let mine := fun (q : Queued) => q.kind == .repairAsk && q.origin == .recv p
      (x.header.gen = an.gen → k = 32768 → takeBlock p x s = s)
      ∧ (x.header.gen = an.gen → serialAhead next seq = true → st.window = [] → st.cls.size ≤ k →
        takeBlock p x s = giveEvent (.blocksLost p next k an.gen) { s with
          recv := become { st with
            anchor := some { an with nextPlayout := seq, nextPlace := (an.nextPlace + k) % st.cls.size }, window := [held] } })
      ∧ (x.header.gen ≠ an.gen → st.window.length ≤ st.cls.size →
        takeBlock p x s = giveEvent (.rebased p an.gen x.header.gen seq) { s with
          recv := become { st with
            anchor := some { an with gen := x.header.gen, nextPlayout := seq - BitVec.ofNat 16 st.window.length }
            window := if st.window.length < st.cls.size then st.window ++ [held] else st.window, gaps := [] }
          notices := { s.notices with
            queue := (s.notices.queue.filter (fun q => !mine q || q.inFlight)).map
              (fun q => if mine q then { q with withdrawn := true } else q) } }))
  ∧ (∀ (n : Nat) (p : Port) (x : Block) (v : State) (st : RecvStream), (v.recv.get p).stream = some st →
      useAt v.table.live n = .owned x.header.owner x.header.tag → st.active = true → st.tag = x.header.tag →
      x.header.resend = false → x.header.index.toNat = n →
      servePass n (.valid x) p v = takeBlock p x v ∧ takeResents (.valid x) v = v)
  ∧ (∀ (n : Nat) (m : MergedBlock) (v : State), passStep n m v .receiveEngine
      = takeResents m.copy (servePass n m.copy .p3 (servePass n m.copy .p2 (servePass n m.copy .p1 (servePass n m.copy .p0 v)))))
  ∧ ∀ (n : Fin 24) (a b : BlockReading) (order : List PassStep) (s : State), s.holding = false →
      passAdmissible order = true → s.due (n.val + 4) = true →
      let u := atEvent (n.val + 4) s
      let read := tellLevels (a.levelShown 800) (b.levelShown 800) (countHeader .b b (countHeader .a a u))
      exec (.slotPass n a b order) s = .next (beginField (5800 + 800 * n.val)
        (clearHanded n.val (order.foldl (passStep n.val (u.mergedBlock true a b)) read)))

/-- The gap list. A sequence that joins it extends the last run if it follows it, begins a new run while fewer than 16 are listed,
and is left out otherwise (R151). A sequence that leaves shrinks its run from either end, ends a run of one, and splits a run in
two, or, with 16 runs listed, cuts it off there; a run that no longer holds a sequence at or behind its ask reach is UNASKED again
(R152). At playout the MISSING sequences of the current generation leave it (R149, R152). -/
def Obligations.GapListJoinsAndLeaves : Prop :=
  (∀ (q : Seq) (gaps : List GapRun),
    let fresh : GapRun := { first := q, count := 1, asksUsed := 0, ask := none }
    (∀ (front : List GapRun) (r : GapRun), gaps = front ++ [r] →
      (r.first + BitVec.ofNat 16 r.count = q → joinGap q gaps = front ++ [{ r with count := r.count + 1 }])
      ∧ (r.first + BitVec.ofNat 16 r.count ≠ q → gaps.length < 16 → joinGap q gaps = gaps ++ [fresh])
      ∧ (r.first + BitVec.ofNat 16 r.count ≠ q → 16 ≤ gaps.length → joinGap q gaps = gaps))
    ∧ (gaps = [] → joinGap q gaps = [fresh]))
  ∧ (∀ (q : Seq) (gaps : List GapRun),
    let holds := fun (r : GapRun) => (q - r.first).toNat < r.count
    let settled := fun (r : GapRun) => match r.ask with
      | some ask => if serialAtOrBehind r.first ask.reach then r else { r with ask := none, asksUsed := 0 }
      | none => r
    ((∀ r ∈ gaps, ¬ holds r) → leaveGap q gaps = gaps)
    ∧ ∀ (front rest : List GapRun) (r : GapRun), gaps = front ++ r :: rest → (∀ y ∈ front, ¬ holds y) → holds r →
      let i := (q - r.first).toNat
      let becomes := fun (l : List GapRun) => leaveGap q gaps = front ++ l.map settled ++ rest
      (r.count = 1 → becomes [])
      ∧ (1 < r.count → i = 0 → becomes [{ r with first := r.first + 1, count := r.count - 1 }])
      ∧ (1 < r.count → i + 1 = r.count → becomes [{ r with count := r.count - 1 }])
      ∧ (0 < i → i + 1 < r.count → gaps.length < 16 →
          becomes [{ r with count := i }, { r with first := q + 1, count := r.count - (i + 1) }])
      ∧ (0 < i → i + 1 < r.count → 16 ≤ gaps.length → becomes [{ r with count := i }]))
  ∧ ∀ (gen : Gen) (pl : Place) (played : List Place) (gaps : List GapRun),
    gapsAfter gen [] gaps = gaps
    ∧ gapsAfter gen (pl :: played) gaps
      = gapsAfter gen played (if pl.block = none ∧ pl.gen = gen then leaveGap pl.seq gaps else gaps)

/-! ### The round start -/

/-- The local round start at expiry, at an edge in the early window and at an adoption without one since its edge: the round opens,
and the steps of all blocks are taken in the order that the command carries, by the mode that the station had before (R2, R8, R9,
R15, R162; an adoption tells both lanes of the levels its two readings show, as O18 states, R41, log 4, settles the round cut short
first, log 12, and takes its mark close with the other lane's copy, log 43; a pass due at the same reading is lost, log 63). The
number advances, the timer restarts with no field event occurred, a repair turn ends and nothing is driven (R1, R2, R3, R132). Each
step is the function of the statements that follow; the outgoing notice queue is prepared in JOINED alone (R75, R82, R83, R84,
R153), the HELD limit stands in FAULTED (R119), and the retained context is rewritten in JOINED, RESYNC and in DARK but with return
mode LISTENING, while it is not frozen (R176). -/
def Obligations.RoundStartRunsItsSteps : Prop :=
  ∀ (order : RoundOrder) (s : State), s.holding = false → order.admissible = true →
    let start := fun (expiry : Bool) (t : Nat) (u : State) =>
      order.steps.foldl (roundStep
        { mode := u.ctrl.mode, expiry := expiry, returnMode := u.ctrl.returnMode, sendFirst := order.sendFirst }) (openRound t u)
    (s.due 28 = true →
      let u := reach 25000 s
      exec (.roundTimerExpiry order) s = .next (driveAtExpiry u.readingOpen (start true 25000 u)))
    ∧ (∀ (l : LaneId) (r : Nat), s.acceptsEdge l r 24800 24999 = true →
        let u := (reach r s).mapLane l (fun x => { x with run := 0, dominant := true, reported := .none })
        let t := start false r { u with clock := { u.clock with capture := r } }
        exec (.earlyWindowEdge l r order) s
          = .next { t with clock := { t.clock with pacing := false, lateWindow := false, edgeTaken := true } })
    ∧ (∀ (l : LaneId) (second : MarkReading) (leadInFirst : Bool) (x : Search), (s.lanes.get l).search = some x →
        x.crossed = false → s.reaches (x.edge + 800) = true →
        let u := tellAdoption l second (reach (x.edge + 800) s)
        let other := u.lanes.get (otherLane l)
        let pattern : List TickLevel := [.dominant, .dominant, .dominant, .dominant, .passive, .dominant, .passive, .passive]
        let copy := if other.search.isSome then (if second = .ticks pattern then .valid () else .erased)
          else markCopy other false second
        let t := start false u.clock.timer (cutShort u)
        exec (.openSearchAdoption l second leadInFirst order) s
          = .next (closeMark (if l = .a then .valid () else copy) (if l = .a then copy else .valid ()) leadInFirst { t with
              clock := { t.clock with
                timer := 800, closed := 1, capture := x.edge, pacing := false, lateWindow := false, edgeTaken := true }
              lanes := t.lanes.map (fun y => { y with search := none }) }))
    ∧ (∀ (r : Nat) (u : State),
        let t := openRound r u
        t.clock = { u.clock with
          round := u.clock.round + 1, timer := 0, closed := 0, lateWindow := false, edgeTaken := false, drove := false }
        ∧ t.repair = { u.repair with turn := false } ∧ t.notices = { u.notices with sentNotice := false }
        ∧ t.drive = { content := .none, leadIn := none, lost := false, handed := none, drove := none }
        ∧ t.send = u.send.map (fun e => { e with served := none })
        ∧ (∀ l : LaneId, (t.lanes.get l).drive = .notDriving ∧ (t.lanes.get l).state = (u.lanes.get l).state
            ∧ (t.lanes.get l).contributing = (u.lanes.get l).receiveUsable
            ∧ (t.lanes.get l).admitted = (u.lanes.get l).transmitUsable)
        ∧ t.pending = u.pending ∧ t.hold = u.hold ∧ t.table = u.table ∧ t.recv = u.recv ∧ t.ctrl = u.ctrl ∧ t.mgmt = u.mgmt)
    ∧ ∀ (c : RoundCtx) (u : State),
        let atPorts := fun (f : Port → State → State) => f .p3 (f .p2 (f .p1 (f .p0 u)))
        let joined := fun (f : State → State) => if c.mode = .joined then f u else u
        roundStep c u .playout = atPorts playout ∧ roundStep c u .askWaits = atPorts endWaits
        ∧ roundStep c u .counts = countRounds c u ∧ roundStep c u .learning = learnRound c u
        ∧ roundStep c u .runs = atPorts takeRuns ∧ roundStep c u .orphans = dealOrphans u
        ∧ roundStep c u .held = (if c.mode = .faulted then u else atPorts heldRound)
        ∧ roundStep c u .monitors = monitorRound .b (monitorRound .a u) ∧ roundStep c u .heard = ageHeard u
        ∧ roundStep c u .reclaims = joined offerReclaims ∧ roundStep c u .asker = joined askRepairs
        ∧ roundStep c u .claimLimit = joined limitClaims ∧ roundStep c u .select = joined selectNotice
        ∧ roundStep c u .revalidate = joined (fun x => revalidate x.notices.queue.length x)
        ∧ roundStep c u .rewrite
          = (if (c.mode = .joined ∨ c.mode = .resync ∨ (c.mode = .dark ∧ c.returnMode ≠ some .listening))
                ∧ u.ctrl.context.frozen = false then rewriteContext u else u)

/-- Playout at a round start: the places due by now leave the window from its front, the next playout sequence advances by their
number, and a block or a loss marker is handed on for each of them in order, a FILL block silently. Of the items the out half takes
as many as it has places free, and discards the others: the first discard after an item was placed gives PORT_ERROR with its
sequence and sets the overflow run flag, which the next item placed clears. Each maximal run of consecutive places that were MISSING
and of one generation gives one BLOCKS_LOST with its first sequence, its length and its generation, in place order, so that played
blocks alone give no other event (R149, R150; that a change of generation divides a run: DEDUCED, log 18; PORT_ERROR before
BLOCKS_LOST: log 7). -/
def Obligations.PlayoutHandsDueBlocks : Prop :=
  ∀ (p : Port) (st : RecvStream) (an : Anchor) (s : State), (s.recv.get p).stream = some st → st.anchor = some an →
    let due := fun (pl : Place) => serialAtOrBehind pl.due s.clock.round
    let played := st.window.takeWhile due
    let handed := played.filterMap (fun pl => match pl.block with
      | some (true, _) => none
      | some (false, payload) => some (pl.seq, OutItem.block payload)
      | none => some (pl.seq, OutItem.lossMarker))
    (s.recv.get p).out.length ≤ 8 →
    let free := 8 - (s.recv.get p).out.length
    let t := playout p s
    let told := match handed.drop free with
      | [] => s
      | x :: _ => if 0 < free ∨ (s.recv.get p).overflow = false then giveEvent (.recvPortError p (.overflow x.1)) s else s
    (t.recv.get p).out = (s.recv.get p).out ++ (handed.take free).map (fun x => x.2)
    ∧ (t.recv.get p).stream = some { st with
        anchor := some { an with
          nextPlayout := an.nextPlayout + BitVec.ofNat 16 played.length
          nextPlace := (an.nextPlace + played.length) % st.cls.size }
        window := st.window.dropWhile due
        gaps := gapsAfter an.gen played st.gaps }
    ∧ (handed.length ≤ free → (t.recv.get p).overflow = ((s.recv.get p).overflow && handed.isEmpty))
    ∧ (free < handed.length → (t.recv.get p).overflow = true)
    ∧ ((∀ pl ∈ played, pl.block ≠ none) → t.mgmt = told.mgmt)
    ∧ (∀ (pl : Place) (rest : List Place), played = pl :: rest → (∀ x ∈ played, x.block = none ∧ x.gen = pl.gen) →
        t.mgmt = (giveEvent (.blocksLost p pl.seq played.length pl.gen) told).mgmt)
    ∧ (let missing := fun (i : Nat) => played[i]?.bind (fun x => if x.block.isNone then some x.gen else none)
      let begins := fun (i : Nat) => (missing i).isSome && (i == 0 || missing (i - 1) != missing i)
      let length := fun (i : Nat) => ((List.range (played.length - i)).takeWhile (fun j => missing (i + j) == missing i)).length
      t.mgmt = (((List.range played.length).filter begins).foldl (fun v i =>
        match played[i]? with
        | some x => giveEvent (.blocksLost p x.seq (length i) x.gen) v
        | none => v) told).mgmt)
    ∧ (∀ k, k ≠ p → t.recv.get k = s.recv.get k)
    ∧ t = { s with recv := t.recv, mgmt := t.mgmt }

/-- The controller's counts at a round start: STARTING counts 16 round starts and then leaves for FAULTED without a lane, for DARK
when every enabled lane is in SURGE, and for LISTENING otherwise (R163, R164); in LISTENING a round start at expiry advances the
alone count, and at 64 without a lock the station is JOINED with every slot OPEN and the epoch 0, its engines having checked their
entries and the retained context emptied (R73, R165, R166; log 58); in DARK the dark rounds are counted up to 64 (R169). A lane
monitor at a round start counts the rounds in state of an enabled lane, and in SURGE the continuation phase, which every 16th round
start gives SURGE_CONTINUES (R47). -/
def Obligations.ControllerCountsRounds : Prop :=
  ∀ (ctx : RoundCtx) (s : State),
    let t := countRounds ctx s
    let enabled := s.lanes.a.state ≠ .off ∨ s.lanes.b.state ≠ .off
    let allSurge := (s.lanes.a.state = .off ∨ s.lanes.a.state = .surge) ∧ (s.lanes.b.state = .off ∨ s.lanes.b.state = .surge)
    (∀ k, s.ctrl.startCount = some k → ctx.mode = .starting → k + 1 < 16 →
      t = { s with ctrl := { s.ctrl with startCount := some (k + 1) } })
    ∧ (ctx.mode = .starting → s.ctrl.startCount = some 15 →
        t.ctrl.startCount = none
        ∧ (¬ enabled → t.ctrl.mode = .faulted ∧ t.ctrl.faultReason = some .noLane)
        ∧ (enabled → allSurge → t.ctrl.mode = .dark ∧ t.ctrl.darkRounds = some 0 ∧ t.ctrl.returnMode = some .listening)
        ∧ (enabled → ¬ allSurge → t.ctrl.mode = .listening ∧ t.ctrl.alone = some 0 ∧ t.ctrl.lockTaken = some false))
    ∧ (∀ k, s.ctrl.alone = some k → ctx.mode = .listening → ctx.expiry = false → t = s)
    ∧ (∀ k, s.ctrl.alone = some k → ctx.mode = .listening → ctx.expiry = true →
        (k + 1 < 64 ∨ s.ctrl.lockTaken ≠ some false) → t = { s with ctrl := { s.ctrl with alone := some (min 64 (k + 1)) } })
    ∧ (∀ k, s.ctrl.alone = some k → ctx.mode = .listening → ctx.expiry = true → 64 ≤ k + 1 → s.ctrl.lockTaken = some false →
        let c := s.ctrl.context
        let v := { s with
          table := { s.table with live := s.table.live.map (fun _ => SlotEntry.fresh .openSlot), epoch := 0, learning := none }
          ctrl := { s.ctrl with
            alone := none, lockTaken := none, context := if c.valid then { c with records := [], valid := false } else c } }
        t = changeMode .joined .alone (tableChanged ctx.sendFirst v)
        ∧ t.ctrl.mode = .joined ∧ t.ctrl.alone = none ∧ t.ctrl.lockTaken = none ∧ t.ctrl.context.valid = false
        ∧ t.table = v.table)
    ∧ (∀ k, s.ctrl.darkRounds = some k → ctx.mode = .dark →
        t = { s with ctrl := { s.ctrl with darkRounds := some (min 64 (k + 1)) } })
    ∧ (ctx.mode = .joined ∨ ctx.mode = .resync ∨ ctx.mode = .faulted → t = s)
    ∧ ∀ l : LaneId,
        let x := s.lanes.get l
        let phase := if x.state = .surge then (x.contPhase + 1) % 16 else x.contPhase
        let y := { s with lanes := s.lanes.set l { x with rounds := min 65535 (x.rounds + 1), contPhase := phase } }
        monitorRound l s = (if x.state = .off then s
          else if x.state = .surge ∧ phase = 0 then giveEvent (.surgeContinues l x.cause (min 65535 (x.rounds + 1))) y
          else y)

/-- Learning at a round start: with an UNKNOWN entry left and fewer than 8 round starts it only counts; otherwise it completes
(R70): the learned table replaces the live table, every entry set afresh, its UNKNOWN entries OPEN, and OPEN too the carried entries
of a run that was broken, or of the pending claim when the learned epoch is not adopted; the table epoch becomes the learned one if
that is ahead, with RESYNC_DONE and the number of UNKNOWN entries; the engines check their entries, the pending claim is settled, a
station that comes from LISTENING takes the warm rejoin and forms its orphan list, and the mode is JOINED (R71, R96, R165, R177; the
order of the events: log 58). The pending claim: if the replaced table lists its whole run as the station's with its tag, it leaves
the queue, and its CLAIMING entry is LIVE with that slot run and STREAM_LIVE, a RELEASING one offers its RELEASE; if not, a
withdrawn claim leaves the queue and closes its RELEASING entry with STREAM_CLOSED, and any other stays queued, no longer pending
(R96, R110, R120; without an accept bitmap: log 19). -/
def Obligations.LearningReplacesTable : Prop :=
  (∀ (ctx : RoundCtx) (s : State) (L : Learning), s.table.learning = some L →
    let t := learnRound ctx s
    let unknownLeft := ∃ e ∈ L.table, e.use = .unknown
    let adopted := match L.epoch with
      | some x => serialAhead s.table.epoch x
      | none => false
    let dropped := fun (n : Nat) (e : LearnedEntry) => e.carried = true ∧ ∃ r ∈ L.carried,
      r.run.first ≤ n ∧ n < r.run.first + r.run.count ∧ (r.broken = true ∨ (r.pending = true ∧ adopted = false))
    let epoch := if adopted then L.epoch.getD s.table.epoch else s.table.epoch
    let replaced := giveEvent (.resyncDone epoch (L.table.filter (fun e => e.use == .unknown)).length) { s with
      table := { s.table with
        learning := none, epoch := epoch
        live := L.table.mapIdx (fun n e =>
          SlotEntry.fresh (if dropped n e ∨ e.use = .unknown then .openSlot else e.use)) } }
    let settled := settlePending (tableChanged ctx.sendFirst replaced)
    (unknownLeft → L.rounds + 1 < 8 →
      t = { s with table := { s.table with learning := some { L with rounds := L.rounds + 1 } } })
    ∧ ((¬ unknownLeft ∨ 8 ≤ L.rounds + 1) →
        t.ctrl.mode = .joined ∧ t.table = replaced.table
        ∧ (ctx.mode ≠ .listening → t = changeMode .joined .learned settled)
        ∧ (ctx.mode = .listening →
          let v := formOrphans (warmRejoin settled)
          t = changeMode .joined .learned { v with ctrl := { v.ctrl with alone := none, lockTaken := none } })))
  ∧ ∀ s : State,
    let t := settlePending s
    (s.notices.queue.find? (fun x => x.pending) = none → t = s)
    ∧ ∀ (q : Queued) (p : Port), s.notices.queue.find? (fun x => x.pending) = some q → q.origin = .send p → q.kind = .claim →
      let e := s.send.get p
      let run : Run := ⟨q.first.toNat, q.count.toNat⟩
      let record : OutcomeRecord :=
        { kind := .claim, tag := q.tag, run := q.lastSent.getD run, attempt := q.attempt, answer := none
          heard := s.table.heard.map (fun age => decide (age ≤ 255)) }
      let without := { s with notices := { s.notices with queue := s.notices.queue.filter (fun x => !x.pending) } }
      let owned := runOwned s.table.live run s.ctrl.option.station q.tag = true
      (owned → e.state = .claiming → t = giveEvent (.streamLive p record) { without with
        send := s.send.set p { e with state := .live, requested := none, claimRun := none, slotRun := some run, ring := [] } })
      ∧ (owned → e.state = .releasing → t = offerRelease p { without with
          send := s.send.set p { e with claimRun := none, slotRun := some run, releaseDue := true } })
      ∧ (owned → e.state ≠ .claiming → e.state ≠ .releasing → t = without)
      ∧ (¬ owned → q.withdrawn = true → e.state = .releasing → t = giveEvent (.streamClosed p (some record)) { without with
          send := s.send.set p { SendEntry.reset with gen := e.gen, nextSeq := e.nextSeq }
          repair := { s.repair with queue := s.repair.queue.filter (fun r => r.tag != s.tagOf p) } })
      ∧ (¬ owned → q.withdrawn = false → t = { s with notices := { s.notices with
          queue := s.notices.queue.map (fun x => { x with pending := false }) } })

/-- The outgoing notice queue at a round start. An offer joins the queue, or is answered DUPLICATE or FULL and changes nothing (R79,
R80; DUPLICATE first: log 7; ahead of a notice in flight of a higher priority value too: log 80). A CLAIM queued for 64 rounds or
more, not in flight and not pending, leaves the queue, and its CLAIMING entry is CLOSED with STREAM_REFUSED TIMEOUT and the outcome
record (R83, R102, R110), a RELEASING one with STREAM_CLOSED (R120), several in queue order (log 53; that the record of a CLAIM
never sent has no accept bitmap and the run it is queued with: logs 24 and 51). The head is revalidated against the live table and
the playout windows: a CLAIM takes the lowest run of OPEN slots of its count if its own run is not all OPEN, and leaves the queue if
there is none; a RELEASE or RECLAIM leaves it unless its run stands as it must; a REPAIR_ASK takes the first unbroken run of its
sequences that may still be asked for, and leaves if there is none; after a removal the next head is tested (R82). The head becomes
the notice in flight, stamped with the table epoch (R84). -/
def Obligations.NoticesPreparedAtRoundStart : Prop :=
  ∀ s : State,
    let withQueue := fun (l : List Queued) => ({ s with notices := { s.notices with queue := l } } : State)
    (∀ q : Queued,
      let same := fun (x : Queued) => x.kind = q.kind ∧ x.tag = q.tag ∧ (q.kind = .release → x.first = q.first ∧ x.count = q.count)
        ∧ (q.kind = .repairAsk → x.first = q.first)
      let before := fun (x : Queued) => decide (x.priority.toNat ≤ q.priority.toNat)
      offer q s = if (∃ x ∈ s.notices.queue, same x) ∨ 8 ≤ s.notices.queue.length then s
        else withQueue (s.notices.queue.takeWhile before ++ q :: s.notices.queue.dropWhile before))
    ∧ (let overdue := fun (q : Queued) => q.kind == .claim && !q.inFlight && !q.pending &&
        (match q.queuedRound with
          | some r => serialAhead r s.clock.round && decide (64 ≤ (s.clock.round - r).toNat)
          | none => false)
      let t := limitClaims s
      t.notices = (withQueue (s.notices.queue.filter (fun q => !overdue q))).notices
      ∧ (∀ p : Port, (t.send.get p) =
          if ((s.send.get p).state = .claiming ∨ (s.send.get p).state = .releasing)
            ∧ ∃ q ∈ s.notices.queue, overdue q = true ∧ q.origin = .send p
          then { SendEntry.reset with gen := (s.send.get p).gen, nextSeq := (s.send.get p).nextSeq }
          else s.send.get p)
      ∧ t.table = s.table ∧ t.recv = s.recv ∧ t.ctrl = s.ctrl
      ∧ t = (s.notices.queue.filter overdue).foldl (refuseQueued .timeout)
          (withQueue (s.notices.queue.filter (fun q => !overdue q))))
    ∧ (∀ (reason : RefuseReason) (q : Queued) (p : Port), q.origin = .send p →
        let e := s.send.get p
        let record : OutcomeRecord :=
          { kind := q.kind, tag := q.tag, run := q.lastSent.getD ⟨q.first.toNat, q.count.toNat⟩, attempt := q.attempt
            answer := match q.lastSent, s.notices.lastAnswer with
              | some _, some r => if r.read then some (r.accepts, r.dissent) else none
              | _, _ => none
            heard := s.table.heard.map (fun age => decide (age ≤ 255)) }
        let closed := { s with
          send := s.send.set p { SendEntry.reset with gen := e.gen, nextSeq := e.nextSeq }
          repair := { s.repair with queue := s.repair.queue.filter (fun r => r.tag != s.tagOf p) } }
        (e.state = .claiming → refuseQueued reason s q = giveEvent (.streamRefused p reason record) closed)
        ∧ (e.state = .releasing → refuseQueued reason s q = giveEvent (.streamClosed p (some record)) closed)
        ∧ (e.state ≠ .claiming → e.state ≠ .releasing → refuseQueued reason s q = s))
    ∧ (let prepared := fun (x : State) => revalidate x.notices.queue.length x
      (s.notices.queue = [] → prepared s = s)
      ∧ ∀ (q : Queued) (rest : List Queued), s.notices.queue = q :: rest →
        let run : Run := ⟨q.first.toNat, q.count.toNat⟩
        let removed := prepared s = prepared (withQueue rest)
        (q.kind = .claim → runOpen s.table.live run = true → prepared s = s)
        ∧ (q.kind = .claim → runOpen s.table.live run = false →
            let found := firstOpenRun s.table.live q.count.toNat
            (∀ r, found = some r → (prepared s).notices.queue = { q with first := BitVec.ofNat 16 r.first } :: rest
              ∧ ∀ p : Port, q.origin = .send p → ((prepared s).send.get p).claimRun
                  = some ⟨(BitVec.ofNat 16 r.first).toNat, q.count.toNat⟩)
            ∧ (found = none → prepared s = prepared (refuseQueued .noSlots (withQueue rest) q)))
        ∧ (q.kind = .release →
            (runOwned s.table.live run s.ctrl.option.station q.tag = true → prepared s = s)
            ∧ (runOwned s.table.live run s.ctrl.option.station q.tag = false → removed))
        ∧ (q.kind = .reclaim →
            let stands := runOwned s.table.live run q.target q.tag && runSilent s.table.live run
            (stands = true → prepared s = s) ∧ (stands = false → removed))
        ∧ ∀ p : Port, q.origin = .recv p → q.kind = .repairAsk →
            let askable := fun (i : Nat) => match (s.recv.get p).stream with
              | some st => st.askable s.clock.round (q.first + BitVec.ofNat 16 i)
              | none => false
            let found := (List.range q.count.toNat).find? askable
            (found = none → removed)
            ∧ ∀ i, found = some i →
              let n := ((List.range (q.count.toNat - i)).takeWhile (fun j => askable (i + j))).length
              prepared s = withQueue ({ q with first := q.first + BitVec.ofNat 16 i, count := BitVec.ofNat 5 n } :: rest))
    ∧ (s.notices.queue = [] → selectNotice s = s)
    ∧ ∀ (q : Queued) (rest : List Queued), s.notices.queue = q :: rest →
        selectNotice s = { s with notices := { s.notices with
          queue := { q with inFlight := true } :: rest.map (fun x => { x with inFlight := false })
          flight := some
            { leadIn := q.priority ++ s.ctrl.option.station
              body := { kind := q.kind, epoch := s.table.epoch, tag := q.tag,
                        target := if q.kind = .reclaim then q.target else 0, first := q.first, count := q.count }
              sent := ⟨false, false⟩ } } }

/-- Asks at a round start. The repair asker offers, unless a REPAIR_ASK is queued, one for the UNASKED run of an ACTIVE anchored
entry whose first sequence is due earliest, at least 8 rounds ahead, with up to 16 of its sequences: of equal ones that of the
lowest entry number, and in one entry the first in the gap list (R153; log 62). An ASKED run whose last ask is 32 rounds behind is
UNASKED again, or after three asks abandoned with REPAIR_GONE, several in the order of the gap list (R155; log 67). -/
def Obligations.AsksOfferedAndAwaited : Prop :=
  ∀ s : State,
    let now := s.clock.round
    let candidate := fun (c : AskCandidate) (i : Nat) => ∃ (st : RecvStream) (an : Anchor) (r : GapRun) (pl : Place),
      (s.recv.get c.port).stream = some st ∧ st.active = true ∧ st.anchor = some an ∧ st.gaps[i]? = some r ∧ r.ask = none
      ∧ st.window[(r.first - an.nextPlayout).toNat]? = some pl ∧ serialAhead now pl.due = true ∧ 8 ≤ (pl.due - now).toNat
      ∧ c = { port := c.port, tag := st.tag, first := r.first, count := min 16 r.count, lead := (pl.due - now).toNat }
    ((∃ q ∈ s.notices.queue, q.kind = .repairAsk) → askRepairs s = s)
    ∧ ((∀ q ∈ s.notices.queue, q.kind ≠ .repairAsk) →
        ((∀ c i, ¬ candidate c i) → askRepairs s = s)
        ∧ ∀ c j, candidate c j → ∃ d i, candidate d i
            ∧ (∀ x k, candidate x k → d.lead < x.lead
                ∨ d.lead = x.lead ∧ (portNumber d.port < portNumber x.port ∨ d.port = x.port ∧ i ≤ k))
            ∧ askRepairs s = offer
              { kind := .repairAsk, priority := 6, tag := d.tag, target := 0, first := d.first,
                count := BitVec.ofNat 5 d.count, origin := .recv d.port, attempt := 1, queuedRound := none,
                inFlight := false, withdrawn := false, pending := false, lastSent := none } s)
    ∧ (∀ p : Port, ∀ st : RecvStream, (s.recv.get p).stream = some st →
        let waited : GapRun → Bool := fun r => match r.ask with
          | some a => serialAhead a.lastRound now && decide (32 ≤ (now - a.lastRound).toNat)
          | none => false
        let gone : GapRun → Bool := fun r => waited r && decide (3 ≤ r.asksUsed)
        let t := endWaits p s
        t.recv = s.recv.set p { s.recv.get p with stream := some { st with
          gaps := (st.gaps.filter (fun r => !gone r)).map (fun r => if waited r then { r with ask := none } else r) } }
        ∧ t.mgmt = ((st.gaps.filter gone).foldl (fun v r => giveEvent (.repairGone p r.first r.count .limit) v) s).mgmt
        ∧ t = { s with recv := t.recv, mgmt := t.mgmt })
    ∧ (∀ p : Port, (s.recv.get p).stream = none → endWaits p s = s)

/-- Slot runs at a round start. The claim run of a LIVE entry becomes its slot run (R110), in an entry closed before it as well
(DEDUCED, log 20); a RELEASING entry with a RELEASE due takes its claim run as slot run and offers the RELEASE, and again while it
is answered FULL (R80, R120, R121). A HELD entry counts its rounds, and at 4096 is RELEASING from HELD with a RELEASE of its slot
run offered and HELD_RELEASED (R119). The reclaim runs are the parts of 12 of the maximal runs of one owner and tag, silent for 512
passes or more, that hold a marked entry; each is offered once as a RECLAIM, and one that is queued loses its marks (R75; in slot
order, log 50). An orphan run that is still the station's is offered as a RELEASE and stays listed only while the queue is full; any
other is dropped, in list order (R167). That a RELEASE which is queued already is answered DUPLICATE at a full queue too, a due one
and an orphan's alike, is the model's choice (log 7). -/
def Obligations.SlotRunsAtRoundStart : Prop :=
  ∀ s : State,
    (∀ p : Port,
      let e := s.send.get p
      let due := e.state = .releasing ∧ e.releaseDue = true
      let same := fun (r : Run) (x : Queued) => x.kind = .release ∧ x.tag = s.tagOf p ∧ x.first = BitVec.ofNat 16 r.first
        ∧ x.count = BitVec.ofNat 5 r.count
      (e.state ≠ .live → ¬ due → takeRuns p s = s)
      ∧ (e.state = .live → takeRuns p s = { s with send := s.send.set p { e with
          slotRun := e.claimRun.or e.slotRun, claimRun := none } })
      ∧ (due → e.claimRun.or e.slotRun = none → takeRuns p s = s)
      ∧ (∀ r, e.claimRun.or e.slotRun = some r → due →
          takeRuns p s = { s with
            notices := (offer (releaseNotice (.send p) (s.tagOf p) r) s).notices
            send := s.send.set p { e with
              slotRun := some r, claimRun := none
              releaseDue := decide (8 ≤ s.notices.queue.length ∧ ¬ ∃ x ∈ s.notices.queue, same r x) } }))
    ∧ (∀ p : Port, (s.send.get p).state ≠ .held → heldRound p s = s)
    ∧ (∀ p : Port, ∀ k : Nat, (s.send.get p).heldRounds = some k → ∀ run : Run, (s.send.get p).slotRun = some run →
        (s.send.get p).state = .held →
        (k + 1 < 4096 → heldRound p s = { s with send := s.send.set p { s.send.get p with heldRounds := some (k + 1) } })
        ∧ (4096 ≤ k + 1 →
            let t := heldRound p s
            (t.send.get p).state = .releasing ∧ (t.send.get p).releasePath = some .fromHeld
            ∧ (t.send.get p).heldRounds = none ∧ (t.send.get p).slotRun = some run
            ∧ t.notices = (offer (releaseNotice (.send p) (s.tagOf p) run) s).notices
            ∧ t.mgmt = (giveEvent (.heldReleased p run) s).mgmt))
    ∧ (offerReclaims s = (reclaimRuns s.table.live).foldl offerReclaim s)
    ∧ (s.table.live.length = 24 →
        let key := fun (n : Nat) => match s.table.live[n]? with
          | some e => (match e.use with
            | .owned o t => if 512 ≤ e.silent then some (o, t) else none
            | _ => none)
          | none => none
        let runs := reclaimRuns s.table.live
        (∀ r o t, (r, o, t) ∈ runs ↔ ∃ f c, MaximalRun key f c (o, t) ∧ IsPart f c r
            ∧ ∃ n e, r.first ≤ n ∧ n < r.first + r.count ∧ s.table.live[n]? = some e ∧ e.reclaim = true)
        ∧ runs.Pairwise (fun x y => x.1.first + x.1.count ≤ y.1.first))
    ∧ (∀ (r : Run) (o : StationNo) (t : Tag),
        let q : Queued :=
          { kind := .reclaim, priority := 1, tag := t, target := o, first := BitVec.ofNat 16 r.first,
            count := BitVec.ofNat 5 r.count, origin := .slotTable, attempt := 1, queuedRound := none, inFlight := false,
            withdrawn := false, pending := false, lastSent := none }
        offerReclaim s (r, o, t)
          = if (∃ x ∈ s.notices.queue, x.kind = .reclaim ∧ x.tag = t) ∨ 8 ≤ s.notices.queue.length then s
            else { s with
              notices := (offer q s).notices
              table := { s.table with live := s.table.live.mapIdx (fun n e =>
                if r.first ≤ n ∧ n < r.first + r.count then { e with reclaim := false } else e) } })
    ∧ (dealOrphans s = s.ctrl.orphans.foldl dealOrphan { s with ctrl := { s.ctrl with orphans := [] } })
    ∧ ∀ o : Orphan,
        let q := releaseNotice .controller o.tag o.run
        let duplicate := ∃ x ∈ s.notices.queue, x.kind = .release ∧ x.tag = q.tag ∧ x.first = q.first ∧ x.count = q.count
        dealOrphan s o =
          if runOwned s.table.live o.run s.ctrl.option.station o.tag = false then s
          else if 8 ≤ s.notices.queue.length ∧ ¬ duplicate then
            { s with ctrl := { s.ctrl with orphans := s.ctrl.orphans ++ [o] } }
          else offer q s

/-- The warm rejoin: with a valid retained context, each record whose run the replaced table lists as this station's with the
record's tag makes its entry HELD, with the record's run, priority and class and the next generation; the other entries stand, the
validity is cleared (R177), and the records that match are kept (DEDUCED, log 38). The rewrite records each LIVE or HELD entry, in
port order, with the station number, and sets the validity (R176; an entry whose slot run is not taken yet is recorded with its
claim run, log 21). The orphan list holds, in slot order, the parts of 12 of each maximal run of slots that the live table lists as
this station's with one tag and that lie in no HELD entry's slot run (R167). -/
def Obligations.WarmRejoinAndContext : Prop :=
  ∀ s : State,
    let c := s.ctrl.context
    (c.valid = false → warmRejoin s = s)
    ∧ (c.valid = true →
        let t := warmRejoin s
        let matching := c.records.filter (fun r => runOwned s.table.live r.run s.ctrl.option.station r.tag)
        t = { s with send := t.send, ctrl := { s.ctrl with context := { c with records := matching, valid := false } } }
        ∧ (∀ p : Port, (∀ r ∈ matching, r.port ≠ p) → t.send.get p = s.send.get p)
        ∧ ∀ r ∈ matching, (∀ x ∈ matching, x.port = r.port → x = r) → t.send.get r.port =
            { state := .held, priority := some r.priority, requested := none, claimRun := none, slotRun := some r.run,
              releasePath := none, gen := r.gen + 1, nextSeq := 0, cls := some r.cls, ring := [], heldRounds := some 0,
              fifo := [], assembly := none, overrun := false, releaseDue := false, served := none })
    ∧ (let record := fun (p : Port) =>
        let e := s.send.get p
        match (if e.state = .live ∨ e.state = .held then e.slotRun.or e.claimRun else none), e.priority, e.cls with
        | some run, some priority, some cls =>
          [({ port := p, tag := s.tagOf p, run := run, priority := priority, gen := e.gen, cls := cls } : ContextRecord)]
        | _, _, _ => []
      rewriteContext s = { s with ctrl := { s.ctrl with context :=
        { station := s.ctrl.option.station, records := record .p0 ++ record .p1 ++ record .p2 ++ record .p3, valid := true,
          frozen := c.frozen } } })
    ∧ (let t := formOrphans s
      let held := fun (n : Nat) => ∃ p : Port, (s.send.get p).state = .held
        ∧ ∃ r : Run, (s.send.get p).slotRun = some r ∧ r.first ≤ n ∧ n < r.first + r.count
      t = { s with ctrl := { s.ctrl with orphans := t.ctrl.orphans } }
      ∧ (s.table.live.length = 24 → ∀ key : Nat → Option Tag,
          (∀ n g, key n = some g ↔ useAt s.table.live n = .owned s.ctrl.option.station g ∧ ¬ held n) →
          (∀ o : Orphan, o ∈ t.ctrl.orphans ↔ ∃ f c, MaximalRun key f c o.tag ∧ IsPart f c o.run)
          ∧ t.ctrl.orphans.Pairwise (fun x y => x.run.first + x.run.count ≤ y.run.first)))

/-! ### The lane monitors -/

/-- The window close judges each enabled lane, at the 256th tick and nowhere else (R37): noisy is a violation counter at the
threshold of the chatter class or above; CLEAR goes to SUSPECT on a noisy window, SUSPECT to SURGE with cause CHATTER or back to
CLEAR, SURGE to SETTLING on a window neither noisy nor held, SETTLING to SURGE on a noisy one and to CLEAR when an exit count is met
and no echo check is owed; the counters restart, and a run of 1200 or more holds the new window (R37, R40, R42, R48, R50, R51). An
entry into SURGE has the effects of R44 and R46, and the violation of its cut counts in the window that closes; an entry into
SETTLING keeps a cause only while the echo check is owed, then ECHO_LATE; with it, and with an entry into CLEAR or SUSPECT, which
have no cause, the rounds in state and both counts are 0 (R42, R48, R51). A lane that keeps its state keeps its cause and counts but
for the quiet-window count. The lanes that contribute to the field stand (R48), and each change of state gives LANE_CHANGED, in the
order in which the lanes are taken (R53; log 7). The dominant-run timer counts in the model; where the command's operand differs
from it, the run is the one that the operand shows, and above 1200 it has given its long run in the window that closes (R41; log
4). -/
def Obligations.WindowCloseJudgesLanes : Prop :=
  ∀ (first : LaneId) (runA runB : Nat) (r : Nat) (s : State), s.holding = false → s.reaches r = true →
    let u := reach r s
    let started := { u with clock := { u.clock with phase := 0 } }
    (u.clock.phase ≠ 100 → exec (.windowClose first runA runB r) s = .next u)
    ∧ (u.clock.phase = 100 →
      ∃ t, exec (.windowClose first runA runB r) s = .next t ∧ t.clock = started.clock ∧ State.LanesAside started t
        ∧ (let told := fun (l : LaneId) (v : State) =>
            let x := u.lanes.get l
            let y := t.lanes.get l
            if y.state = x.state then v else giveEvent (.laneChanged l x.state y.state y.cause) v
          (∃ k, (u.lanes.get k).enabled = true ∧ (u.lanes.get k).state ≠ .surge ∧ (t.lanes.get k).state ≠ .surge) →
            t.mgmt = (told (otherLane first) (told first u)).mgmt)
        ∧ ∀ l : LaneId,
          let x := u.lanes.get l
          let y := t.lanes.get l
          let run := match l with
            | .a => runA
            | .b => runB
          let noisy := 4 * 2 ^ s.ctrl.option.chatter.toNat ≤ x.violations
          let held := x.windowHeld = true ∨ (run ≠ x.run ∧ 1200 < run)
          let counts := fun (cause : Option SurgeCause) (rounds quiet marks : Nat) =>
            y.cause = cause ∧ y.rounds = rounds ∧ y.quiet = quiet ∧ y.marks = marks
          y.contributing = x.contributing
          ∧ (x.state = .off → y.state = .off ∧ y.windowCounter = x.windowCounter ∧ y.violations = x.violations ∧ y.run = x.run)
          ∧ (x.state ≠ .off → y.windowCounter = 0 ∧ y.violations = 0
              ∧ (run = x.run → y.run = x.run ∧ y.dominant = x.dominant ∧ y.reported = x.reported)
              ∧ (run ≠ x.run → y.run = min 50000 run ∧ y.dominant = decide (0 < run)
                  ∧ y.reported = (if run ≤ 1200 then .none else .long))
              ∧ y.windowHeld = decide (1200 ≤ y.run))
          ∧ (x.state = .clear → noisy → y.state = .suspect ∧ counts none 0 0 0)
          ∧ (x.state = .clear → ¬ noisy → y.state = .clear ∧ counts x.cause x.rounds x.quiet x.marks)
          ∧ (x.state = .suspect → noisy → Lane.EntersSurge .chatter x y)
          ∧ (x.state = .suspect → ¬ noisy → y.state = .clear ∧ counts none 0 0 0)
          ∧ (x.state = .surge → noisy ∨ held → y.state = .surge ∧ counts x.cause x.rounds x.quiet x.marks)
          ∧ (x.state = .surge → ¬ (noisy ∨ held) →
              y.state = .settling ∧ counts (if x.echoOwed then some .echoLate else none) 0 0 0)
          ∧ (x.state = .settling → noisy → Lane.EntersSurge .chatter x y)
          ∧ (x.state = .settling → ¬ noisy → x.echoOwed = false → (4 ≤ x.marks ∨ 31 ≤ x.quiet) →
              y.state = .clear ∧ counts none 0 0 0)
          ∧ (x.state = .settling → ¬ noisy → ¬ (x.echoOwed = false ∧ (4 ≤ x.marks ∨ 31 ≤ x.quiet)) →
              y.state = .settling ∧ counts x.cause x.rounds (min 32 (x.quiet + 1)) x.marks))

/-- A long run is given once in each dominant run of an enabled lane, or in a new run whose beginning no command showed, when the
one counted has lasted 2400 units (log 4): it holds the window, puts a usable lane into SURGE with cause LONG, its counts 0, its
drive cut and one violation counted for it (R38, R44, R46), and turns the causes CHATTER, DRIVE and ECHO_LATE of a SURGE lane into
LONG; a held run follows it in the same run, when the timer has counted to 50 000, and turns LONG into HELD (R41, R43, R45; that
LONG_RUN sets the timer to 1200 is log 4). A framed violation is counted, where one can arise, once per field while the station is
aligned, and a change of level in a guard interval apart from its field's (R20, R38; DEDUCED, log 25); the activity of a lane counts
its free violations while the station is not aligned, all at the command (R39; log 45), and a passive end of it ends the dominant
run, a rise in it gives the run since, and a lane dominant throughout it has run for as long (R41; log 4); an OFF lane counts
nothing (R36). A change of level in a guard interval ends a dominant run or begins one (R41). The reading of a field
ends, at the field's close, a run that reaches back to the last moment at which it shows the lane passive, wherever in the field the
run began, and lets a later one go on; a field dominant throughout is a run of that length at the least (R41; log 4). The last
passive moment lies in the last unit of a passive field, in the sample of the last mark tick that is not dominant (R5), in the last
symbol of a notice or block that was read whole and may begin 40 units early (R20), and in the last 20 units of the last answer
position that does not read dominant (R31). -/
def Obligations.MonitorsTakeRunsAndViolations : Prop :=
  (∀ (l : LaneId) (r : Nat) (s : State), s.holding = false → s.reaches r = true →
    let u := reach r s
    let x := u.lanes.get l
    let become := fun (y : Lane) => ({ u with lanes := u.lanes.set l y } : State)
    let long := { x with run := 1200, dominant := true, reported := .long, windowHeld := true }
    let passive := { x with run := 0, dominant := false, reported := .none }
    let counted := if 1 ≤ s.clock.validCount ∧ x.state ≠ .off then min 255 (x.violations + 1) else x.violations
    let changed := if x.dominant then passive
      else if x.state ≠ .off then { x with run := 0, dominant := true, reported := .none } else x
    let first := x.state ≠ .off ∧ (x.reported = .none ∨ 2400 ≤ x.run)
    let guarded := (3500 ≤ r ∧ r < 3600) ∨ (5000 ≤ r ∧ r < 24200 ∧ (r - 5000) % 800 < 100) ∨ (24200 ≤ r ∧ r < 24800)
    let coded := (800 ≤ r ∧ r < 1800) ∨ (3600 ≤ r ∧ r < 24200)
    (¬ first → exec (.longRun l r) s = .next u)
    ∧ (first → x.state ≠ .surge →
        ∃ t, exec (.longRun l r) s = .next t ∧ Lane.EntersSurge .long x (t.lanes.get l)
          ∧ (t.lanes.get l).violations = x.violationsCut ∧ (t.lanes.get l).windowCounter = x.windowCounter
          ∧ (t.lanes.get l).run = 1200 ∧ (t.lanes.get l).dominant = true ∧ (t.lanes.get l).reported = .long
          ∧ (t.lanes.get l).windowHeld = true ∧ State.SurgesOn l x.state .long u t)
    ∧ (first → x.state = .surge → x.cause = some .chatter ∨ x.cause = some .drive ∨ x.cause = some .echoLate →
        exec (.longRun l r) s = .next (giveEvent (.laneChanged l .surge .surge (some .long))
          (become { long with cause := some .long })))
    ∧ (first → x.state = .surge → x.cause ≠ some .chatter → x.cause ≠ some .drive → x.cause ≠ some .echoLate →
        exec (.longRun l r) s = .next (become long))
    ∧ (¬ (x.reported = .long ∧ x.run = 50000) → exec (.heldRun l r) s = .next u)
    ∧ (x.reported = .long → x.run = 50000 → x.state = .surge → x.cause = some .long →
        exec (.heldRun l r) s = .next (giveEvent (.laneChanged l .surge .surge (some .held))
          (become { x with reported := .held, windowHeld := true, cause := some .held })))
    ∧ (x.reported = .long → x.run = 50000 → ¬ (x.state = .surge ∧ x.cause = some .long) →
        exec (.heldRun l r) s = .next (become { x with reported := .held, windowHeld := true }))
    ∧ exec (.codeViolation l .field r) s = .next (if coded ∧ x.fieldFlaw = false then
        become { x with fieldFlaw := true, violations := counted } else u)
    ∧ exec (.codeViolation l .mark r) s = .next (if r < 800 ∧ x.fieldFlaw = false then
        become { x with fieldFlaw := true, violations := counted } else u)
    ∧ exec (.codeViolation l .guardInterval r) s = .next (if guarded then
        (if x.guardFlaw then become changed else become { changed with guardFlaw := true, violations := counted }) else u)
    ∧ (∀ activity : List LevelRun,
        let now := s.lanes.get l
        let violations := if s.clock.validCount = 0 then min 255 (now.violations + freeViolations activity) else now.violations
        let become := fun (y : Lane) => exec (.uncleanStretch l activity) s = .next { s with lanes := s.lanes.set l y }
        let judged := { now with violations := violations }
        let ran := fun (n : Nat) => { judged with
          run := min 50000 n, dominant := true, reported := if n ≤ 1200 then .none else .long
          windowHeld := now.windowHeld || decide (1200 < n) }
        (now.state = .off → exec (.uncleanStretch l activity) s = .next s)
        ∧ (now.state ≠ .off →
            (runShown activity = .passiveWithin 0 → become { judged with run := 0, dominant := false, reported := .none })
            ∧ (∀ n, runShown activity = .risen n → become (if n = now.run then { judged with dominant := true } else ran n))
            ∧ (∀ n, runShown activity = .dominantFor n → become (if n ≤ now.run then judged else ran n)))))
  ∧ (∀ s t : State, s.holding = false →
      let told := fun (k : Nat) (a b : LevelShown) =>
        Lane.Told a (atEvent k s).lanes.a t.lanes.a ∧ Lane.Told b (atEvent k s).lanes.b t.lanes.b
      (∀ (a b : MarkReading) (leadInFirst : Bool), s.due 0 = true → exec (.markClose a b leadInFirst) s = .next t →
        told 0 (a.levelShown 800) (b.levelShown 800))
      ∧ (∀ (a b : NoticeReading) (order : CloseOrder), s.due 1 = true → exec (.noticeWindowClose a b order) s = .next t →
        told 1 a.levelShown b.levelShown)
      ∧ (∀ (a b : AnswerReading) (sendFirst : Bool), s.due 2 = true → exec (.answerClose a b sendFirst) s = .next t →
        told 2 a.levelShown b.levelShown)
      ∧ (∀ (a b : BlockReading), s.due 3 = true → exec (.repairWindowClose a b) s = .next t →
        told 3 (a.levelShown 1400) (b.levelShown 1400))
      ∧ ∀ (n : Fin 24) (a b : BlockReading) (order : List PassStep), s.due (n.val + 4) = true →
        exec (.slotPass n a b order) s = .next t → told (n.val + 4) (a.levelShown 800) (b.levelShown 800))
  ∧ (∀ levels : List TickLevel, (∀ x ∈ levels, x = .dominant) → (MarkReading.ticks levels).levelShown 800 = .nothing)
  ∧ (∀ (before : List TickLevel) (x : TickLevel) (j : Nat), x ≠ .dominant → before.length + 1 + j = 8 →
      (MarkReading.ticks (before ++ x :: List.replicate j .dominant)).levelShown 800 = .passiveWithin (100 * j + 60))
  ∧ (∀ (leadIn : BitVec 7) (body : BitVec 48) (check : BitVec 16),
      (NoticeReading.frame leadIn body check).levelShown = .passiveWithin 324)
  ∧ (∀ (header : BitVec 64) (check : BitVec 16) (payload : List Byte) (blockCheck : BitVec 32) (field : Nat), payload.length ≤ 256 →
      (BlockReading.frame header check payload blockCheck).levelShown field = .passiveWithin (712 - 2 * payload.length))
  ∧ (∀ r : AnswerReading,
      (r.dissent = false → r.levelShown = .passiveWithin 20)
      ∧ (∀ k : Fin 16, r.dissent = true → r.accepts.getLsbD k.val = false →
          (∀ i : Fin 16, k < i → r.accepts.getLsbD i.val = true) → r.levelShown = .passiveWithin (1620 - 100 * k.val))
      ∧ (r.dissent = true → (∀ i : Fin 16, r.accepts.getLsbD i.val = true) → r.levelShown = .nothing))
  ∧ MarkReading.passiveThroughout.levelShown 800 = .passiveWithin 1
  ∧ MarkReading.dominantThroughout.levelShown 800 = .dominantFor 800
  ∧ MarkReading.other.levelShown 800 = .passiveWithin 800
  ∧ NoticeReading.passiveThroughout.levelShown = .passiveWithin 1
  ∧ NoticeReading.dominantThroughout.levelShown = .dominantFor 1000
  ∧ NoticeReading.other.levelShown = .passiveWithin 1000
  ∧ ∀ field : Nat, BlockReading.passiveThroughout.levelShown field = .passiveWithin 1
      ∧ BlockReading.dominantThroughout.levelShown field = .dominantFor field
      ∧ BlockReading.other.levelShown field = .passiveWithin field

/-- The DARK condition. When the last enabled lane out of SURGE enters it, a station in LISTENING, JOINED or RESYNC enters DARK
with that mode as return mode: learning, the flight, the answer plan and the repair turn end, and the dark rounds begin at 0,
whichever cause put the lane there: a long run, a late echo, a noisy window or a drive fault (R43, R54, R103, R132, R169); a
roll call goes on, since its answers are heard in every mode (R65, R97). When a lane leaves SURGE for SETTLING the station
leaves DARK: to JOINED if it came from there, fewer than 64 dark rounds have passed and no claim is pending; otherwise from
JOINED or RESYNC to RESYNC, learning from its own epoch; and to LISTENING if it came from there, with its alone count at 0 and
no lock taken (R66, R170). -/
def Obligations.DarkBeginsAndEnds : Prop :=
  ∀ (l : LaneId) (r : Nat) (s : State), s.holding = false → s.reaches r = true →
    let u := reach r s
    let x := u.lanes.get l
    let y := u.lanes.get (otherLane l)
    (x.state = .clear ∨ x.state = .suspect ∨ x.state = .settling → x.reported = .none → y.state = .off ∨ y.state = .surge →
      s.ctrl.mode = .listening ∨ s.ctrl.mode = .joined ∨ s.ctrl.mode = .resync →
      ∃ t, exec (.longRun l r) s = .next t
        ∧ t.ctrl.mode = .dark ∧ t.ctrl.darkRounds = some 0 ∧ t.ctrl.returnMode = some s.ctrl.mode ∧ t.ctrl.alone = none
        ∧ t.ctrl.lockTaken = none ∧ t.table.learning = none ∧ t.notices.flight = none ∧ t.notices.plan = none
        ∧ t.notices.tentative = none ∧ t.repair.turn = false ∧ t.table.live = s.table.live
        ∧ t.mgmt.latched.surge = true)
    ∧ (∀ c : Instr,
        c = .longRun l r ∨ c = .echoLate l r ∨ (∃ first runA runB, c = .windowClose first runA runB r)
          ∨ (∃ field tick, c = .driveFault field tick l) →
        let allSurge := fun (v : State) => (∃ k, (v.lanes.get k).state ≠ .off)
          ∧ ∀ k, (v.lanes.get k).state = .off ∨ (v.lanes.get k).state = .surge
        ∀ t, exec c s = .next t → ¬ allSurge s → allSurge t →
          s.ctrl.mode = .listening ∨ s.ctrl.mode = .joined ∨ s.ctrl.mode = .resync →
          t.ctrl = { s.ctrl with
            mode := .dark, darkRounds := some 0, returnMode := some s.ctrl.mode, alone := none, lockTaken := none, startCount := none }
          ∧ t.table = { s.table with learning := none } ∧ t.repair.turn = false ∧ t.mgmt.latched.surge = true
          ∧ t.notices.flight = none ∧ t.notices.plan = none ∧ t.notices.tentative = none
          ∧ t.notices.rollCall = s.notices.rollCall
          ∧ (∀ q ∈ t.notices.queue, q.inFlight = false) ∧ t.recv = s.recv ∧ t.hold = s.hold ∧ t.pending = s.pending)
    ∧ ∀ (first : LaneId) (runA runB : Nat), u.clock.phase = 100 → x.state = .surge →
      y.state = .off ∨ y.state = .surge →
      let told := match l with
        | .a => runA
        | .b => runB
      told = x.run ∨ told ≤ 1200 →
      x.violations < 4 * 2 ^ s.ctrl.option.chatter.toNat → x.windowHeld = false → s.ctrl.mode = .dark →
      ∀ back : Mode, s.ctrl.returnMode = some back → ∀ spell : Nat, s.ctrl.darkRounds = some spell →
      let claims := (∃ q ∈ u.notices.queue, q.pending = true)
      ∃ t, exec (.windowClose first runA runB r) s = .next t
        ∧ (t.lanes.get l).state = .settling ∧ t.ctrl.darkRounds = none ∧ t.ctrl.returnMode = none
        ∧ (back = .joined → spell < 64 → ¬ claims → t.ctrl.mode = .joined ∧ t.table = s.table)
        ∧ (back = .joined ∧ (64 ≤ spell ∨ claims) ∨ back = .resync → t.ctrl.mode = .resync
            ∧ ∃ L, t.table.learning = some L ∧ L.epoch = some s.table.epoch ∧ L.rounds = 0)
        ∧ (back = .listening → t.ctrl.mode = .listening ∧ t.ctrl.alone = some 0 ∧ t.ctrl.lockTaken = some false
            ∧ t.table = s.table)

/-! ### Results of a field, and the code of a lane -/

/-- The copies of a lane and the merged results. A copy is IDLE on a contributing lane that was passive throughout; VALID on one
that read a frame with no violation and good checks; otherwise ERASED (R31, R193). A merged slot or repair window is VALID with the
VALID copy, lane A's if both are; IDLE if every contributing lane is IDLE and one is; otherwise ERASED; it carries the contributing
lanes, the lanes with a VALID copy, and whether the station drove in the field (R32). A merged notice is VALID with the one notice
read, DIVERGENT if two differ, and otherwise as a slot (R33). The merged answer field is read if some lane was receive-usable for
all of it, and a position is taken if a contributing lane usable throughout it read it (R34). -/
def Obligations.MergedResults : Prop :=
  (∀ (x : Lane) (r : NoticeReading),
    let whole := x.contributing = true ∧ x.lostAt = none
    (noticeCopy x r = .idle ↔ whole ∧ r = .passiveThroughout)
    ∧ ∀ n : Notice, noticeCopy x r = .valid n ↔ whole ∧ x.fieldFlaw = false
        ∧ ∃ body, r = .frame n.leadIn body (noticeCheck n.leadIn body) ∧ n.body = NoticeBody.ofBits body)
  ∧ (∀ (x : Lane) (inSlot : Bool) (r : BlockReading),
    let whole := x.contributing = true ∧ x.lostAt = none ∧ (inSlot = true → x.guardFlaw = false)
    (blockCopy inSlot x r = .idle ↔ whole ∧ r = .passiveThroughout)
    ∧ ∀ b : Block, blockCopy inSlot x r = .valid b ↔ whole ∧ x.fieldFlaw = false ∧ b.check = check32 b.payload
        ∧ b.payload.length = b.header.length.toNat ∧ b.header.length.toNat ≤ 256
        ∧ (b.header.fill = true → b.header.length = 0)
        ∧ ∃ head, r = .frame head (headerCheckOf head) b.payload b.check ∧ b.header = BlockHeader.ofBits head)
  ∧ (∀ (s : State) (inSlot : Bool) (a b : BlockReading),
    let m := s.mergedBlock inSlot a b
    let x := blockCopy inSlot s.lanes.a a
    let y := blockCopy inSlot s.lanes.b b
    let bothIdle := (x = .idle ∨ s.lanes.a.contributing = false) ∧ (y = .idle ∨ s.lanes.b.contributing = false)
      ∧ (x = .idle ∨ y = .idle)
    m.contributing = ⟨s.lanes.a.contributing, s.lanes.b.contributing⟩ ∧ m.validOn = ⟨x.isValid, y.isValid⟩
    ∧ m.drove = (s.lanes.a.drove || s.lanes.b.drove)
    ∧ (∀ p, x = .valid p → m.copy = .valid p) ∧ (∀ p, x.isValid = false → y = .valid p → m.copy = .valid p)
    ∧ (x.isValid = false → y.isValid = false → (bothIdle → m.copy = .idle) ∧ (¬ bothIdle → m.copy = .erased)))
  ∧ (∀ (s : State) (a b : NoticeReading),
    let m := s.mergedNotice a b
    let x := noticeCopy s.lanes.a a
    let y := noticeCopy s.lanes.b b
    let bothIdle := (x = .idle ∨ s.lanes.a.contributing = false) ∧ (y = .idle ∨ s.lanes.b.contributing = false)
      ∧ (x = .idle ∨ y = .idle)
    (∀ p q, x = .valid p → y = .valid q → (p = q → m = .valid p) ∧ (p ≠ q → m = .divergent p q))
    ∧ (∀ p, x = .valid p → y.isValid = false → m = .valid p) ∧ (∀ p, x.isValid = false → y = .valid p → m = .valid p)
    ∧ (x.isValid = false → y.isValid = false → (bothIdle → m = .idle) ∧ (¬ bothIdle → m = .erased)))
  ∧ ∀ (ls : PerLane Lane) (a b : AnswerReading),
    let ans := mergeAnswers ls a b
    let until_ := fun (x : Lane) (t : Nat) => x.contributing = true ∧ ∀ c, x.lostAt = some c → t ≤ c
    (ans.read = true ↔ until_ ls.a 3500 ∨ until_ ls.b 3500)
    ∧ (ans.read = false → ans.accepts = 0 ∧ ans.dissent = false)
    ∧ (ans.read = true →
        (∀ p : Fin 16, ans.accepts.getLsbD p.val = true ↔
          (until_ ls.a (1900 + 100 * p.val) ∧ a.accepts.getLsbD p.val = true)
          ∨ (until_ ls.b (1900 + 100 * p.val) ∧ b.accepts.getLsbD p.val = true))
        ∧ (ans.dissent = true ↔ (until_ ls.a 3500 ∧ a.dissent = true) ∨ (until_ ls.b 3500 ∧ b.dissent = true)))

/-- The stretches of a lane's activity (R39). Activity whose levels all hold for 30 units or more, as ticks do, has no stretch.
Between two steady levels the levels held for less make one stretch. It is clean if every level resolves into line elements, and its
elements, the three with which a start symbol opens after a dominant level and those after the last change supplied, are a start
symbol and whole symbols of the code; an unclean one counts one violation and one more for each full 100 units, from its first
change to its last (log 45), beyond the first 100. Stretches on the two sides of a steady level count apart. What activity shows of
the dominant run depends on its levels alone: after the last passive level of 2 ns or more, one line element, the levels are one
run, which shorter passive levels do not break, and no run if nothing follows; with no such passive level the lane was dominant
throughout (R41; log 4 for the count of a shorter passive level as dominant). -/
def Obligations.StretchesCountFreeViolations : Prop :=
  (∀ activity : List LevelRun, (∀ r ∈ activity, 300 ≤ r.length) → freeViolations activity = 0)
  ∧ (∀ (before after : LevelRun) (levels : List LevelRun), 300 ≤ before.length → 300 ≤ after.length → levels ≠ [] →
      (∀ r ∈ levels, 0 < r.length ∧ r.length < 300) →
      List.IsChain (fun (x y : LevelRun) => x.dominant ≠ y.dominant) (before :: levels ++ [after]) →
      let activity := before :: levels ++ [after]
      let seen := (if before.dominant then [true, true, true] else [])
        ++ levels.flatMap (fun r => List.replicate (r.length / 2) r.dominant)
      let clean := (∀ r ∈ levels, r.length % 2 = 0) ∧ ∃ (bytes : List Byte) (rest : Nat), rest < 10
        ∧ seen ++ List.replicate rest after.dominant = fieldElements bytes
      (clean → freeViolations activity = 0)
      ∧ (¬ clean → freeViolations activity = 1 + ((levels.map (fun r => r.length)).sum - 1000) / 1000))
  ∧ (∀ (earlier later : List LevelRun) (steady : LevelRun), 300 ≤ steady.length →
      freeViolations (earlier ++ steady :: later) = freeViolations (earlier ++ [steady]) + freeViolations (steady :: later))
  ∧ (∀ x y : List LevelRun,
      let carried := fun (l : List LevelRun) => l.flatMap (fun r => List.replicate r.length r.dominant)
      carried x = carried y → runShown x = runShown y)
  ∧ ∀ later : List LevelRun, (∀ r ∈ later, 0 < r.length ∧ (r.dominant = false → r.length < 2)) →
      List.IsChain (fun (x y : LevelRun) => x.dominant ≠ y.dominant) later →
      let units := (later.map (fun r => r.length)).sum / 10
      runShown later = .dominantFor units
      ∧ ∀ (earlier : List LevelRun) (passive : LevelRun), passive.dominant = false → 2 ≤ passive.length →
          (∀ r, later.head? = some r → r.dominant = true) →
          runShown (earlier ++ passive :: later) = (if later = [] then .passiveWithin 0 else .risen units)

/-- The code of a lane. Each half of a byte has its pattern, and no two bytes one symbol, nor the start symbol (R190). The elements
of a fast-rate field whose first lies within 40 units of its nominal start read back its bytes; one farther off, a pattern that is
not in the code, a change of level inside an element and a place that is passive throughout are its four code violations (R20). A
notice and a block that a station drives so are read as sent. A tick of a mark is dominant or passive if the lane is so throughout
its sample, 40 to 60 units after it begins, and a code violation otherwise; a mark is read as eight ticks from its candidate edge,
and without one as the mark field was, passive throughout or not (R5), dominant throughout if no passive level of 2 ns or more, one
line element, broke it (R41). An answer position reads dominant if the lane is dominant for
20 continuous units within it (R31). A lane is passive beyond the levels given. A mark is dominant in its ticks 1 to 4 and 6, a
lead-in tick of bit 0 throughout, an answer position in its units 0 to 49 (R4, R19, R25), and a lane that does not contend or drive
carries no level of the station's (R22). -/
def Obligations.LaneLevelsReadAndDriven : Prop :=
  let levels := fun (bytes : List Byte) => (fieldElements bytes).map (fun d => ({ dominant := d, length := 2 } : LevelRun))
  ((List.range 16).map (fun v => halfPattern (BitVec.ofNat 4 v))
    = [0b10100, 0b10010, 0b10001, 0b01100, 0b01010, 0b01001, 0b00110, 0b00101, 0b11010, 0b11001, 0b10110, 0b10101, 0b10011,
       0b01110, 0b01101, 0b01011])
  ∧ (∀ b : Byte, symbolOf b = halfPattern (b.extractLsb' 4 4) ++ halfPattern (b.extractLsb' 0 4)
      ∧ byteOfSymbol (symbolOf b) = some b)
  ∧ startSymbol = 0b1110000111 ∧ byteOfSymbol startSymbol = none
  ∧ (∀ (bytes : List Byte) (off : Nat),
      decodeField bytes.length off (levels bytes) = (if off ≤ 40 then .ok bytes else .error .startMissing))
  ∧ (∀ (n off : Nat) (run : LevelRun) (rest : List LevelRun), run.length % 2 = 1 → run.length < 20 * (n + 1) →
      decodeField n off (run :: rest) = .error .unresolved)
  ∧ (∀ (n : Nat) (elements : List Bool),
      let passive := (elements.take 10).all (fun d => !d)
      (passive = true → readSymbols (n + 1) elements = .error .passiveSymbol)
      ∧ (passive = false → (∀ b : Byte, symbolOf b ≠ patternOf elements) → readSymbols (n + 1) elements = .error .notInCode))
  ∧ (∀ (f : Flight) (off : Nat), off ≤ 40 → readNotice f.leadIn off (levels f.bytes) = f.asRead)
  ∧ (∀ (b : Block) (off : Nat), off ≤ 40 → b.header.length.toNat = b.payload.length → b.payload.length ≤ 256 →
      (b.header.fill = true → b.payload = []) → readBlock off (levels b.bytes) = b.asRead)
  ∧ (∀ (runs field : List LevelRun),
      let level := fun (l : List LevelRun) (ns : Nat) => (l.flatMap (fun r => List.replicate r.length r.dominant)).getD ns false
      (∀ start : Nat,
        (readTick start runs = .dominant ↔ ∀ i, i < 200 → level runs (start + 400 + i) = true)
        ∧ (readTick start runs = .passive ↔ ∀ i, i < 200 → level runs (start + 400 + i) = false)
        ∧ (readPosition start runs = true ↔ ∃ i, i + 200 ≤ 1000 ∧ ∀ j, j < 200 → level runs (start + i + j) = true))
      ∧ readMark (some runs) field = .ticks ((List.range 8).map (fun k => readTick (1000 * k) runs))
      ∧ (let carried := field.flatMap (fun r => List.replicate r.length r.dominant)
        let broken := ∃ ns, carried[ns]? = some false ∧ carried[ns + 1]? = some false
        (readMark none field = .passiveThroughout ↔ ∀ d ∈ carried, d = false)
        ∧ (readMark none field = .dominantThroughout ↔ true ∈ carried ∧ ¬ broken)
        ∧ (readMark none field = .other ↔ true ∈ carried ∧ broken))
      ∧ (∀ p : Fin 16, (readAnswers runs).accepts.getLsbD p.val = readPosition (1000 * p.val) runs)
      ∧ (readAnswers runs).dissent = readPosition 16000 runs)
  ∧ ∀ (s : State) (l : LaneId) (t : Nat) (k : Fin 5),
      let out := (s.lanes.get l).drive
      let driven := s.drivenLevel l t k
      (out ≠ .contending → out ≠ .driving → driven = false)
      ∧ (out = .driving → s.drive.content = .mark → driven = [0, 1, 2, 3, 5].contains (t / 100))
      ∧ (∀ (v : BitVec 7) (i : Fin 7), s.drive.leadIn = some v → s.drive.content = .leadIn .noticeWindow → out = .contending →
          800 + 100 * i.val ≤ t → t < 900 + 100 * i.val → driven = !v.getLsbD (6 - i.val))
      ∧ (∀ a, s.answerAt = some a → s.drive.content = .accept ∨ s.drive.content = .dissent → out = .driving →
          a ≤ t → t < a + 100 → driven = decide (t < a + 50))
      ∧ (∀ b, s.drive.content = .block b → out = .driving → blockStart b ≤ t →
          driven = (fieldElements b.bytes).getD (5 * (t - blockStart b) + k.val) false)

/-! ### Invariants and formats -/

/-- The state after reset (log 1) satisfies the three invariants that O58 to O60 state of every step. -/
def Obligations.ResetStateSatisfiesInvariants : Prop :=
  State.reset.Bounded ∧ State.reset.ModeFields ∧ State.reset.StoreFits

/-- A notice and a block driven as the formats say, and read clean on a contributing lane, are read VALID with every field as it was
driven; whatever the pad bits of a body or a header hold, the fields read are the same (sections 11.3 and 11.4, R31, R193). The
checks are registers loaded with all ones, into which the covered bits are shifted, most significant bit of each byte first: at each
bit the register moves left by one, and the generator is added if the bit that leaves differs from the bit that comes in; the notice
check covers a 0 bit, the lead-in value and the body, the header check the header body, the block check the payload (R191, R192). -/
def Obligations.CleanNoticesAndBlocksReadBack : Prop :=
  (let generator := fun (w : Nat) (exponents : List Nat) =>
      exponents.foldl (fun g i => g ||| BitVec.twoPow w i) (0 : BitVec w)
    let register := fun (w : Nat) (g : BitVec w) (bits : List Bool) =>
      bits.foldl (fun (r : BitVec w) b => if r.msb = b then r <<< 1 else (r <<< 1) ^^^ g) (BitVec.allOnes w)
    let bitsOf := fun (w : Nat) (x : BitVec w) => (List.range w).map (fun i => x.getLsbD (w - 1 - i))
    let covered := fun (bytes : List Byte) => bytes.flatMap (bitsOf 8)
    let g16 := generator 16 [15, 11, 10, 8, 7, 4, 2, 0]
    let g32 := generator 32 [30, 27, 24, 21, 17, 16, 13, 9, 7, 4, 3, 0]
    (∀ bytes, check16 bytes = register 16 g16 (covered bytes) ∧ check32 bytes = register 32 g32 (covered bytes))
    ∧ (∀ (v : BitVec 7) (body : BitVec 48), noticeCheck v body = register 16 g16 (false :: bitsOf 7 v ++ bitsOf 48 body))
    ∧ (∀ head : BitVec 64, headerCheckOf head = register 16 g16 (bitsOf 64 head))
    ∧ check32 [] = BitVec.allOnes 32)
  ∧ (∀ x : NoticeBody, NoticeBody.ofBits x.bits = x)
  ∧ (∀ h : BlockHeader, BlockHeader.ofBits h.bits = h)
  ∧ (∀ (x : BitVec 41) (pad : BitVec 7), NoticeBody.ofBits (x ++ pad) = NoticeBody.ofBits (x ++ (0 : BitVec 7)))
  ∧ (∀ (x : BitVec 54) (pad : BitVec 10), BlockHeader.ofBits (x ++ pad) = BlockHeader.ofBits (x ++ (0 : BitVec 10)))
  ∧ (∀ (f : Flight) (l : Lane), l.contributing = true → l.lostAt = none → l.fieldFlaw = false →
      noticeCopy l f.asRead = .valid { leadIn := f.leadIn, body := f.body })
  ∧ (∀ (b : Block) (l : Lane) (inSlot : Bool), l.contributing = true → l.lostAt = none → l.fieldFlaw = false →
      l.guardFlaw = false → b.header.length.toNat = b.payload.length → b.payload.length ≤ 256 →
      (b.header.fill = true → b.payload = []) → b.check = check32 b.payload → blockCopy inSlot l b.asRead = .valid b)

/-- Every step keeps every queue, count and table of the station within the manual's bounds: the event queue of 32, the notice queue
of 8, the re-send queue of 64, the port FIFOs of 8, the gap lists of 16, the timer before its next field event, the clock and
monitor counts, and the sizes of the slot table and the heard set. -/
def Obligations.StepKeepsBounded : Prop :=
  ∀ s t : State, s.Bounded → step s = .next t → t.Bounded

/-- Every step keeps the state of each mode present in that mode alone, and learning in progress in LISTENING or RESYNC only
(section 9.1, R66). -/
def Obligations.StepKeepsModeFields : Prop :=
  ∀ s t : State, s.ModeFields → step s = .next t → t.ModeFields

/-- Every step keeps the buffers reserved by all streams at 4096 or fewer (R106). -/
def Obligations.StepKeepsStoreFits : Prop :=
  ∀ s t : State, s.StoreFits → step s = .next t → t.StoreFits
end

