-- ==== Sys2Proof/Laws/State.lean ====
section
/-! SUPPORT. One lemma per field per update: what each update of one part of the state leaves and what it writes. -/

namespace Sys2Proof.Machine

open Sys2Proof

/-! ### Lanes and ports -/

@[simp] theorem PerLane.get_set_same {α : Type} (x : PerLane α) (l : LaneId) (v : α) : (x.set l v).get l = v := by
  cases l <;> rfl

theorem PerLane.get_set_of_ne {α : Type} (x : PerLane α) {l m : LaneId} (v : α) (h : m ≠ l) :
    (x.set l v).get m = x.get m := by
  cases l <;> cases m <;> first | rfl | exact absurd rfl h

@[simp] theorem PerLane.get_map {α β : Type} (f : α → β) (x : PerLane α) (l : LaneId) :
    (x.map f).get l = f (x.get l) := by
  cases l <;> rfl

@[simp] theorem PerPort.get_set_same {α : Type} (x : PerPort α) (p : Port) (v : α) : (x.set p v).get p = v := by
  cases p <;> rfl

theorem PerPort.get_set_of_ne {α : Type} (x : PerPort α) {p q : Port} (v : α) (h : q ≠ p) :
    (x.set p v).get q = x.get q := by
  cases p <;> cases q <;> first | rfl | exact absurd rfl h

@[simp] theorem PerPort.get_map {α β : Type} (f : α → β) (x : PerPort α) (p : Port) : (x.map f).get p = f (x.get p) := by
  cases p <;> rfl

/-! ### mapLane -/

@[simp] theorem State.mapLane_pending (s : State) (l : LaneId) (f : Lane → Lane) : (s.mapLane l f).pending = s.pending := rfl
@[simp] theorem State.mapLane_hold (s : State) (l : LaneId) (f : Lane → Lane) : (s.mapLane l f).hold = s.hold := rfl
@[simp] theorem State.mapLane_clock (s : State) (l : LaneId) (f : Lane → Lane) : (s.mapLane l f).clock = s.clock := rfl
@[simp] theorem State.mapLane_lanes (s : State) (l : LaneId) (f : Lane → Lane) :
    (s.mapLane l f).lanes = s.lanes.set l (f (s.lanes.get l)) := rfl
@[simp] theorem State.mapLane_drive (s : State) (l : LaneId) (f : Lane → Lane) : (s.mapLane l f).drive = s.drive := rfl
@[simp] theorem State.mapLane_table (s : State) (l : LaneId) (f : Lane → Lane) : (s.mapLane l f).table = s.table := rfl
@[simp] theorem State.mapLane_notices (s : State) (l : LaneId) (f : Lane → Lane) : (s.mapLane l f).notices = s.notices := rfl
@[simp] theorem State.mapLane_send (s : State) (l : LaneId) (f : Lane → Lane) : (s.mapLane l f).send = s.send := rfl
@[simp] theorem State.mapLane_repair (s : State) (l : LaneId) (f : Lane → Lane) : (s.mapLane l f).repair = s.repair := rfl
@[simp] theorem State.mapLane_recv (s : State) (l : LaneId) (f : Lane → Lane) : (s.mapLane l f).recv = s.recv := rfl
@[simp] theorem State.mapLane_ctrl (s : State) (l : LaneId) (f : Lane → Lane) : (s.mapLane l f).ctrl = s.ctrl := rfl
@[simp] theorem State.mapLane_mgmt (s : State) (l : LaneId) (f : Lane → Lane) : (s.mapLane l f).mgmt = s.mgmt := rfl

/-! ### mapLanes -/

@[simp] theorem State.mapLanes_pending (s : State) (f : Lane → Lane) : (s.mapLanes f).pending = s.pending := rfl
@[simp] theorem State.mapLanes_hold (s : State) (f : Lane → Lane) : (s.mapLanes f).hold = s.hold := rfl
@[simp] theorem State.mapLanes_clock (s : State) (f : Lane → Lane) : (s.mapLanes f).clock = s.clock := rfl
@[simp] theorem State.mapLanes_lanes (s : State) (f : Lane → Lane) :
    (s.mapLanes f).lanes = s.lanes.map f := rfl
@[simp] theorem State.mapLanes_drive (s : State) (f : Lane → Lane) : (s.mapLanes f).drive = s.drive := rfl
@[simp] theorem State.mapLanes_table (s : State) (f : Lane → Lane) : (s.mapLanes f).table = s.table := rfl
@[simp] theorem State.mapLanes_notices (s : State) (f : Lane → Lane) : (s.mapLanes f).notices = s.notices := rfl
@[simp] theorem State.mapLanes_send (s : State) (f : Lane → Lane) : (s.mapLanes f).send = s.send := rfl
@[simp] theorem State.mapLanes_repair (s : State) (f : Lane → Lane) : (s.mapLanes f).repair = s.repair := rfl
@[simp] theorem State.mapLanes_recv (s : State) (f : Lane → Lane) : (s.mapLanes f).recv = s.recv := rfl
@[simp] theorem State.mapLanes_ctrl (s : State) (f : Lane → Lane) : (s.mapLanes f).ctrl = s.ctrl := rfl
@[simp] theorem State.mapLanes_mgmt (s : State) (f : Lane → Lane) : (s.mapLanes f).mgmt = s.mgmt := rfl

/-! ### mapSend -/

@[simp] theorem State.mapSend_pending (s : State) (p : Port) (f : SendEntry → SendEntry) : (s.mapSend p f).pending = s.pending := rfl
@[simp] theorem State.mapSend_hold (s : State) (p : Port) (f : SendEntry → SendEntry) : (s.mapSend p f).hold = s.hold := rfl
@[simp] theorem State.mapSend_clock (s : State) (p : Port) (f : SendEntry → SendEntry) : (s.mapSend p f).clock = s.clock := rfl
@[simp] theorem State.mapSend_lanes (s : State) (p : Port) (f : SendEntry → SendEntry) : (s.mapSend p f).lanes = s.lanes := rfl
@[simp] theorem State.mapSend_drive (s : State) (p : Port) (f : SendEntry → SendEntry) : (s.mapSend p f).drive = s.drive := rfl
@[simp] theorem State.mapSend_table (s : State) (p : Port) (f : SendEntry → SendEntry) : (s.mapSend p f).table = s.table := rfl
@[simp] theorem State.mapSend_notices (s : State) (p : Port) (f : SendEntry → SendEntry) : (s.mapSend p f).notices = s.notices := rfl
@[simp] theorem State.mapSend_send (s : State) (p : Port) (f : SendEntry → SendEntry) :
    (s.mapSend p f).send = s.send.set p (f (s.send.get p)) := rfl
@[simp] theorem State.mapSend_repair (s : State) (p : Port) (f : SendEntry → SendEntry) : (s.mapSend p f).repair = s.repair := rfl
@[simp] theorem State.mapSend_recv (s : State) (p : Port) (f : SendEntry → SendEntry) : (s.mapSend p f).recv = s.recv := rfl
@[simp] theorem State.mapSend_ctrl (s : State) (p : Port) (f : SendEntry → SendEntry) : (s.mapSend p f).ctrl = s.ctrl := rfl
@[simp] theorem State.mapSend_mgmt (s : State) (p : Port) (f : SendEntry → SendEntry) : (s.mapSend p f).mgmt = s.mgmt := rfl

/-! ### mapRecv -/

@[simp] theorem State.mapRecv_pending (s : State) (p : Port) (f : RecvEntry → RecvEntry) : (s.mapRecv p f).pending = s.pending := rfl
@[simp] theorem State.mapRecv_hold (s : State) (p : Port) (f : RecvEntry → RecvEntry) : (s.mapRecv p f).hold = s.hold := rfl
@[simp] theorem State.mapRecv_clock (s : State) (p : Port) (f : RecvEntry → RecvEntry) : (s.mapRecv p f).clock = s.clock := rfl
@[simp] theorem State.mapRecv_lanes (s : State) (p : Port) (f : RecvEntry → RecvEntry) : (s.mapRecv p f).lanes = s.lanes := rfl
@[simp] theorem State.mapRecv_drive (s : State) (p : Port) (f : RecvEntry → RecvEntry) : (s.mapRecv p f).drive = s.drive := rfl
@[simp] theorem State.mapRecv_table (s : State) (p : Port) (f : RecvEntry → RecvEntry) : (s.mapRecv p f).table = s.table := rfl
@[simp] theorem State.mapRecv_notices (s : State) (p : Port) (f : RecvEntry → RecvEntry) : (s.mapRecv p f).notices = s.notices := rfl
@[simp] theorem State.mapRecv_send (s : State) (p : Port) (f : RecvEntry → RecvEntry) : (s.mapRecv p f).send = s.send := rfl
@[simp] theorem State.mapRecv_repair (s : State) (p : Port) (f : RecvEntry → RecvEntry) : (s.mapRecv p f).repair = s.repair := rfl
@[simp] theorem State.mapRecv_recv (s : State) (p : Port) (f : RecvEntry → RecvEntry) :
    (s.mapRecv p f).recv = s.recv.set p (f (s.recv.get p)) := rfl
@[simp] theorem State.mapRecv_ctrl (s : State) (p : Port) (f : RecvEntry → RecvEntry) : (s.mapRecv p f).ctrl = s.ctrl := rfl
@[simp] theorem State.mapRecv_mgmt (s : State) (p : Port) (f : RecvEntry → RecvEntry) : (s.mapRecv p f).mgmt = s.mgmt := rfl

/-! ### mapQueue -/

@[simp] theorem State.mapQueue_pending (s : State) (f : List Queued → List Queued) : (s.mapQueue f).pending = s.pending := rfl
@[simp] theorem State.mapQueue_hold (s : State) (f : List Queued → List Queued) : (s.mapQueue f).hold = s.hold := rfl
@[simp] theorem State.mapQueue_clock (s : State) (f : List Queued → List Queued) : (s.mapQueue f).clock = s.clock := rfl
@[simp] theorem State.mapQueue_lanes (s : State) (f : List Queued → List Queued) : (s.mapQueue f).lanes = s.lanes := rfl
@[simp] theorem State.mapQueue_drive (s : State) (f : List Queued → List Queued) : (s.mapQueue f).drive = s.drive := rfl
@[simp] theorem State.mapQueue_table (s : State) (f : List Queued → List Queued) : (s.mapQueue f).table = s.table := rfl
@[simp] theorem State.mapQueue_notices (s : State) (f : List Queued → List Queued) :
    (s.mapQueue f).notices = { s.notices with queue := f s.notices.queue } := rfl
@[simp] theorem State.mapQueue_send (s : State) (f : List Queued → List Queued) : (s.mapQueue f).send = s.send := rfl
@[simp] theorem State.mapQueue_repair (s : State) (f : List Queued → List Queued) : (s.mapQueue f).repair = s.repair := rfl
@[simp] theorem State.mapQueue_recv (s : State) (f : List Queued → List Queued) : (s.mapQueue f).recv = s.recv := rfl
@[simp] theorem State.mapQueue_ctrl (s : State) (f : List Queued → List Queued) : (s.mapQueue f).ctrl = s.ctrl := rfl
@[simp] theorem State.mapQueue_mgmt (s : State) (f : List Queued → List Queued) : (s.mapQueue f).mgmt = s.mgmt := rfl

/-! ### mapStream -/

@[simp] theorem State.mapStream_pending (s : State) (p : Port) (f : RecvStream → RecvStream) : (s.mapStream p f).pending = s.pending := rfl
@[simp] theorem State.mapStream_hold (s : State) (p : Port) (f : RecvStream → RecvStream) : (s.mapStream p f).hold = s.hold := rfl
@[simp] theorem State.mapStream_clock (s : State) (p : Port) (f : RecvStream → RecvStream) : (s.mapStream p f).clock = s.clock := rfl
@[simp] theorem State.mapStream_lanes (s : State) (p : Port) (f : RecvStream → RecvStream) : (s.mapStream p f).lanes = s.lanes := rfl
@[simp] theorem State.mapStream_drive (s : State) (p : Port) (f : RecvStream → RecvStream) : (s.mapStream p f).drive = s.drive := rfl
@[simp] theorem State.mapStream_table (s : State) (p : Port) (f : RecvStream → RecvStream) : (s.mapStream p f).table = s.table := rfl
@[simp] theorem State.mapStream_notices (s : State) (p : Port) (f : RecvStream → RecvStream) : (s.mapStream p f).notices = s.notices := rfl
@[simp] theorem State.mapStream_send (s : State) (p : Port) (f : RecvStream → RecvStream) : (s.mapStream p f).send = s.send := rfl
@[simp] theorem State.mapStream_repair (s : State) (p : Port) (f : RecvStream → RecvStream) : (s.mapStream p f).repair = s.repair := rfl
@[simp] theorem State.mapStream_recv (s : State) (p : Port) (f : RecvStream → RecvStream) :
    (s.mapStream p f).recv = s.recv.set p { s.recv.get p with stream := (s.recv.get p).stream.map f } := rfl
@[simp] theorem State.mapStream_ctrl (s : State) (p : Port) (f : RecvStream → RecvStream) : (s.mapStream p f).ctrl = s.ctrl := rfl
@[simp] theorem State.mapStream_mgmt (s : State) (p : Port) (f : RecvStream → RecvStream) : (s.mapStream p f).mgmt = s.mgmt := rfl

/-! ### giveEvent -/

@[simp] theorem giveEvent_pending (e : Event) (s : State) : (giveEvent e s).pending = s.pending := rfl
@[simp] theorem giveEvent_hold (e : Event) (s : State) : (giveEvent e s).hold = s.hold := rfl
@[simp] theorem giveEvent_clock (e : Event) (s : State) : (giveEvent e s).clock = s.clock := rfl
@[simp] theorem giveEvent_lanes (e : Event) (s : State) : (giveEvent e s).lanes = s.lanes := rfl
@[simp] theorem giveEvent_drive (e : Event) (s : State) : (giveEvent e s).drive = s.drive := rfl
@[simp] theorem giveEvent_table (e : Event) (s : State) : (giveEvent e s).table = s.table := rfl
@[simp] theorem giveEvent_notices (e : Event) (s : State) : (giveEvent e s).notices = s.notices := rfl
@[simp] theorem giveEvent_send (e : Event) (s : State) : (giveEvent e s).send = s.send := rfl
@[simp] theorem giveEvent_repair (e : Event) (s : State) : (giveEvent e s).repair = s.repair := rfl
@[simp] theorem giveEvent_recv (e : Event) (s : State) : (giveEvent e s).recv = s.recv := rfl
@[simp] theorem giveEvent_ctrl (e : Event) (s : State) : (giveEvent e s).ctrl = s.ctrl := rfl

/-! ### reply -/

@[simp] theorem reply_pending (c : ReplyCode) (x : ReplyContent) (s : State) : (reply c x s).pending = s.pending := rfl
@[simp] theorem reply_hold (c : ReplyCode) (x : ReplyContent) (s : State) : (reply c x s).hold = s.hold := rfl
@[simp] theorem reply_clock (c : ReplyCode) (x : ReplyContent) (s : State) : (reply c x s).clock = s.clock := rfl
@[simp] theorem reply_lanes (c : ReplyCode) (x : ReplyContent) (s : State) : (reply c x s).lanes = s.lanes := rfl
@[simp] theorem reply_drive (c : ReplyCode) (x : ReplyContent) (s : State) : (reply c x s).drive = s.drive := rfl
@[simp] theorem reply_table (c : ReplyCode) (x : ReplyContent) (s : State) : (reply c x s).table = s.table := rfl
@[simp] theorem reply_notices (c : ReplyCode) (x : ReplyContent) (s : State) : (reply c x s).notices = s.notices := rfl
@[simp] theorem reply_send (c : ReplyCode) (x : ReplyContent) (s : State) : (reply c x s).send = s.send := rfl
@[simp] theorem reply_repair (c : ReplyCode) (x : ReplyContent) (s : State) : (reply c x s).repair = s.repair := rfl
@[simp] theorem reply_recv (c : ReplyCode) (x : ReplyContent) (s : State) : (reply c x s).recv = s.recv := rfl
@[simp] theorem reply_ctrl (c : ReplyCode) (x : ReplyContent) (s : State) : (reply c x s).ctrl = s.ctrl := rfl
@[simp] theorem reply_mgmt (c : ReplyCode) (x : ReplyContent) (s : State) :
    (reply c x s).mgmt = { s.mgmt with reply := some { code := c, content := x } } := rfl

/-! ### beginField -/

@[simp] theorem beginField_pending (t : Nat) (s : State) : (beginField t s).pending = s.pending := rfl
@[simp] theorem beginField_hold (t : Nat) (s : State) : (beginField t s).hold = s.hold := rfl
@[simp] theorem beginField_clock (t : Nat) (s : State) : (beginField t s).clock = s.clock := rfl
@[simp] theorem beginField_lanes (t : Nat) (s : State) :
    (beginField t s).lanes = s.lanes.map (Lane.beginField t) := rfl
@[simp] theorem beginField_drive (t : Nat) (s : State) :
    (beginField t s).drive = { content := .none, leadIn := none, lost := false, handed := s.drive.handed, drove := none } := rfl
@[simp] theorem beginField_table (t : Nat) (s : State) : (beginField t s).table = s.table := rfl
@[simp] theorem beginField_notices (t : Nat) (s : State) : (beginField t s).notices = s.notices := rfl
@[simp] theorem beginField_send (t : Nat) (s : State) : (beginField t s).send = s.send := rfl
@[simp] theorem beginField_repair (t : Nat) (s : State) : (beginField t s).repair = s.repair := rfl
@[simp] theorem beginField_recv (t : Nat) (s : State) : (beginField t s).recv = s.recv := rfl
@[simp] theorem beginField_ctrl (t : Nat) (s : State) : (beginField t s).ctrl = s.ctrl := rfl
@[simp] theorem beginField_mgmt (t : Nat) (s : State) : (beginField t s).mgmt = s.mgmt := rfl

/-! ### planAnswer -/

@[simp] theorem planAnswer_pending (p : Option AnswerPlan) (t : Option Tentative) (s : State) : (planAnswer p t s).pending = s.pending := rfl
@[simp] theorem planAnswer_hold (p : Option AnswerPlan) (t : Option Tentative) (s : State) : (planAnswer p t s).hold = s.hold := rfl
@[simp] theorem planAnswer_clock (p : Option AnswerPlan) (t : Option Tentative) (s : State) : (planAnswer p t s).clock = s.clock := rfl
@[simp] theorem planAnswer_lanes (p : Option AnswerPlan) (t : Option Tentative) (s : State) : (planAnswer p t s).lanes = s.lanes := rfl
@[simp] theorem planAnswer_drive (p : Option AnswerPlan) (t : Option Tentative) (s : State) : (planAnswer p t s).drive = s.drive := rfl
@[simp] theorem planAnswer_table (p : Option AnswerPlan) (t : Option Tentative) (s : State) : (planAnswer p t s).table = s.table := rfl
@[simp] theorem planAnswer_notices (p : Option AnswerPlan) (t : Option Tentative) (s : State) :
    (planAnswer p t s).notices = { s.notices with plan := p, tentative := t } := rfl
@[simp] theorem planAnswer_send (p : Option AnswerPlan) (t : Option Tentative) (s : State) : (planAnswer p t s).send = s.send := rfl
@[simp] theorem planAnswer_repair (p : Option AnswerPlan) (t : Option Tentative) (s : State) : (planAnswer p t s).repair = s.repair := rfl
@[simp] theorem planAnswer_recv (p : Option AnswerPlan) (t : Option Tentative) (s : State) : (planAnswer p t s).recv = s.recv := rfl
@[simp] theorem planAnswer_ctrl (p : Option AnswerPlan) (t : Option Tentative) (s : State) : (planAnswer p t s).ctrl = s.ctrl := rfl
@[simp] theorem planAnswer_mgmt (p : Option AnswerPlan) (t : Option Tentative) (s : State) : (planAnswer p t s).mgmt = s.mgmt := rfl

/-! ### clearFlight -/

@[simp] theorem clearFlight_pending (s : State) : (clearFlight s).pending = s.pending := rfl
@[simp] theorem clearFlight_hold (s : State) : (clearFlight s).hold = s.hold := rfl
@[simp] theorem clearFlight_clock (s : State) : (clearFlight s).clock = s.clock := rfl
@[simp] theorem clearFlight_lanes (s : State) : (clearFlight s).lanes = s.lanes := rfl
@[simp] theorem clearFlight_drive (s : State) : (clearFlight s).drive = s.drive := rfl
@[simp] theorem clearFlight_table (s : State) : (clearFlight s).table = s.table := rfl
@[simp] theorem clearFlight_notices (s : State) :
    (clearFlight s).notices = { s.notices with flight := none, queue := s.notices.queue.map (fun q => { q with inFlight := false }) } := rfl
@[simp] theorem clearFlight_send (s : State) : (clearFlight s).send = s.send := rfl
@[simp] theorem clearFlight_repair (s : State) : (clearFlight s).repair = s.repair := rfl
@[simp] theorem clearFlight_recv (s : State) : (clearFlight s).recv = s.recv := rfl
@[simp] theorem clearFlight_ctrl (s : State) : (clearFlight s).ctrl = s.ctrl := rfl
@[simp] theorem clearFlight_mgmt (s : State) : (clearFlight s).mgmt = s.mgmt := rfl

/-! ### removeInFlight -/

@[simp] theorem removeInFlight_pending (s : State) : (removeInFlight s).pending = s.pending := rfl
@[simp] theorem removeInFlight_hold (s : State) : (removeInFlight s).hold = s.hold := rfl
@[simp] theorem removeInFlight_clock (s : State) : (removeInFlight s).clock = s.clock := rfl
@[simp] theorem removeInFlight_lanes (s : State) : (removeInFlight s).lanes = s.lanes := rfl
@[simp] theorem removeInFlight_drive (s : State) : (removeInFlight s).drive = s.drive := rfl
@[simp] theorem removeInFlight_table (s : State) : (removeInFlight s).table = s.table := rfl
@[simp] theorem removeInFlight_notices (s : State) :
    (removeInFlight s).notices = { s.notices with flight := none, queue := s.notices.queue.filter (fun q => !q.inFlight) } := rfl
@[simp] theorem removeInFlight_send (s : State) : (removeInFlight s).send = s.send := rfl
@[simp] theorem removeInFlight_repair (s : State) : (removeInFlight s).repair = s.repair := rfl
@[simp] theorem removeInFlight_recv (s : State) : (removeInFlight s).recv = s.recv := rfl
@[simp] theorem removeInFlight_ctrl (s : State) : (removeInFlight s).ctrl = s.ctrl := rfl
@[simp] theorem removeInFlight_mgmt (s : State) : (removeInFlight s).mgmt = s.mgmt := rfl

/-! ### dropPlan -/

@[simp] theorem dropPlan_pending (s : State) : (dropPlan s).pending = s.pending := rfl
@[simp] theorem dropPlan_hold (s : State) : (dropPlan s).hold = s.hold := rfl
@[simp] theorem dropPlan_clock (s : State) : (dropPlan s).clock = s.clock := rfl
@[simp] theorem dropPlan_lanes (s : State) : (dropPlan s).lanes = s.lanes := rfl
@[simp] theorem dropPlan_drive (s : State) : (dropPlan s).drive = s.drive := rfl
@[simp] theorem dropPlan_table (s : State) : (dropPlan s).table = s.table := rfl
@[simp] theorem dropPlan_notices (s : State) :
    (dropPlan s).notices = { s.notices with plan := none, tentative := none } := rfl
@[simp] theorem dropPlan_send (s : State) : (dropPlan s).send = s.send := rfl
@[simp] theorem dropPlan_repair (s : State) : (dropPlan s).repair = s.repair := rfl
@[simp] theorem dropPlan_recv (s : State) : (dropPlan s).recv = s.recv := rfl
@[simp] theorem dropPlan_ctrl (s : State) : (dropPlan s).ctrl = s.ctrl := rfl
@[simp] theorem dropPlan_mgmt (s : State) : (dropPlan s).mgmt = s.mgmt := rfl

/-! ### dropAnswer -/

@[simp] theorem dropAnswer_pending (s : State) : (dropAnswer s).pending = s.pending := rfl
@[simp] theorem dropAnswer_hold (s : State) : (dropAnswer s).hold = s.hold := rfl
@[simp] theorem dropAnswer_clock (s : State) : (dropAnswer s).clock = s.clock := rfl
@[simp] theorem dropAnswer_lanes (s : State) : (dropAnswer s).lanes = s.lanes := rfl
@[simp] theorem dropAnswer_drive (s : State) : (dropAnswer s).drive = s.drive := rfl
@[simp] theorem dropAnswer_table (s : State) : (dropAnswer s).table = s.table := rfl
@[simp] theorem dropAnswer_notices (s : State) :
    (dropAnswer s).notices = { s.notices with plan := none, rollCall := false, tentative := none } := rfl
@[simp] theorem dropAnswer_send (s : State) : (dropAnswer s).send = s.send := rfl
@[simp] theorem dropAnswer_repair (s : State) : (dropAnswer s).repair = s.repair := rfl
@[simp] theorem dropAnswer_recv (s : State) : (dropAnswer s).recv = s.recv := rfl
@[simp] theorem dropAnswer_ctrl (s : State) : (dropAnswer s).ctrl = s.ctrl := rfl
@[simp] theorem dropAnswer_mgmt (s : State) : (dropAnswer s).mgmt = s.mgmt := rfl

/-! ### discardLearning -/

@[simp] theorem discardLearning_pending (s : State) : (discardLearning s).pending = s.pending := rfl
@[simp] theorem discardLearning_hold (s : State) : (discardLearning s).hold = s.hold := rfl
@[simp] theorem discardLearning_clock (s : State) : (discardLearning s).clock = s.clock := rfl
@[simp] theorem discardLearning_lanes (s : State) : (discardLearning s).lanes = s.lanes := rfl
@[simp] theorem discardLearning_drive (s : State) : (discardLearning s).drive = s.drive := rfl
@[simp] theorem discardLearning_table (s : State) :
    (discardLearning s).table = { s.table with learning := none } := rfl
@[simp] theorem discardLearning_notices (s : State) : (discardLearning s).notices = s.notices := rfl
@[simp] theorem discardLearning_send (s : State) : (discardLearning s).send = s.send := rfl
@[simp] theorem discardLearning_repair (s : State) : (discardLearning s).repair = s.repair := rfl
@[simp] theorem discardLearning_recv (s : State) : (discardLearning s).recv = s.recv := rfl
@[simp] theorem discardLearning_ctrl (s : State) : (discardLearning s).ctrl = s.ctrl := rfl
@[simp] theorem discardLearning_mgmt (s : State) : (discardLearning s).mgmt = s.mgmt := rfl

/-! ### hear -/

@[simp] theorem hear_pending (n : StationNo) (s : State) : (hear n s).pending = s.pending := rfl
@[simp] theorem hear_hold (n : StationNo) (s : State) : (hear n s).hold = s.hold := rfl
@[simp] theorem hear_clock (n : StationNo) (s : State) : (hear n s).clock = s.clock := rfl
@[simp] theorem hear_lanes (n : StationNo) (s : State) : (hear n s).lanes = s.lanes := rfl
@[simp] theorem hear_drive (n : StationNo) (s : State) : (hear n s).drive = s.drive := rfl
@[simp] theorem hear_table (n : StationNo) (s : State) :
    (hear n s).table = { s.table with heard := s.table.heard.set n.toNat 0 } := rfl
@[simp] theorem hear_notices (n : StationNo) (s : State) : (hear n s).notices = s.notices := rfl
@[simp] theorem hear_send (n : StationNo) (s : State) : (hear n s).send = s.send := rfl
@[simp] theorem hear_repair (n : StationNo) (s : State) : (hear n s).repair = s.repair := rfl
@[simp] theorem hear_recv (n : StationNo) (s : State) : (hear n s).recv = s.recv := rfl
@[simp] theorem hear_ctrl (n : StationNo) (s : State) : (hear n s).ctrl = s.ctrl := rfl
@[simp] theorem hear_mgmt (n : StationNo) (s : State) : (hear n s).mgmt = s.mgmt := rfl

/-! ### handOver -/

@[simp] theorem handOver_pending (n : Nat) (b : Block) (s : State) : (handOver n b s).pending = s.pending := rfl
@[simp] theorem handOver_hold (n : Nat) (b : Block) (s : State) : (handOver n b s).hold = s.hold := rfl
@[simp] theorem handOver_clock (n : Nat) (b : Block) (s : State) : (handOver n b s).clock = s.clock := rfl
@[simp] theorem handOver_lanes (n : Nat) (b : Block) (s : State) : (handOver n b s).lanes = s.lanes := rfl
@[simp] theorem handOver_drive (n : Nat) (b : Block) (s : State) :
    (handOver n b s).drive = { s.drive with handed := some (n, b) } := rfl
@[simp] theorem handOver_table (n : Nat) (b : Block) (s : State) : (handOver n b s).table = s.table := rfl
@[simp] theorem handOver_notices (n : Nat) (b : Block) (s : State) : (handOver n b s).notices = s.notices := rfl
@[simp] theorem handOver_send (n : Nat) (b : Block) (s : State) : (handOver n b s).send = s.send := rfl
@[simp] theorem handOver_repair (n : Nat) (b : Block) (s : State) : (handOver n b s).repair = s.repair := rfl
@[simp] theorem handOver_recv (n : Nat) (b : Block) (s : State) : (handOver n b s).recv = s.recv := rfl
@[simp] theorem handOver_ctrl (n : Nat) (b : Block) (s : State) : (handOver n b s).ctrl = s.ctrl := rfl
@[simp] theorem handOver_mgmt (n : Nat) (b : Block) (s : State) : (handOver n b s).mgmt = s.mgmt := rfl

/-! ### withdrawAll -/

@[simp] theorem withdrawAll_pending (s : State) : (withdrawAll s).pending = s.pending := rfl
@[simp] theorem withdrawAll_hold (s : State) : (withdrawAll s).hold = s.hold := rfl
@[simp] theorem withdrawAll_clock (s : State) : (withdrawAll s).clock = s.clock := rfl
@[simp] theorem withdrawAll_lanes (s : State) :
    (withdrawAll s).lanes = s.lanes.map Lane.withdraw := rfl
@[simp] theorem withdrawAll_drive (s : State) :
    (withdrawAll s).drive = { s.drive with lost := true } := rfl
@[simp] theorem withdrawAll_table (s : State) : (withdrawAll s).table = s.table := rfl
@[simp] theorem withdrawAll_notices (s : State) : (withdrawAll s).notices = s.notices := rfl
@[simp] theorem withdrawAll_send (s : State) : (withdrawAll s).send = s.send := rfl
@[simp] theorem withdrawAll_repair (s : State) : (withdrawAll s).repair = s.repair := rfl
@[simp] theorem withdrawAll_recv (s : State) : (withdrawAll s).recv = s.recv := rfl
@[simp] theorem withdrawAll_ctrl (s : State) : (withdrawAll s).ctrl = s.ctrl := rfl
@[simp] theorem withdrawAll_mgmt (s : State) : (withdrawAll s).mgmt = s.mgmt := rfl

/-! ### commitChange -/

@[simp] theorem commitChange_pending (t : Tentative) (s : State) : (commitChange t s).pending = s.pending := rfl
@[simp] theorem commitChange_hold (t : Tentative) (s : State) : (commitChange t s).hold = s.hold := rfl
@[simp] theorem commitChange_clock (t : Tentative) (s : State) : (commitChange t s).clock = s.clock := rfl
@[simp] theorem commitChange_lanes (t : Tentative) (s : State) : (commitChange t s).lanes = s.lanes := rfl
@[simp] theorem commitChange_drive (t : Tentative) (s : State) : (commitChange t s).drive = s.drive := rfl
@[simp] theorem commitChange_notices (t : Tentative) (s : State) : (commitChange t s).notices = s.notices := rfl
@[simp] theorem commitChange_send (t : Tentative) (s : State) : (commitChange t s).send = s.send := rfl
@[simp] theorem commitChange_repair (t : Tentative) (s : State) : (commitChange t s).repair = s.repair := rfl
@[simp] theorem commitChange_recv (t : Tentative) (s : State) : (commitChange t s).recv = s.recv := rfl
@[simp] theorem commitChange_ctrl (t : Tentative) (s : State) : (commitChange t s).ctrl = s.ctrl := rfl
@[simp] theorem commitChange_mgmt (t : Tentative) (s : State) : (commitChange t s).mgmt = s.mgmt := rfl

/-! ### queueResends -/

@[simp] theorem queueResends_pending (tag : Tag) (k : BitVec 3) (seqs : List Seq) (s : State) : (queueResends tag k seqs s).pending = s.pending := rfl
@[simp] theorem queueResends_hold (tag : Tag) (k : BitVec 3) (seqs : List Seq) (s : State) : (queueResends tag k seqs s).hold = s.hold := rfl
@[simp] theorem queueResends_clock (tag : Tag) (k : BitVec 3) (seqs : List Seq) (s : State) : (queueResends tag k seqs s).clock = s.clock := rfl
@[simp] theorem queueResends_lanes (tag : Tag) (k : BitVec 3) (seqs : List Seq) (s : State) : (queueResends tag k seqs s).lanes = s.lanes := rfl
@[simp] theorem queueResends_drive (tag : Tag) (k : BitVec 3) (seqs : List Seq) (s : State) : (queueResends tag k seqs s).drive = s.drive := rfl
@[simp] theorem queueResends_table (tag : Tag) (k : BitVec 3) (seqs : List Seq) (s : State) : (queueResends tag k seqs s).table = s.table := rfl
@[simp] theorem queueResends_notices (tag : Tag) (k : BitVec 3) (seqs : List Seq) (s : State) : (queueResends tag k seqs s).notices = s.notices := rfl
@[simp] theorem queueResends_send (tag : Tag) (k : BitVec 3) (seqs : List Seq) (s : State) : (queueResends tag k seqs s).send = s.send := rfl
@[simp] theorem queueResends_repair (tag : Tag) (k : BitVec 3) (seqs : List Seq) (s : State) :
    (queueResends tag k seqs s).repair = { s.repair with queue := s.repair.queue ++ seqs.map (fun q => { tag := tag, seq := q, priority := k }) } := rfl
@[simp] theorem queueResends_recv (tag : Tag) (k : BitVec 3) (seqs : List Seq) (s : State) : (queueResends tag k seqs s).recv = s.recv := rfl
@[simp] theorem queueResends_ctrl (tag : Tag) (k : BitVec 3) (seqs : List Seq) (s : State) : (queueResends tag k seqs s).ctrl = s.ctrl := rfl
@[simp] theorem queueResends_mgmt (tag : Tag) (k : BitVec 3) (seqs : List Seq) (s : State) : (queueResends tag k seqs s).mgmt = s.mgmt := rfl

/-! ### dropResend -/

@[simp] theorem dropResend_pending (tag : Tag) (q : Seq) (s : State) : (dropResend tag q s).pending = s.pending := rfl
@[simp] theorem dropResend_hold (tag : Tag) (q : Seq) (s : State) : (dropResend tag q s).hold = s.hold := rfl
@[simp] theorem dropResend_clock (tag : Tag) (q : Seq) (s : State) : (dropResend tag q s).clock = s.clock := rfl
@[simp] theorem dropResend_lanes (tag : Tag) (q : Seq) (s : State) : (dropResend tag q s).lanes = s.lanes := rfl
@[simp] theorem dropResend_drive (tag : Tag) (q : Seq) (s : State) : (dropResend tag q s).drive = s.drive := rfl
@[simp] theorem dropResend_table (tag : Tag) (q : Seq) (s : State) : (dropResend tag q s).table = s.table := rfl
@[simp] theorem dropResend_notices (tag : Tag) (q : Seq) (s : State) : (dropResend tag q s).notices = s.notices := rfl
@[simp] theorem dropResend_send (tag : Tag) (q : Seq) (s : State) : (dropResend tag q s).send = s.send := rfl
@[simp] theorem dropResend_repair (tag : Tag) (q : Seq) (s : State) :
    (dropResend tag q s).repair = { s.repair with queue := s.repair.queue.filter (fun r => !(r.tag == tag && r.seq == q)) } := rfl
@[simp] theorem dropResend_recv (tag : Tag) (q : Seq) (s : State) : (dropResend tag q s).recv = s.recv := rfl
@[simp] theorem dropResend_ctrl (tag : Tag) (q : Seq) (s : State) : (dropResend tag q s).ctrl = s.ctrl := rfl
@[simp] theorem dropResend_mgmt (tag : Tag) (q : Seq) (s : State) : (dropResend tag q s).mgmt = s.mgmt := rfl

/-! ### setFrozen -/

@[simp] theorem setFrozen_pending (b : Bool) (s : State) : (setFrozen b s).pending = s.pending := rfl
@[simp] theorem setFrozen_hold (b : Bool) (s : State) : (setFrozen b s).hold = s.hold := rfl
@[simp] theorem setFrozen_clock (b : Bool) (s : State) : (setFrozen b s).clock = s.clock := rfl
@[simp] theorem setFrozen_lanes (b : Bool) (s : State) : (setFrozen b s).lanes = s.lanes := rfl
@[simp] theorem setFrozen_drive (b : Bool) (s : State) : (setFrozen b s).drive = s.drive := rfl
@[simp] theorem setFrozen_table (b : Bool) (s : State) : (setFrozen b s).table = s.table := rfl
@[simp] theorem setFrozen_notices (b : Bool) (s : State) : (setFrozen b s).notices = s.notices := rfl
@[simp] theorem setFrozen_send (b : Bool) (s : State) : (setFrozen b s).send = s.send := rfl
@[simp] theorem setFrozen_repair (b : Bool) (s : State) : (setFrozen b s).repair = s.repair := rfl
@[simp] theorem setFrozen_recv (b : Bool) (s : State) : (setFrozen b s).recv = s.recv := rfl
@[simp] theorem setFrozen_ctrl (b : Bool) (s : State) :
    (setFrozen b s).ctrl = { s.ctrl with context := { s.ctrl.context with frozen := b } } := rfl
@[simp] theorem setFrozen_mgmt (b : Bool) (s : State) : (setFrozen b s).mgmt = s.mgmt := rfl

/-! ### ageHeard -/

@[simp] theorem ageHeard_pending (s : State) : (ageHeard s).pending = s.pending := rfl
@[simp] theorem ageHeard_hold (s : State) : (ageHeard s).hold = s.hold := rfl
@[simp] theorem ageHeard_clock (s : State) : (ageHeard s).clock = s.clock := rfl
@[simp] theorem ageHeard_lanes (s : State) : (ageHeard s).lanes = s.lanes := rfl
@[simp] theorem ageHeard_drive (s : State) : (ageHeard s).drive = s.drive := rfl
@[simp] theorem ageHeard_table (s : State) :
    (ageHeard s).table = { s.table with heard := s.table.heard.map (fun age => min 256 (age + 1)) } := rfl
@[simp] theorem ageHeard_notices (s : State) : (ageHeard s).notices = s.notices := rfl
@[simp] theorem ageHeard_send (s : State) : (ageHeard s).send = s.send := rfl
@[simp] theorem ageHeard_repair (s : State) : (ageHeard s).repair = s.repair := rfl
@[simp] theorem ageHeard_recv (s : State) : (ageHeard s).recv = s.recv := rfl
@[simp] theorem ageHeard_ctrl (s : State) : (ageHeard s).ctrl = s.ctrl := rfl
@[simp] theorem ageHeard_mgmt (s : State) : (ageHeard s).mgmt = s.mgmt := rfl

/-! ### rewriteContext -/

@[simp] theorem rewriteContext_pending (s : State) : (rewriteContext s).pending = s.pending := rfl
@[simp] theorem rewriteContext_hold (s : State) : (rewriteContext s).hold = s.hold := rfl
@[simp] theorem rewriteContext_clock (s : State) : (rewriteContext s).clock = s.clock := rfl
@[simp] theorem rewriteContext_lanes (s : State) : (rewriteContext s).lanes = s.lanes := rfl
@[simp] theorem rewriteContext_drive (s : State) : (rewriteContext s).drive = s.drive := rfl
@[simp] theorem rewriteContext_table (s : State) : (rewriteContext s).table = s.table := rfl
@[simp] theorem rewriteContext_notices (s : State) : (rewriteContext s).notices = s.notices := rfl
@[simp] theorem rewriteContext_send (s : State) : (rewriteContext s).send = s.send := rfl
@[simp] theorem rewriteContext_repair (s : State) : (rewriteContext s).repair = s.repair := rfl
@[simp] theorem rewriteContext_recv (s : State) : (rewriteContext s).recv = s.recv := rfl
@[simp] theorem rewriteContext_mgmt (s : State) : (rewriteContext s).mgmt = s.mgmt := rfl

/-! ### The backup comparator and the release of the reset hold -/

@[simp] theorem compareBackup_station (h : ResetHold) (c : Context) : (compareBackup h c).station = c.station := by
  unfold compareBackup clearValid; split <;> rfl
@[simp] theorem compareBackup_records (h : ResetHold) (c : Context) : (compareBackup h c).records = c.records := by
  unfold compareBackup clearValid; split <;> rfl
@[simp] theorem compareBackup_frozen (h : ResetHold) (c : Context) : (compareBackup h c).frozen = c.frozen := by
  unfold compareBackup clearValid; split <;> rfl
@[simp] theorem compareBackup_valid (h : ResetHold) (c : Context) :
    (compareBackup h c).valid = (c.valid && !(h.supply && h.backupLow)) := by
  unfold compareBackup clearValid; cases h.supply <;> cases h.backupLow <;> simp

@[simp] theorem ResetHold.released_powerOn (h : ResetHold) : h.released.powerOn = false := rfl
@[simp] theorem ResetHold.released_pin (h : ResetHold) : h.released.pin = false := rfl
@[simp] theorem ResetHold.released_supply (h : ResetHold) : h.released.supply = false := rfl
@[simp] theorem ResetHold.released_backupLow (h : ResetHold) : h.released.backupLow = (h.backupLow && !h.supply) := rfl

end Sys2Proof.Machine
end

