-- ==== Sys2Proof/Laws/Commands.lean ====
section
/-! SUPPORT. What the wrappers of the commands answer: `running` (a reset holds or not), `request` (a transaction is open or not) and
`checked` (the operands name an event or not). -/

namespace Sys2Proof.Machine

open Sys2Proof

@[simp] theorem PerLane.set_set {α : Type} (x : PerLane α) (l : LaneId) (v w : α) : (x.set l v).set l w = x.set l w := by
  cases l <;> rfl

@[simp] theorem PerLane.set_get {α : Type} (x : PerLane α) (l : LaneId) : x.set l (x.get l) = x := by
  cases l <;> rfl

@[simp] theorem PerPort.set_set {α : Type} (x : PerPort α) (p : Port) (v w : α) : (x.set p v).set p w = x.set p w := by
  cases p <;> rfl

@[simp] theorem PerPort.set_get {α : Type} (x : PerPort α) (p : Port) : x.set p (x.get p) = x := by
  cases p <;> rfl

/-- With no reset holding a command has its effect. -/
theorem running_of_free {f : State → State} {s : State} (h : s.holding = false) : running f s = .next (f s) := by
  simp [running, h]

/-- While a reset holds a command changes nothing. -/
theorem running_of_holding {f : State → State} {s : State} (h : s.holding = true) : running f s = .next s := by
  simp [running, h]

/-- Everything `running` can answer. -/
theorem running_next {f : State → State} {s t : State} (h : running f s = .next t) :
    t = s ∧ s.holding = true ∨ t = f s ∧ s.holding = false := by
  unfold running at h
  split at h <;> simp_all

/-- A request that can be taken has its effect. -/
theorem request_taken {f : State → State} {s : State} (h : s.holding = false) (hr : s.mgmt.reply = none) :
    request f s = .next (f s) := by
  simp [request, running, h, hr]

/-- A request during a reply is discarded. -/
theorem request_during_reply {f : State → State} {s : State} (hr : s.mgmt.reply ≠ none) : request f s = .next s := by
  have : s.mgmt.reply.isSome = true := Option.isSome_iff_ne_none.mpr hr
  simp [request, running, this]

/-- Everything `request` can answer. -/
theorem request_next {f : State → State} {s t : State} (h : request f s = .next t) :
    t = s ∨ t = f s ∧ s.holding = false ∧ s.mgmt.reply = none := by
  rcases running_next h with ⟨h1, _⟩ | ⟨h1, h2⟩
  · exact Or.inl h1
  · cases hr : s.mgmt.reply with
    | none => right; simp_all
    | some r => left; simp_all

/-- A command with well-formed operands answers what its body answers. -/
@[simp] theorem checked_true (r : Host.Outcome State Fault Refusal) : checked true r = r := rfl

/-- A command with ill-formed operands stops. -/
@[simp] theorem checked_false (r : Host.Outcome State Fault Refusal) : checked false r = .fault .illFormedCommand := rfl

/-- Everything `checked` can answer. -/
theorem checked_next {ok : Bool} {r : Host.Outcome State Fault Refusal} {t : State} (h : checked ok r = .next t) :
    ok = true ∧ r = .next t := by
  cases ok <;> simp_all

/-- The event queue never grows beyond 32 records (R183). -/
theorem Management.push_events_length (m : Management) (r : EventRecord) (h : m.events.length ≤ 32) :
    (m.push r).events.length ≤ 32 := by
  unfold Management.push Config.eventQueueSize
  split
  · simp; omega
  · simp; omega

/-- A queued notice adds one to the length of the outgoing notice queue. -/
@[simp] theorem insertQueued_length (q : Queued) (l : List Queued) : (insertQueued q l).length = l.length + 1 := by
  induction l with
  | nil => rfl
  | cons x l ih => unfold insertQueued; split <;> simp [ih]

/-- An offer never takes the outgoing notice queue beyond 8 notices (R79, R80). -/
theorem offer_queue_length (q : Queued) (s : State) (h : s.notices.queue.length ≤ 8) :
    (offer q s).notices.queue.length ≤ 8 := by
  unfold offer
  split
  · next ha =>
    unfold offerAnswer Config.noticeQueueSize at ha
    split at ha
    · simp at ha
    · split at ha
      · simp at ha
      · simp only [State.mapQueue, insertQueued_length]; omega
  · exact h

end Sys2Proof.Machine
end

