-- ==== Sys2Proof/Laws/Fold.lean ====
section
/-! SUPPORT. A part of the state that every step of a fold, of a pass over the ports, or of a guarded operation leaves alone is left alone
by the whole. -/

namespace Sys2Proof.Machine

open Sys2Proof

@[simp] theorem foldl_pending {α : Type} (f : State → α → State) (h : ∀ s a, (f s a).pending = s.pending) (l : List α)
    (s : State) : (l.foldl f s).pending = s.pending := by
  induction l generalizing s with
  | nil => rfl
  | cons a l ih => rw [List.foldl_cons, ih, h]

@[simp] theorem forPorts_pending (f : Port → State → State) (h : ∀ p s, (f p s).pending = s.pending) (s : State) :
    (forPorts f s).pending = s.pending := by
  simp [forPorts, h]

@[simp] theorem applyIf_pending (c : Bool) (f : State → State) (h : ∀ s, (f s).pending = s.pending) (s : State) :
    (applyIf c f s).pending = s.pending := by
  cases c
  · rfl
  · exact h s

@[simp] theorem foldl_hold {α : Type} (f : State → α → State) (h : ∀ s a, (f s a).hold = s.hold) (l : List α)
    (s : State) : (l.foldl f s).hold = s.hold := by
  induction l generalizing s with
  | nil => rfl
  | cons a l ih => rw [List.foldl_cons, ih, h]

@[simp] theorem forPorts_hold (f : Port → State → State) (h : ∀ p s, (f p s).hold = s.hold) (s : State) :
    (forPorts f s).hold = s.hold := by
  simp [forPorts, h]

@[simp] theorem applyIf_hold (c : Bool) (f : State → State) (h : ∀ s, (f s).hold = s.hold) (s : State) :
    (applyIf c f s).hold = s.hold := by
  cases c
  · rfl
  · exact h s

@[simp] theorem foldl_clock {α : Type} (f : State → α → State) (h : ∀ s a, (f s a).clock = s.clock) (l : List α)
    (s : State) : (l.foldl f s).clock = s.clock := by
  induction l generalizing s with
  | nil => rfl
  | cons a l ih => rw [List.foldl_cons, ih, h]

@[simp] theorem forPorts_clock (f : Port → State → State) (h : ∀ p s, (f p s).clock = s.clock) (s : State) :
    (forPorts f s).clock = s.clock := by
  simp [forPorts, h]

@[simp] theorem applyIf_clock (c : Bool) (f : State → State) (h : ∀ s, (f s).clock = s.clock) (s : State) :
    (applyIf c f s).clock = s.clock := by
  cases c
  · rfl
  · exact h s

@[simp] theorem foldl_lanes {α : Type} (f : State → α → State) (h : ∀ s a, (f s a).lanes = s.lanes) (l : List α)
    (s : State) : (l.foldl f s).lanes = s.lanes := by
  induction l generalizing s with
  | nil => rfl
  | cons a l ih => rw [List.foldl_cons, ih, h]

@[simp] theorem forPorts_lanes (f : Port → State → State) (h : ∀ p s, (f p s).lanes = s.lanes) (s : State) :
    (forPorts f s).lanes = s.lanes := by
  simp [forPorts, h]

@[simp] theorem applyIf_lanes (c : Bool) (f : State → State) (h : ∀ s, (f s).lanes = s.lanes) (s : State) :
    (applyIf c f s).lanes = s.lanes := by
  cases c
  · rfl
  · exact h s

@[simp] theorem foldl_drive {α : Type} (f : State → α → State) (h : ∀ s a, (f s a).drive = s.drive) (l : List α)
    (s : State) : (l.foldl f s).drive = s.drive := by
  induction l generalizing s with
  | nil => rfl
  | cons a l ih => rw [List.foldl_cons, ih, h]

@[simp] theorem forPorts_drive (f : Port → State → State) (h : ∀ p s, (f p s).drive = s.drive) (s : State) :
    (forPorts f s).drive = s.drive := by
  simp [forPorts, h]

@[simp] theorem applyIf_drive (c : Bool) (f : State → State) (h : ∀ s, (f s).drive = s.drive) (s : State) :
    (applyIf c f s).drive = s.drive := by
  cases c
  · rfl
  · exact h s

@[simp] theorem foldl_table {α : Type} (f : State → α → State) (h : ∀ s a, (f s a).table = s.table) (l : List α)
    (s : State) : (l.foldl f s).table = s.table := by
  induction l generalizing s with
  | nil => rfl
  | cons a l ih => rw [List.foldl_cons, ih, h]

@[simp] theorem forPorts_table (f : Port → State → State) (h : ∀ p s, (f p s).table = s.table) (s : State) :
    (forPorts f s).table = s.table := by
  simp [forPorts, h]

@[simp] theorem applyIf_table (c : Bool) (f : State → State) (h : ∀ s, (f s).table = s.table) (s : State) :
    (applyIf c f s).table = s.table := by
  cases c
  · rfl
  · exact h s

@[simp] theorem foldl_notices {α : Type} (f : State → α → State) (h : ∀ s a, (f s a).notices = s.notices) (l : List α)
    (s : State) : (l.foldl f s).notices = s.notices := by
  induction l generalizing s with
  | nil => rfl
  | cons a l ih => rw [List.foldl_cons, ih, h]

@[simp] theorem forPorts_notices (f : Port → State → State) (h : ∀ p s, (f p s).notices = s.notices) (s : State) :
    (forPorts f s).notices = s.notices := by
  simp [forPorts, h]

@[simp] theorem applyIf_notices (c : Bool) (f : State → State) (h : ∀ s, (f s).notices = s.notices) (s : State) :
    (applyIf c f s).notices = s.notices := by
  cases c
  · rfl
  · exact h s

@[simp] theorem foldl_send {α : Type} (f : State → α → State) (h : ∀ s a, (f s a).send = s.send) (l : List α)
    (s : State) : (l.foldl f s).send = s.send := by
  induction l generalizing s with
  | nil => rfl
  | cons a l ih => rw [List.foldl_cons, ih, h]

@[simp] theorem forPorts_send (f : Port → State → State) (h : ∀ p s, (f p s).send = s.send) (s : State) :
    (forPorts f s).send = s.send := by
  simp [forPorts, h]

@[simp] theorem applyIf_send (c : Bool) (f : State → State) (h : ∀ s, (f s).send = s.send) (s : State) :
    (applyIf c f s).send = s.send := by
  cases c
  · rfl
  · exact h s

@[simp] theorem foldl_repair {α : Type} (f : State → α → State) (h : ∀ s a, (f s a).repair = s.repair) (l : List α)
    (s : State) : (l.foldl f s).repair = s.repair := by
  induction l generalizing s with
  | nil => rfl
  | cons a l ih => rw [List.foldl_cons, ih, h]

@[simp] theorem forPorts_repair (f : Port → State → State) (h : ∀ p s, (f p s).repair = s.repair) (s : State) :
    (forPorts f s).repair = s.repair := by
  simp [forPorts, h]

@[simp] theorem applyIf_repair (c : Bool) (f : State → State) (h : ∀ s, (f s).repair = s.repair) (s : State) :
    (applyIf c f s).repair = s.repair := by
  cases c
  · rfl
  · exact h s

@[simp] theorem foldl_recv {α : Type} (f : State → α → State) (h : ∀ s a, (f s a).recv = s.recv) (l : List α)
    (s : State) : (l.foldl f s).recv = s.recv := by
  induction l generalizing s with
  | nil => rfl
  | cons a l ih => rw [List.foldl_cons, ih, h]

@[simp] theorem forPorts_recv (f : Port → State → State) (h : ∀ p s, (f p s).recv = s.recv) (s : State) :
    (forPorts f s).recv = s.recv := by
  simp [forPorts, h]

@[simp] theorem applyIf_recv (c : Bool) (f : State → State) (h : ∀ s, (f s).recv = s.recv) (s : State) :
    (applyIf c f s).recv = s.recv := by
  cases c
  · rfl
  · exact h s

@[simp] theorem foldl_ctrl {α : Type} (f : State → α → State) (h : ∀ s a, (f s a).ctrl = s.ctrl) (l : List α)
    (s : State) : (l.foldl f s).ctrl = s.ctrl := by
  induction l generalizing s with
  | nil => rfl
  | cons a l ih => rw [List.foldl_cons, ih, h]

@[simp] theorem forPorts_ctrl (f : Port → State → State) (h : ∀ p s, (f p s).ctrl = s.ctrl) (s : State) :
    (forPorts f s).ctrl = s.ctrl := by
  simp [forPorts, h]

@[simp] theorem applyIf_ctrl (c : Bool) (f : State → State) (h : ∀ s, (f s).ctrl = s.ctrl) (s : State) :
    (applyIf c f s).ctrl = s.ctrl := by
  cases c
  · rfl
  · exact h s

@[simp] theorem foldl_mgmt {α : Type} (f : State → α → State) (h : ∀ s a, (f s a).mgmt = s.mgmt) (l : List α)
    (s : State) : (l.foldl f s).mgmt = s.mgmt := by
  induction l generalizing s with
  | nil => rfl
  | cons a l ih => rw [List.foldl_cons, ih, h]

@[simp] theorem forPorts_mgmt (f : Port → State → State) (h : ∀ p s, (f p s).mgmt = s.mgmt) (s : State) :
    (forPorts f s).mgmt = s.mgmt := by
  simp [forPorts, h]

@[simp] theorem applyIf_mgmt (c : Bool) (f : State → State) (h : ∀ s, (f s).mgmt = s.mgmt) (s : State) :
    (applyIf c f s).mgmt = s.mgmt := by
  cases c
  · rfl
  · exact h s

@[simp] theorem foldl_ctrl_option {α : Type} (f : State → α → State) (h : ∀ s a, (f s a).ctrl.option = s.ctrl.option) (l : List α)
    (s : State) : (l.foldl f s).ctrl.option = s.ctrl.option := by
  induction l generalizing s with
  | nil => rfl
  | cons a l ih => rw [List.foldl_cons, ih, h]

@[simp] theorem forPorts_ctrl_option (f : Port → State → State) (h : ∀ p s, (f p s).ctrl.option = s.ctrl.option) (s : State) :
    (forPorts f s).ctrl.option = s.ctrl.option := by
  simp [forPorts, h]

@[simp] theorem applyIf_ctrl_option (c : Bool) (f : State → State) (h : ∀ s, (f s).ctrl.option = s.ctrl.option) (s : State) :
    (applyIf c f s).ctrl.option = s.ctrl.option := by
  cases c
  · rfl
  · exact h s

@[simp] theorem foldl_ctrl_supply {α : Type} (f : State → α → State) (h : ∀ s a, (f s a).ctrl.supply = s.ctrl.supply) (l : List α)
    (s : State) : (l.foldl f s).ctrl.supply = s.ctrl.supply := by
  induction l generalizing s with
  | nil => rfl
  | cons a l ih => rw [List.foldl_cons, ih, h]

@[simp] theorem forPorts_ctrl_supply (f : Port → State → State) (h : ∀ p s, (f p s).ctrl.supply = s.ctrl.supply) (s : State) :
    (forPorts f s).ctrl.supply = s.ctrl.supply := by
  simp [forPorts, h]

@[simp] theorem applyIf_ctrl_supply (c : Bool) (f : State → State) (h : ∀ s, (f s).ctrl.supply = s.ctrl.supply) (s : State) :
    (applyIf c f s).ctrl.supply = s.ctrl.supply := by
  cases c
  · rfl
  · exact h s

@[simp] theorem foldl_ctrl_mode {α : Type} (f : State → α → State) (h : ∀ s a, (f s a).ctrl.mode = s.ctrl.mode) (l : List α)
    (s : State) : (l.foldl f s).ctrl.mode = s.ctrl.mode := by
  induction l generalizing s with
  | nil => rfl
  | cons a l ih => rw [List.foldl_cons, ih, h]

@[simp] theorem forPorts_ctrl_mode (f : Port → State → State) (h : ∀ p s, (f p s).ctrl.mode = s.ctrl.mode) (s : State) :
    (forPorts f s).ctrl.mode = s.ctrl.mode := by
  simp [forPorts, h]

@[simp] theorem applyIf_ctrl_mode (c : Bool) (f : State → State) (h : ∀ s, (f s).ctrl.mode = s.ctrl.mode) (s : State) :
    (applyIf c f s).ctrl.mode = s.ctrl.mode := by
  cases c
  · rfl
  · exact h s

@[simp] theorem foldl_ctrl_context {α : Type} (f : State → α → State) (h : ∀ s a, (f s a).ctrl.context = s.ctrl.context) (l : List α)
    (s : State) : (l.foldl f s).ctrl.context = s.ctrl.context := by
  induction l generalizing s with
  | nil => rfl
  | cons a l ih => rw [List.foldl_cons, ih, h]

@[simp] theorem forPorts_ctrl_context (f : Port → State → State) (h : ∀ p s, (f p s).ctrl.context = s.ctrl.context) (s : State) :
    (forPorts f s).ctrl.context = s.ctrl.context := by
  simp [forPorts, h]

@[simp] theorem applyIf_ctrl_context (c : Bool) (f : State → State) (h : ∀ s, (f s).ctrl.context = s.ctrl.context) (s : State) :
    (applyIf c f s).ctrl.context = s.ctrl.context := by
  cases c
  · rfl
  · exact h s

@[simp] theorem foldl_ctrl_orphans {α : Type} (f : State → α → State) (h : ∀ s a, (f s a).ctrl.orphans = s.ctrl.orphans) (l : List α)
    (s : State) : (l.foldl f s).ctrl.orphans = s.ctrl.orphans := by
  induction l generalizing s with
  | nil => rfl
  | cons a l ih => rw [List.foldl_cons, ih, h]

@[simp] theorem forPorts_ctrl_orphans (f : Port → State → State) (h : ∀ p s, (f p s).ctrl.orphans = s.ctrl.orphans) (s : State) :
    (forPorts f s).ctrl.orphans = s.ctrl.orphans := by
  simp [forPorts, h]

@[simp] theorem applyIf_ctrl_orphans (c : Bool) (f : State → State) (h : ∀ s, (f s).ctrl.orphans = s.ctrl.orphans) (s : State) :
    (applyIf c f s).ctrl.orphans = s.ctrl.orphans := by
  cases c
  · rfl
  · exact h s

@[simp] theorem foldl_clock_round {α : Type} (f : State → α → State) (h : ∀ s a, (f s a).clock.round = s.clock.round) (l : List α)
    (s : State) : (l.foldl f s).clock.round = s.clock.round := by
  induction l generalizing s with
  | nil => rfl
  | cons a l ih => rw [List.foldl_cons, ih, h]

@[simp] theorem forPorts_clock_round (f : Port → State → State) (h : ∀ p s, (f p s).clock.round = s.clock.round) (s : State) :
    (forPorts f s).clock.round = s.clock.round := by
  simp [forPorts, h]

@[simp] theorem applyIf_clock_round (c : Bool) (f : State → State) (h : ∀ s, (f s).clock.round = s.clock.round) (s : State) :
    (applyIf c f s).clock.round = s.clock.round := by
  cases c
  · rfl
  · exact h s

@[simp] theorem foldl_clock_timer {α : Type} (f : State → α → State) (h : ∀ s a, (f s a).clock.timer = s.clock.timer) (l : List α)
    (s : State) : (l.foldl f s).clock.timer = s.clock.timer := by
  induction l generalizing s with
  | nil => rfl
  | cons a l ih => rw [List.foldl_cons, ih, h]

@[simp] theorem forPorts_clock_timer (f : Port → State → State) (h : ∀ p s, (f p s).clock.timer = s.clock.timer) (s : State) :
    (forPorts f s).clock.timer = s.clock.timer := by
  simp [forPorts, h]

@[simp] theorem applyIf_clock_timer (c : Bool) (f : State → State) (h : ∀ s, (f s).clock.timer = s.clock.timer) (s : State) :
    (applyIf c f s).clock.timer = s.clock.timer := by
  cases c
  · rfl
  · exact h s

@[simp] theorem foldl_clock_capture {α : Type} (f : State → α → State) (h : ∀ s a, (f s a).clock.capture = s.clock.capture) (l : List α)
    (s : State) : (l.foldl f s).clock.capture = s.clock.capture := by
  induction l generalizing s with
  | nil => rfl
  | cons a l ih => rw [List.foldl_cons, ih, h]

@[simp] theorem forPorts_clock_capture (f : Port → State → State) (h : ∀ p s, (f p s).clock.capture = s.clock.capture) (s : State) :
    (forPorts f s).clock.capture = s.clock.capture := by
  simp [forPorts, h]

@[simp] theorem applyIf_clock_capture (c : Bool) (f : State → State) (h : ∀ s, (f s).clock.capture = s.clock.capture) (s : State) :
    (applyIf c f s).clock.capture = s.clock.capture := by
  cases c
  · rfl
  · exact h s

@[simp] theorem foldl_clock_pacing {α : Type} (f : State → α → State) (h : ∀ s a, (f s a).clock.pacing = s.clock.pacing) (l : List α)
    (s : State) : (l.foldl f s).clock.pacing = s.clock.pacing := by
  induction l generalizing s with
  | nil => rfl
  | cons a l ih => rw [List.foldl_cons, ih, h]

@[simp] theorem forPorts_clock_pacing (f : Port → State → State) (h : ∀ p s, (f p s).clock.pacing = s.clock.pacing) (s : State) :
    (forPorts f s).clock.pacing = s.clock.pacing := by
  simp [forPorts, h]

@[simp] theorem applyIf_clock_pacing (c : Bool) (f : State → State) (h : ∀ s, (f s).clock.pacing = s.clock.pacing) (s : State) :
    (applyIf c f s).clock.pacing = s.clock.pacing := by
  cases c
  · rfl
  · exact h s

@[simp] theorem foldl_clock_validCount {α : Type} (f : State → α → State) (h : ∀ s a, (f s a).clock.validCount = s.clock.validCount) (l : List α)
    (s : State) : (l.foldl f s).clock.validCount = s.clock.validCount := by
  induction l generalizing s with
  | nil => rfl
  | cons a l ih => rw [List.foldl_cons, ih, h]

@[simp] theorem forPorts_clock_validCount (f : Port → State → State) (h : ∀ p s, (f p s).clock.validCount = s.clock.validCount) (s : State) :
    (forPorts f s).clock.validCount = s.clock.validCount := by
  simp [forPorts, h]

@[simp] theorem applyIf_clock_validCount (c : Bool) (f : State → State) (h : ∀ s, (f s).clock.validCount = s.clock.validCount) (s : State) :
    (applyIf c f s).clock.validCount = s.clock.validCount := by
  cases c
  · rfl
  · exact h s

@[simp] theorem foldl_notices_flight {α : Type} (f : State → α → State) (h : ∀ s a, (f s a).notices.flight = s.notices.flight) (l : List α)
    (s : State) : (l.foldl f s).notices.flight = s.notices.flight := by
  induction l generalizing s with
  | nil => rfl
  | cons a l ih => rw [List.foldl_cons, ih, h]

@[simp] theorem forPorts_notices_flight (f : Port → State → State) (h : ∀ p s, (f p s).notices.flight = s.notices.flight) (s : State) :
    (forPorts f s).notices.flight = s.notices.flight := by
  simp [forPorts, h]

@[simp] theorem applyIf_notices_flight (c : Bool) (f : State → State) (h : ∀ s, (f s).notices.flight = s.notices.flight) (s : State) :
    (applyIf c f s).notices.flight = s.notices.flight := by
  cases c
  · rfl
  · exact h s

@[simp] theorem foldl_notices_tentative {α : Type} (f : State → α → State) (h : ∀ s a, (f s a).notices.tentative = s.notices.tentative) (l : List α)
    (s : State) : (l.foldl f s).notices.tentative = s.notices.tentative := by
  induction l generalizing s with
  | nil => rfl
  | cons a l ih => rw [List.foldl_cons, ih, h]

@[simp] theorem forPorts_notices_tentative (f : Port → State → State) (h : ∀ p s, (f p s).notices.tentative = s.notices.tentative) (s : State) :
    (forPorts f s).notices.tentative = s.notices.tentative := by
  simp [forPorts, h]

@[simp] theorem applyIf_notices_tentative (c : Bool) (f : State → State) (h : ∀ s, (f s).notices.tentative = s.notices.tentative) (s : State) :
    (applyIf c f s).notices.tentative = s.notices.tentative := by
  cases c
  · rfl
  · exact h s

@[simp] theorem foldl_notices_lastAnswer {α : Type} (f : State → α → State) (h : ∀ s a, (f s a).notices.lastAnswer = s.notices.lastAnswer) (l : List α)
    (s : State) : (l.foldl f s).notices.lastAnswer = s.notices.lastAnswer := by
  induction l generalizing s with
  | nil => rfl
  | cons a l ih => rw [List.foldl_cons, ih, h]

@[simp] theorem forPorts_notices_lastAnswer (f : Port → State → State) (h : ∀ p s, (f p s).notices.lastAnswer = s.notices.lastAnswer) (s : State) :
    (forPorts f s).notices.lastAnswer = s.notices.lastAnswer := by
  simp [forPorts, h]

@[simp] theorem applyIf_notices_lastAnswer (c : Bool) (f : State → State) (h : ∀ s, (f s).notices.lastAnswer = s.notices.lastAnswer) (s : State) :
    (applyIf c f s).notices.lastAnswer = s.notices.lastAnswer := by
  cases c
  · rfl
  · exact h s

@[simp] theorem foldl_notices_queue {α : Type} (f : State → α → State) (h : ∀ s a, (f s a).notices.queue = s.notices.queue) (l : List α)
    (s : State) : (l.foldl f s).notices.queue = s.notices.queue := by
  induction l generalizing s with
  | nil => rfl
  | cons a l ih => rw [List.foldl_cons, ih, h]

@[simp] theorem forPorts_notices_queue (f : Port → State → State) (h : ∀ p s, (f p s).notices.queue = s.notices.queue) (s : State) :
    (forPorts f s).notices.queue = s.notices.queue := by
  simp [forPorts, h]

@[simp] theorem applyIf_notices_queue (c : Bool) (f : State → State) (h : ∀ s, (f s).notices.queue = s.notices.queue) (s : State) :
    (applyIf c f s).notices.queue = s.notices.queue := by
  cases c
  · rfl
  · exact h s

@[simp] theorem foldl_table_live {α : Type} (f : State → α → State) (h : ∀ s a, (f s a).table.live = s.table.live) (l : List α)
    (s : State) : (l.foldl f s).table.live = s.table.live := by
  induction l generalizing s with
  | nil => rfl
  | cons a l ih => rw [List.foldl_cons, ih, h]

@[simp] theorem forPorts_table_live (f : Port → State → State) (h : ∀ p s, (f p s).table.live = s.table.live) (s : State) :
    (forPorts f s).table.live = s.table.live := by
  simp [forPorts, h]

@[simp] theorem applyIf_table_live (c : Bool) (f : State → State) (h : ∀ s, (f s).table.live = s.table.live) (s : State) :
    (applyIf c f s).table.live = s.table.live := by
  cases c
  · rfl
  · exact h s

@[simp] theorem foldl_table_epoch {α : Type} (f : State → α → State) (h : ∀ s a, (f s a).table.epoch = s.table.epoch) (l : List α)
    (s : State) : (l.foldl f s).table.epoch = s.table.epoch := by
  induction l generalizing s with
  | nil => rfl
  | cons a l ih => rw [List.foldl_cons, ih, h]

@[simp] theorem forPorts_table_epoch (f : Port → State → State) (h : ∀ p s, (f p s).table.epoch = s.table.epoch) (s : State) :
    (forPorts f s).table.epoch = s.table.epoch := by
  simp [forPorts, h]

@[simp] theorem applyIf_table_epoch (c : Bool) (f : State → State) (h : ∀ s, (f s).table.epoch = s.table.epoch) (s : State) :
    (applyIf c f s).table.epoch = s.table.epoch := by
  cases c
  · rfl
  · exact h s

@[simp] theorem foldl_table_heard {α : Type} (f : State → α → State) (h : ∀ s a, (f s a).table.heard = s.table.heard) (l : List α)
    (s : State) : (l.foldl f s).table.heard = s.table.heard := by
  induction l generalizing s with
  | nil => rfl
  | cons a l ih => rw [List.foldl_cons, ih, h]

@[simp] theorem forPorts_table_heard (f : Port → State → State) (h : ∀ p s, (f p s).table.heard = s.table.heard) (s : State) :
    (forPorts f s).table.heard = s.table.heard := by
  simp [forPorts, h]

@[simp] theorem applyIf_table_heard (c : Bool) (f : State → State) (h : ∀ s, (f s).table.heard = s.table.heard) (s : State) :
    (applyIf c f s).table.heard = s.table.heard := by
  cases c
  · rfl
  · exact h s

@[simp] theorem foldl_table_learning {α : Type} (f : State → α → State) (h : ∀ s a, (f s a).table.learning = s.table.learning) (l : List α)
    (s : State) : (l.foldl f s).table.learning = s.table.learning := by
  induction l generalizing s with
  | nil => rfl
  | cons a l ih => rw [List.foldl_cons, ih, h]

@[simp] theorem forPorts_table_learning (f : Port → State → State) (h : ∀ p s, (f p s).table.learning = s.table.learning) (s : State) :
    (forPorts f s).table.learning = s.table.learning := by
  simp [forPorts, h]

@[simp] theorem applyIf_table_learning (c : Bool) (f : State → State) (h : ∀ s, (f s).table.learning = s.table.learning) (s : State) :
    (applyIf c f s).table.learning = s.table.learning := by
  cases c
  · rfl
  · exact h s

@[simp] theorem foldl_mgmt_reply {α : Type} (f : State → α → State) (h : ∀ s a, (f s a).mgmt.reply = s.mgmt.reply) (l : List α)
    (s : State) : (l.foldl f s).mgmt.reply = s.mgmt.reply := by
  induction l generalizing s with
  | nil => rfl
  | cons a l ih => rw [List.foldl_cons, ih, h]

@[simp] theorem forPorts_mgmt_reply (f : Port → State → State) (h : ∀ p s, (f p s).mgmt.reply = s.mgmt.reply) (s : State) :
    (forPorts f s).mgmt.reply = s.mgmt.reply := by
  simp [forPorts, h]

@[simp] theorem applyIf_mgmt_reply (c : Bool) (f : State → State) (h : ∀ s, (f s).mgmt.reply = s.mgmt.reply) (s : State) :
    (applyIf c f s).mgmt.reply = s.mgmt.reply := by
  cases c
  · rfl
  · exact h s

@[simp] theorem foldl_mgmt_mask {α : Type} (f : State → α → State) (h : ∀ s a, (f s a).mgmt.mask = s.mgmt.mask) (l : List α)
    (s : State) : (l.foldl f s).mgmt.mask = s.mgmt.mask := by
  induction l generalizing s with
  | nil => rfl
  | cons a l ih => rw [List.foldl_cons, ih, h]

@[simp] theorem forPorts_mgmt_mask (f : Port → State → State) (h : ∀ p s, (f p s).mgmt.mask = s.mgmt.mask) (s : State) :
    (forPorts f s).mgmt.mask = s.mgmt.mask := by
  simp [forPorts, h]

@[simp] theorem applyIf_mgmt_mask (c : Bool) (f : State → State) (h : ∀ s, (f s).mgmt.mask = s.mgmt.mask) (s : State) :
    (applyIf c f s).mgmt.mask = s.mgmt.mask := by
  cases c
  · rfl
  · exact h s

@[simp] theorem foldl_mgmt_events {α : Type} (f : State → α → State) (h : ∀ s a, (f s a).mgmt.events = s.mgmt.events) (l : List α)
    (s : State) : (l.foldl f s).mgmt.events = s.mgmt.events := by
  induction l generalizing s with
  | nil => rfl
  | cons a l ih => rw [List.foldl_cons, ih, h]

@[simp] theorem forPorts_mgmt_events (f : Port → State → State) (h : ∀ p s, (f p s).mgmt.events = s.mgmt.events) (s : State) :
    (forPorts f s).mgmt.events = s.mgmt.events := by
  simp [forPorts, h]

@[simp] theorem applyIf_mgmt_events (c : Bool) (f : State → State) (h : ∀ s, (f s).mgmt.events = s.mgmt.events) (s : State) :
    (applyIf c f s).mgmt.events = s.mgmt.events := by
  cases c
  · rfl
  · exact h s

@[simp] theorem foldl_repair_queue {α : Type} (f : State → α → State) (h : ∀ s a, (f s a).repair.queue = s.repair.queue) (l : List α)
    (s : State) : (l.foldl f s).repair.queue = s.repair.queue := by
  induction l generalizing s with
  | nil => rfl
  | cons a l ih => rw [List.foldl_cons, ih, h]

@[simp] theorem forPorts_repair_queue (f : Port → State → State) (h : ∀ p s, (f p s).repair.queue = s.repair.queue) (s : State) :
    (forPorts f s).repair.queue = s.repair.queue := by
  simp [forPorts, h]

@[simp] theorem applyIf_repair_queue (c : Bool) (f : State → State) (h : ∀ s, (f s).repair.queue = s.repair.queue) (s : State) :
    (applyIf c f s).repair.queue = s.repair.queue := by
  cases c
  · rfl
  · exact h s

end Sys2Proof.Machine
end

