-- ==== Sys2Proof/Laws/FrameOps.lean ====
section
/-! SUPPORT. Frames of the operations of Machine/Ops.lean and Machine/Receive.lean. One lemma for each shared operation: every part of the state that it leaves alone, whatever it does; what it
may change is what the lemma does not name. -/

namespace Sys2Proof.Machine

open Sys2Proof

@[simp] theorem countFramed_frame (l : LaneId) (s : State) :
    (countFramed l s).pending = s.pending ∧ (countFramed l s).hold = s.hold ∧ (countFramed l s).clock = s.clock
      ∧ (countFramed l s).drive = s.drive ∧ (countFramed l s).table = s.table ∧ (countFramed l s).notices = s.notices
      ∧ (countFramed l s).send = s.send ∧ (countFramed l s).repair = s.repair ∧ (countFramed l s).recv = s.recv
      ∧ (countFramed l s).ctrl = s.ctrl ∧ (countFramed l s).mgmt = s.mgmt := by
  unfold countFramed; (repeat' split) <;> simp

@[simp] theorem driveOn_frame (test : Lane → Bool) (c : DriveContent) (s : State) :
    (driveOn test c s).pending = s.pending ∧ (driveOn test c s).hold = s.hold ∧ (driveOn test c s).clock = s.clock
      ∧ (driveOn test c s).table = s.table ∧ (driveOn test c s).notices = s.notices ∧ (driveOn test c s).send = s.send
      ∧ (driveOn test c s).repair = s.repair ∧ (driveOn test c s).recv = s.recv ∧ (driveOn test c s).ctrl = s.ctrl
      ∧ (driveOn test c s).mgmt = s.mgmt := by
  unfold driveOn; simp

@[simp] theorem contendOn_frame (test : LaneId → Bool) (field : LeadInField) (v : BitVec 7) (s : State) :
    (contendOn test field v s).pending = s.pending ∧ (contendOn test field v s).hold = s.hold
      ∧ (contendOn test field v s).clock = s.clock ∧ (contendOn test field v s).table = s.table
      ∧ (contendOn test field v s).notices = s.notices ∧ (contendOn test field v s).send = s.send
      ∧ (contendOn test field v s).repair = s.repair ∧ (contendOn test field v s).recv = s.recv
      ∧ (contendOn test field v s).ctrl = s.ctrl ∧ (contendOn test field v s).mgmt = s.mgmt := by
  unfold contendOn; (repeat' split) <;> simp

@[simp] theorem driveMark_frame (s : State) :
    (driveMark s).pending = s.pending ∧ (driveMark s).hold = s.hold ∧ (driveMark s).table = s.table
      ∧ (driveMark s).notices = s.notices ∧ (driveMark s).send = s.send ∧ (driveMark s).repair = s.repair
      ∧ (driveMark s).recv = s.recv ∧ (driveMark s).ctrl = s.ctrl ∧ (driveMark s).mgmt = s.mgmt
      ∧ (driveMark s).clock.round = s.clock.round ∧ (driveMark s).clock.timer = s.clock.timer
      ∧ (driveMark s).clock.capture = s.clock.capture ∧ (driveMark s).clock.validCount = s.clock.validCount := by
  unfold driveMark; simp

@[simp] theorem dropTurn_frame (s : State) :
    (dropTurn s).pending = s.pending ∧ (dropTurn s).hold = s.hold ∧ (dropTurn s).clock = s.clock
      ∧ (dropTurn s).drive = s.drive ∧ (dropTurn s).table = s.table ∧ (dropTurn s).notices = s.notices
      ∧ (dropTurn s).send = s.send ∧ (dropTurn s).recv = s.recv ∧ (dropTurn s).ctrl = s.ctrl
      ∧ (dropTurn s).mgmt = s.mgmt ∧ (dropTurn s).repair.queue = s.repair.queue := by
  unfold dropTurn; (repeat' split) <;> simp

@[simp] theorem dropTurnIfMute_frame (s : State) :
    (dropTurnIfMute s).pending = s.pending ∧ (dropTurnIfMute s).hold = s.hold ∧ (dropTurnIfMute s).clock = s.clock
      ∧ (dropTurnIfMute s).drive = s.drive ∧ (dropTurnIfMute s).table = s.table
      ∧ (dropTurnIfMute s).notices = s.notices ∧ (dropTurnIfMute s).send = s.send ∧ (dropTurnIfMute s).recv = s.recv
      ∧ (dropTurnIfMute s).ctrl = s.ctrl ∧ (dropTurnIfMute s).mgmt = s.mgmt
      ∧ (dropTurnIfMute s).repair.queue = s.repair.queue := by
  unfold dropTurnIfMute; (repeat' split) <;> simp

@[simp] theorem offer_frame (q : Queued) (s : State) :
    (offer q s).pending = s.pending ∧ (offer q s).hold = s.hold ∧ (offer q s).clock = s.clock
      ∧ (offer q s).lanes = s.lanes ∧ (offer q s).drive = s.drive ∧ (offer q s).table = s.table
      ∧ (offer q s).send = s.send ∧ (offer q s).repair = s.repair ∧ (offer q s).recv = s.recv
      ∧ (offer q s).ctrl = s.ctrl ∧ (offer q s).mgmt = s.mgmt ∧ (offer q s).notices.flight = s.notices.flight
      ∧ (offer q s).notices.tentative = s.notices.tentative ∧ (offer q s).notices.lastAnswer = s.notices.lastAnswer := by
  unfold offer; (repeat' split) <;> simp

@[simp] theorem withdrawAsk_frame (p : Port) (s : State) :
    (withdrawAsk p s).pending = s.pending ∧ (withdrawAsk p s).hold = s.hold ∧ (withdrawAsk p s).clock = s.clock
      ∧ (withdrawAsk p s).lanes = s.lanes ∧ (withdrawAsk p s).drive = s.drive ∧ (withdrawAsk p s).table = s.table
      ∧ (withdrawAsk p s).send = s.send ∧ (withdrawAsk p s).repair = s.repair ∧ (withdrawAsk p s).recv = s.recv
      ∧ (withdrawAsk p s).ctrl = s.ctrl ∧ (withdrawAsk p s).mgmt = s.mgmt
      ∧ (withdrawAsk p s).notices.flight = s.notices.flight
      ∧ (withdrawAsk p s).notices.tentative = s.notices.tentative
      ∧ (withdrawAsk p s).notices.lastAnswer = s.notices.lastAnswer := by
  unfold withdrawAsk; simp

@[simp] theorem closeSend_frame (p : Port) (s : State) :
    (closeSend p s).pending = s.pending ∧ (closeSend p s).hold = s.hold ∧ (closeSend p s).clock = s.clock
      ∧ (closeSend p s).lanes = s.lanes ∧ (closeSend p s).drive = s.drive ∧ (closeSend p s).table = s.table
      ∧ (closeSend p s).notices = s.notices ∧ (closeSend p s).recv = s.recv ∧ (closeSend p s).ctrl = s.ctrl
      ∧ (closeSend p s).mgmt = s.mgmt := by
  unfold closeSend; simp

@[simp] theorem offerRelease_frame (p : Port) (s : State) :
    (offerRelease p s).pending = s.pending ∧ (offerRelease p s).hold = s.hold ∧ (offerRelease p s).clock = s.clock
      ∧ (offerRelease p s).lanes = s.lanes ∧ (offerRelease p s).drive = s.drive ∧ (offerRelease p s).table = s.table
      ∧ (offerRelease p s).repair = s.repair ∧ (offerRelease p s).recv = s.recv ∧ (offerRelease p s).ctrl = s.ctrl
      ∧ (offerRelease p s).mgmt = s.mgmt ∧ (offerRelease p s).notices.flight = s.notices.flight
      ∧ (offerRelease p s).notices.tentative = s.notices.tentative
      ∧ (offerRelease p s).notices.lastAnswer = s.notices.lastAnswer := by
  unfold offerRelease; (repeat' split) <;> simp

@[simp] theorem claimCommitted_frame (p : Port) (q : Queued) (outcome : OutcomeRecord) (atRoundStart : Bool) (s : State) :
    (claimCommitted p q outcome atRoundStart s).pending = s.pending
      ∧ (claimCommitted p q outcome atRoundStart s).hold = s.hold
      ∧ (claimCommitted p q outcome atRoundStart s).clock = s.clock
      ∧ (claimCommitted p q outcome atRoundStart s).lanes = s.lanes
      ∧ (claimCommitted p q outcome atRoundStart s).drive = s.drive
      ∧ (claimCommitted p q outcome atRoundStart s).table = s.table
      ∧ (claimCommitted p q outcome atRoundStart s).repair = s.repair
      ∧ (claimCommitted p q outcome atRoundStart s).recv = s.recv
      ∧ (claimCommitted p q outcome atRoundStart s).ctrl = s.ctrl
      ∧ (claimCommitted p q outcome atRoundStart s).notices.flight = s.notices.flight
      ∧ (claimCommitted p q outcome atRoundStart s).notices.tentative = s.notices.tentative
      ∧ (claimCommitted p q outcome atRoundStart s).notices.lastAnswer = s.notices.lastAnswer := by
  unfold claimCommitted; (repeat' split) <;> simp

@[simp] theorem claimRefused_frame (p : Port) (reason : RefuseReason) (outcome : OutcomeRecord) (s : State) :
    (claimRefused p reason outcome s).pending = s.pending ∧ (claimRefused p reason outcome s).hold = s.hold
      ∧ (claimRefused p reason outcome s).clock = s.clock ∧ (claimRefused p reason outcome s).lanes = s.lanes
      ∧ (claimRefused p reason outcome s).drive = s.drive ∧ (claimRefused p reason outcome s).table = s.table
      ∧ (claimRefused p reason outcome s).notices = s.notices ∧ (claimRefused p reason outcome s).recv = s.recv
      ∧ (claimRefused p reason outcome s).ctrl = s.ctrl := by
  unfold claimRefused; (repeat' split) <;> simp

@[simp] theorem claimNotCommitted_frame (p : Port) (outcome : OutcomeRecord) (s : State) :
    (claimNotCommitted p outcome s).pending = s.pending ∧ (claimNotCommitted p outcome s).hold = s.hold
      ∧ (claimNotCommitted p outcome s).clock = s.clock ∧ (claimNotCommitted p outcome s).lanes = s.lanes
      ∧ (claimNotCommitted p outcome s).drive = s.drive ∧ (claimNotCommitted p outcome s).table = s.table
      ∧ (claimNotCommitted p outcome s).notices = s.notices ∧ (claimNotCommitted p outcome s).recv = s.recv
      ∧ (claimNotCommitted p outcome s).ctrl = s.ctrl := by
  unfold claimNotCommitted; (repeat' split) <;> simp

@[simp] theorem withdrawnEnds_frame (q : Queued) (outcome : OutcomeRecord) (s : State) :
    (withdrawnEnds q outcome s).pending = s.pending ∧ (withdrawnEnds q outcome s).hold = s.hold
      ∧ (withdrawnEnds q outcome s).clock = s.clock ∧ (withdrawnEnds q outcome s).lanes = s.lanes
      ∧ (withdrawnEnds q outcome s).drive = s.drive ∧ (withdrawnEnds q outcome s).table = s.table
      ∧ (withdrawnEnds q outcome s).notices = s.notices ∧ (withdrawnEnds q outcome s).recv = s.recv
      ∧ (withdrawnEnds q outcome s).ctrl = s.ctrl := by
  unfold withdrawnEnds; (repeat' split) <;> simp

@[simp] theorem endFlightLost_frame (s : State) :
    (endFlightLost s).pending = s.pending ∧ (endFlightLost s).hold = s.hold ∧ (endFlightLost s).clock = s.clock
      ∧ (endFlightLost s).lanes = s.lanes ∧ (endFlightLost s).drive = s.drive ∧ (endFlightLost s).table = s.table
      ∧ (endFlightLost s).recv = s.recv ∧ (endFlightLost s).ctrl = s.ctrl
      ∧ (endFlightLost s).notices.tentative = s.notices.tentative
      ∧ (endFlightLost s).notices.lastAnswer = s.notices.lastAnswer
      ∧ (endFlightLost s).notices.rollCall = s.notices.rollCall := by
  unfold endFlightLost; (repeat' split) <;> simp

@[simp] theorem carryPending_frame (s : State) :
    (carryPending s).pending = s.pending ∧ (carryPending s).hold = s.hold ∧ (carryPending s).clock = s.clock
      ∧ (carryPending s).lanes = s.lanes ∧ (carryPending s).drive = s.drive ∧ (carryPending s).notices = s.notices
      ∧ (carryPending s).send = s.send ∧ (carryPending s).repair = s.repair ∧ (carryPending s).recv = s.recv
      ∧ (carryPending s).ctrl = s.ctrl ∧ (carryPending s).mgmt = s.mgmt ∧ (carryPending s).table.live = s.table.live
      ∧ (carryPending s).table.epoch = s.table.epoch ∧ (carryPending s).table.heard = s.table.heard := by
  unfold carryPending; (repeat' split) <;> simp

@[simp] theorem recordSent_frame (s : State) :
    (recordSent s).pending = s.pending ∧ (recordSent s).hold = s.hold ∧ (recordSent s).clock = s.clock
      ∧ (recordSent s).lanes = s.lanes ∧ (recordSent s).drive = s.drive ∧ (recordSent s).table = s.table
      ∧ (recordSent s).send = s.send ∧ (recordSent s).repair = s.repair ∧ (recordSent s).recv = s.recv
      ∧ (recordSent s).ctrl = s.ctrl ∧ (recordSent s).mgmt = s.mgmt
      ∧ (recordSent s).notices.flight = s.notices.flight ∧ (recordSent s).notices.plan = s.notices.plan
      ∧ (recordSent s).notices.rollCall = s.notices.rollCall
      ∧ (recordSent s).notices.tentative = s.notices.tentative
      ∧ (recordSent s).notices.lastAnswer = s.notices.lastAnswer := by
  unfold recordSent; split <;> simp

@[simp] theorem endFlightUnanswered_frame (s : State) :
    (endFlightUnanswered s).pending = s.pending ∧ (endFlightUnanswered s).hold = s.hold
      ∧ (endFlightUnanswered s).clock = s.clock ∧ (endFlightUnanswered s).lanes = s.lanes
      ∧ (endFlightUnanswered s).drive = s.drive ∧ (endFlightUnanswered s).send = s.send
      ∧ (endFlightUnanswered s).repair = s.repair ∧ (endFlightUnanswered s).recv = s.recv
      ∧ (endFlightUnanswered s).ctrl = s.ctrl ∧ (endFlightUnanswered s).mgmt = s.mgmt
      ∧ (endFlightUnanswered s).table.live = s.table.live ∧ (endFlightUnanswered s).table.epoch = s.table.epoch
      ∧ (endFlightUnanswered s).table.heard = s.table.heard
      ∧ (endFlightUnanswered s).notices.tentative = s.notices.tentative
      ∧ (endFlightUnanswered s).notices.lastAnswer = s.notices.lastAnswer
      ∧ (endFlightUnanswered s).notices.rollCall = s.notices.rollCall := by
  unfold endFlightUnanswered; (repeat' split) <;> simp

@[simp] theorem recordUnread_frame (s : State) :
    (recordUnread s).pending = s.pending ∧ (recordUnread s).hold = s.hold ∧ (recordUnread s).clock = s.clock
      ∧ (recordUnread s).lanes = s.lanes ∧ (recordUnread s).drive = s.drive ∧ (recordUnread s).table = s.table
      ∧ (recordUnread s).send = s.send ∧ (recordUnread s).repair = s.repair ∧ (recordUnread s).recv = s.recv
      ∧ (recordUnread s).ctrl = s.ctrl ∧ (recordUnread s).mgmt = s.mgmt
      ∧ (recordUnread s).notices.queue = s.notices.queue ∧ (recordUnread s).notices.flight = s.notices.flight
      ∧ (recordUnread s).notices.tentative = s.notices.tentative
      ∧ (recordUnread s).notices.rollCall = s.notices.rollCall := by
  unfold recordUnread; simp

@[simp] theorem endFlightOnLeaving_frame (s : State) :
    (endFlightOnLeaving s).pending = s.pending ∧ (endFlightOnLeaving s).hold = s.hold
      ∧ (endFlightOnLeaving s).clock = s.clock ∧ (endFlightOnLeaving s).lanes = s.lanes
      ∧ (endFlightOnLeaving s).drive = s.drive ∧ (endFlightOnLeaving s).recv = s.recv
      ∧ (endFlightOnLeaving s).ctrl = s.ctrl ∧ (endFlightOnLeaving s).table.live = s.table.live
      ∧ (endFlightOnLeaving s).table.epoch = s.table.epoch ∧ (endFlightOnLeaving s).table.heard = s.table.heard
      ∧ (endFlightOnLeaving s).notices.rollCall = s.notices.rollCall := by
  unfold endFlightOnLeaving; (repeat' split) <;> simp

@[simp] theorem changeMode_frame (m : Mode) (cause : ModeCause) (s : State) :
    (changeMode m cause s).pending = s.pending ∧ (changeMode m cause s).hold = s.hold
      ∧ (changeMode m cause s).clock = s.clock ∧ (changeMode m cause s).drive = s.drive
      ∧ (changeMode m cause s).table = s.table ∧ (changeMode m cause s).notices = s.notices
      ∧ (changeMode m cause s).send = s.send ∧ (changeMode m cause s).recv = s.recv
      ∧ (changeMode m cause s).ctrl.option = s.ctrl.option ∧ (changeMode m cause s).ctrl.context = s.ctrl.context
      ∧ (changeMode m cause s).ctrl.supply = s.ctrl.supply ∧ (changeMode m cause s).ctrl.orphans = s.ctrl.orphans
      ∧ (changeMode m cause s).repair.queue = s.repair.queue := by
  unfold changeMode; (repeat' split) <;> simp

@[simp] theorem beginLearning_frame (epoch : Option Epoch) (runs : List CarriedRun) (s : State) :
    (beginLearning epoch runs s).pending = s.pending ∧ (beginLearning epoch runs s).hold = s.hold
      ∧ (beginLearning epoch runs s).clock = s.clock ∧ (beginLearning epoch runs s).lanes = s.lanes
      ∧ (beginLearning epoch runs s).drive = s.drive ∧ (beginLearning epoch runs s).notices = s.notices
      ∧ (beginLearning epoch runs s).send = s.send ∧ (beginLearning epoch runs s).repair = s.repair
      ∧ (beginLearning epoch runs s).recv = s.recv ∧ (beginLearning epoch runs s).ctrl = s.ctrl
      ∧ (beginLearning epoch runs s).mgmt = s.mgmt ∧ (beginLearning epoch runs s).table.live = s.table.live
      ∧ (beginLearning epoch runs s).table.epoch = s.table.epoch
      ∧ (beginLearning epoch runs s).table.heard = s.table.heard := by
  unfold beginLearning; simp

@[simp] theorem enterResync_frame (cause : ModeCause) (epoch : Epoch) (s : State) :
    (enterResync cause epoch s).pending = s.pending ∧ (enterResync cause epoch s).hold = s.hold
      ∧ (enterResync cause epoch s).clock = s.clock ∧ (enterResync cause epoch s).drive = s.drive
      ∧ (enterResync cause epoch s).notices = s.notices ∧ (enterResync cause epoch s).send = s.send
      ∧ (enterResync cause epoch s).recv = s.recv ∧ (enterResync cause epoch s).ctrl.option = s.ctrl.option
      ∧ (enterResync cause epoch s).ctrl.context = s.ctrl.context
      ∧ (enterResync cause epoch s).ctrl.supply = s.ctrl.supply
      ∧ (enterResync cause epoch s).ctrl.orphans = s.ctrl.orphans
      ∧ (enterResync cause epoch s).table.live = s.table.live
      ∧ (enterResync cause epoch s).table.epoch = s.table.epoch
      ∧ (enterResync cause epoch s).table.heard = s.table.heard
      ∧ (enterResync cause epoch s).repair.queue = s.repair.queue := by
  unfold enterResync; simp

@[simp] theorem enterDark_frame (returnMode : Mode) (s : State) :
    (enterDark returnMode s).pending = s.pending ∧ (enterDark returnMode s).hold = s.hold
      ∧ (enterDark returnMode s).clock = s.clock ∧ (enterDark returnMode s).drive = s.drive
      ∧ (enterDark returnMode s).recv = s.recv ∧ (enterDark returnMode s).ctrl.option = s.ctrl.option
      ∧ (enterDark returnMode s).ctrl.context = s.ctrl.context ∧ (enterDark returnMode s).ctrl.supply = s.ctrl.supply
      ∧ (enterDark returnMode s).ctrl.orphans = s.ctrl.orphans ∧ (enterDark returnMode s).table.live = s.table.live
      ∧ (enterDark returnMode s).table.epoch = s.table.epoch ∧ (enterDark returnMode s).table.heard = s.table.heard
      ∧ (enterDark returnMode s).notices.rollCall = s.notices.rollCall := by
  unfold enterDark; simp

@[simp] theorem darkOnset_frame (s : State) :
    (darkOnset s).pending = s.pending ∧ (darkOnset s).hold = s.hold ∧ (darkOnset s).clock = s.clock
      ∧ (darkOnset s).drive = s.drive ∧ (darkOnset s).recv = s.recv ∧ (darkOnset s).ctrl.option = s.ctrl.option
      ∧ (darkOnset s).ctrl.context = s.ctrl.context ∧ (darkOnset s).ctrl.supply = s.ctrl.supply
      ∧ (darkOnset s).ctrl.orphans = s.ctrl.orphans ∧ (darkOnset s).table.live = s.table.live
      ∧ (darkOnset s).table.epoch = s.table.epoch ∧ (darkOnset s).table.heard = s.table.heard
      ∧ (darkOnset s).notices.rollCall = s.notices.rollCall := by
  unfold darkOnset; (repeat' split) <;> simp

@[simp] theorem darkEnd_frame (s : State) :
    (darkEnd s).pending = s.pending ∧ (darkEnd s).hold = s.hold ∧ (darkEnd s).clock = s.clock
      ∧ (darkEnd s).drive = s.drive ∧ (darkEnd s).notices = s.notices ∧ (darkEnd s).send = s.send
      ∧ (darkEnd s).recv = s.recv ∧ (darkEnd s).ctrl.option = s.ctrl.option
      ∧ (darkEnd s).ctrl.context = s.ctrl.context ∧ (darkEnd s).ctrl.supply = s.ctrl.supply
      ∧ (darkEnd s).ctrl.orphans = s.ctrl.orphans ∧ (darkEnd s).table.live = s.table.live
      ∧ (darkEnd s).table.epoch = s.table.epoch ∧ (darkEnd s).table.heard = s.table.heard
      ∧ (darkEnd s).repair.queue = s.repair.queue := by
  unfold darkEnd; dsimp only; (repeat' split) <;> simp

@[simp] theorem enterFaulted_frame (reason : FaultReason) (cause : ModeCause) (s : State) :
    (enterFaulted reason cause s).pending = s.pending ∧ (enterFaulted reason cause s).hold = s.hold
      ∧ (enterFaulted reason cause s).clock = s.clock ∧ (enterFaulted reason cause s).recv = s.recv
      ∧ (enterFaulted reason cause s).ctrl.option = s.ctrl.option
      ∧ (enterFaulted reason cause s).ctrl.supply = s.ctrl.supply
      ∧ (enterFaulted reason cause s).ctrl.orphans = s.ctrl.orphans
      ∧ (enterFaulted reason cause s).table.live = s.table.live
      ∧ (enterFaulted reason cause s).table.epoch = s.table.epoch
      ∧ (enterFaulted reason cause s).table.heard = s.table.heard
      ∧ (enterFaulted reason cause s).notices.rollCall = s.notices.rollCall := by
  unfold enterFaulted; simp

@[simp] theorem testEpoch_frame (e : Epoch) (s : State) :
    (testEpoch e s).pending = s.pending ∧ (testEpoch e s).hold = s.hold ∧ (testEpoch e s).clock = s.clock
      ∧ (testEpoch e s).drive = s.drive ∧ (testEpoch e s).notices = s.notices ∧ (testEpoch e s).send = s.send
      ∧ (testEpoch e s).recv = s.recv ∧ (testEpoch e s).ctrl.option = s.ctrl.option
      ∧ (testEpoch e s).ctrl.context = s.ctrl.context ∧ (testEpoch e s).ctrl.supply = s.ctrl.supply
      ∧ (testEpoch e s).ctrl.orphans = s.ctrl.orphans ∧ (testEpoch e s).table.live = s.table.live
      ∧ (testEpoch e s).table.epoch = s.table.epoch ∧ (testEpoch e s).table.heard = s.table.heard
      ∧ (testEpoch e s).repair.queue = s.repair.queue := by
  unfold testEpoch; (repeat' split) <;> simp

@[simp] theorem laneChanged_frame (wasDark : Bool) (s : State) :
    (laneChanged wasDark s).pending = s.pending ∧ (laneChanged wasDark s).hold = s.hold
      ∧ (laneChanged wasDark s).clock = s.clock ∧ (laneChanged wasDark s).drive = s.drive
      ∧ (laneChanged wasDark s).recv = s.recv ∧ (laneChanged wasDark s).ctrl.option = s.ctrl.option
      ∧ (laneChanged wasDark s).ctrl.context = s.ctrl.context ∧ (laneChanged wasDark s).ctrl.supply = s.ctrl.supply
      ∧ (laneChanged wasDark s).ctrl.orphans = s.ctrl.orphans ∧ (laneChanged wasDark s).table.live = s.table.live
      ∧ (laneChanged wasDark s).table.epoch = s.table.epoch ∧ (laneChanged wasDark s).table.heard = s.table.heard
      ∧ (laneChanged wasDark s).notices.rollCall = s.notices.rollCall := by
  unfold laneChanged; dsimp only; (repeat' split) <;> simp

@[simp] theorem enterSurge_frame (id : LaneId) (cause : SurgeCause) (s : State) :
    (enterSurge id cause s).pending = s.pending ∧ (enterSurge id cause s).hold = s.hold
      ∧ (enterSurge id cause s).clock = s.clock ∧ (enterSurge id cause s).drive = s.drive
      ∧ (enterSurge id cause s).recv = s.recv ∧ (enterSurge id cause s).ctrl.option = s.ctrl.option
      ∧ (enterSurge id cause s).ctrl.context = s.ctrl.context ∧ (enterSurge id cause s).ctrl.supply = s.ctrl.supply
      ∧ (enterSurge id cause s).ctrl.orphans = s.ctrl.orphans ∧ (enterSurge id cause s).table.live = s.table.live
      ∧ (enterSurge id cause s).table.epoch = s.table.epoch ∧ (enterSurge id cause s).table.heard = s.table.heard
      ∧ (enterSurge id cause s).notices.rollCall = s.notices.rollCall := by
  unfold enterSurge; simp

@[simp] theorem enterSettling_frame (id : LaneId) (s : State) :
    (enterSettling id s).pending = s.pending ∧ (enterSettling id s).hold = s.hold
      ∧ (enterSettling id s).clock = s.clock ∧ (enterSettling id s).drive = s.drive
      ∧ (enterSettling id s).recv = s.recv ∧ (enterSettling id s).ctrl.option = s.ctrl.option
      ∧ (enterSettling id s).ctrl.context = s.ctrl.context ∧ (enterSettling id s).ctrl.supply = s.ctrl.supply
      ∧ (enterSettling id s).ctrl.orphans = s.ctrl.orphans ∧ (enterSettling id s).table.live = s.table.live
      ∧ (enterSettling id s).table.epoch = s.table.epoch ∧ (enterSettling id s).table.heard = s.table.heard
      ∧ (enterSettling id s).notices.rollCall = s.notices.rollCall := by
  unfold enterSettling; simp

@[simp] theorem enterUsable_frame (id : LaneId) (new : LaneState) (s : State) :
    (enterUsable id new s).pending = s.pending ∧ (enterUsable id new s).hold = s.hold
      ∧ (enterUsable id new s).clock = s.clock ∧ (enterUsable id new s).drive = s.drive
      ∧ (enterUsable id new s).table = s.table ∧ (enterUsable id new s).notices = s.notices
      ∧ (enterUsable id new s).send = s.send ∧ (enterUsable id new s).repair = s.repair
      ∧ (enterUsable id new s).recv = s.recv ∧ (enterUsable id new s).ctrl = s.ctrl := by
  unfold enterUsable; simp

@[simp] theorem changeCause_frame (id : LaneId) (cause : SurgeCause) (s : State) :
    (changeCause id cause s).pending = s.pending ∧ (changeCause id cause s).hold = s.hold
      ∧ (changeCause id cause s).clock = s.clock ∧ (changeCause id cause s).drive = s.drive
      ∧ (changeCause id cause s).table = s.table ∧ (changeCause id cause s).notices = s.notices
      ∧ (changeCause id cause s).send = s.send ∧ (changeCause id cause s).repair = s.repair
      ∧ (changeCause id cause s).recv = s.recv ∧ (changeCause id cause s).ctrl = s.ctrl := by
  unfold changeCause; simp

@[simp] theorem settleExit_frame (id : LaneId) (s : State) :
    (settleExit id s).pending = s.pending ∧ (settleExit id s).hold = s.hold ∧ (settleExit id s).clock = s.clock
      ∧ (settleExit id s).drive = s.drive ∧ (settleExit id s).table = s.table ∧ (settleExit id s).notices = s.notices
      ∧ (settleExit id s).send = s.send ∧ (settleExit id s).repair = s.repair ∧ (settleExit id s).recv = s.recv
      ∧ (settleExit id s).ctrl = s.ctrl := by
  unfold settleExit; dsimp only; (repeat' split) <;> simp

@[simp] theorem checkSend_frame (p : Port) (s : State) :
    (checkSend p s).pending = s.pending ∧ (checkSend p s).hold = s.hold ∧ (checkSend p s).clock = s.clock
      ∧ (checkSend p s).lanes = s.lanes ∧ (checkSend p s).drive = s.drive ∧ (checkSend p s).table = s.table
      ∧ (checkSend p s).notices = s.notices ∧ (checkSend p s).recv = s.recv ∧ (checkSend p s).ctrl = s.ctrl := by
  unfold checkSend; dsimp only; (repeat' split) <;> simp

@[simp] theorem checkRecv_frame (p : Port) (s : State) :
    (checkRecv p s).pending = s.pending ∧ (checkRecv p s).hold = s.hold ∧ (checkRecv p s).clock = s.clock
      ∧ (checkRecv p s).lanes = s.lanes ∧ (checkRecv p s).drive = s.drive ∧ (checkRecv p s).table = s.table
      ∧ (checkRecv p s).send = s.send ∧ (checkRecv p s).repair = s.repair ∧ (checkRecv p s).ctrl = s.ctrl
      ∧ (checkRecv p s).notices.flight = s.notices.flight ∧ (checkRecv p s).notices.tentative = s.notices.tentative
      ∧ (checkRecv p s).notices.lastAnswer = s.notices.lastAnswer := by
  unfold checkRecv; dsimp only; (repeat' split) <;> simp

@[simp] theorem tableChanged_frame (sendFirst : Bool) (s : State) :
    (tableChanged sendFirst s).pending = s.pending ∧ (tableChanged sendFirst s).hold = s.hold
      ∧ (tableChanged sendFirst s).clock = s.clock ∧ (tableChanged sendFirst s).lanes = s.lanes
      ∧ (tableChanged sendFirst s).drive = s.drive ∧ (tableChanged sendFirst s).table = s.table
      ∧ (tableChanged sendFirst s).ctrl = s.ctrl ∧ (tableChanged sendFirst s).notices.flight = s.notices.flight
      ∧ (tableChanged sendFirst s).notices.tentative = s.notices.tentative
      ∧ (tableChanged sendFirst s).notices.lastAnswer = s.notices.lastAnswer := by
  unfold tableChanged; (repeat' split) <;> simp

@[simp] theorem startAnswer_frame (s : State) :
    (startAnswer s).pending = s.pending ∧ (startAnswer s).hold = s.hold ∧ (startAnswer s).clock = s.clock
      ∧ (startAnswer s).table = s.table ∧ (startAnswer s).notices = s.notices ∧ (startAnswer s).send = s.send
      ∧ (startAnswer s).repair = s.repair ∧ (startAnswer s).recv = s.recv ∧ (startAnswer s).ctrl = s.ctrl
      ∧ (startAnswer s).mgmt = s.mgmt := by
  unfold startAnswer; simp

@[simp] theorem endAnswer_frame (s : State) :
    (endAnswer s).pending = s.pending ∧ (endAnswer s).hold = s.hold ∧ (endAnswer s).clock = s.clock
      ∧ (endAnswer s).table = s.table ∧ (endAnswer s).notices = s.notices ∧ (endAnswer s).send = s.send
      ∧ (endAnswer s).repair = s.repair ∧ (endAnswer s).recv = s.recv ∧ (endAnswer s).ctrl = s.ctrl
      ∧ (endAnswer s).mgmt = s.mgmt := by
  unfold endAnswer; simp

@[simp] theorem endNoticeBody_frame (s : State) :
    (endNoticeBody s).pending = s.pending ∧ (endNoticeBody s).hold = s.hold ∧ (endNoticeBody s).clock = s.clock
      ∧ (endNoticeBody s).lanes = s.lanes ∧ (endNoticeBody s).drive = s.drive ∧ (endNoticeBody s).table = s.table
      ∧ (endNoticeBody s).send = s.send ∧ (endNoticeBody s).repair = s.repair ∧ (endNoticeBody s).recv = s.recv
      ∧ (endNoticeBody s).ctrl = s.ctrl ∧ (endNoticeBody s).mgmt = s.mgmt
      ∧ (endNoticeBody s).notices.tentative = s.notices.tentative
      ∧ (endNoticeBody s).notices.lastAnswer = s.notices.lastAnswer
      ∧ (endNoticeBody s).notices.queue = s.notices.queue
      ∧ (endNoticeBody s).notices.plan = s.notices.plan
      ∧ (endNoticeBody s).notices.rollCall = s.notices.rollCall ∧ (endNoticeBody s).notices.sentNotice = s.notices.sentNotice := by
  unfold endNoticeBody; (repeat' split) <;> simp

/-- Without a flight the end of a notice body changes nothing (R28). -/
theorem endNoticeBody_of_no_flight {s : State} (h : s.notices.flight = none) : endNoticeBody s = s := by
  unfold endNoticeBody; rw [h]

@[simp] theorem startRepairLeadIn_frame (s : State) :
    (startRepairLeadIn s).pending = s.pending ∧ (startRepairLeadIn s).hold = s.hold
      ∧ (startRepairLeadIn s).clock = s.clock ∧ (startRepairLeadIn s).table = s.table
      ∧ (startRepairLeadIn s).notices = s.notices ∧ (startRepairLeadIn s).send = s.send
      ∧ (startRepairLeadIn s).repair = s.repair ∧ (startRepairLeadIn s).recv = s.recv
      ∧ (startRepairLeadIn s).ctrl = s.ctrl ∧ (startRepairLeadIn s).mgmt = s.mgmt := by
  unfold startRepairLeadIn; dsimp only; (repeat' split) <;> simp

@[simp] theorem startSlotDrive_frame (s : State) :
    (startSlotDrive s).pending = s.pending ∧ (startSlotDrive s).hold = s.hold ∧ (startSlotDrive s).clock = s.clock
      ∧ (startSlotDrive s).table = s.table ∧ (startSlotDrive s).notices = s.notices ∧ (startSlotDrive s).send = s.send
      ∧ (startSlotDrive s).repair = s.repair ∧ (startSlotDrive s).recv = s.recv ∧ (startSlotDrive s).ctrl = s.ctrl
      ∧ (startSlotDrive s).mgmt = s.mgmt := by
  unfold startSlotDrive; (repeat' split) <;> simp

@[simp] theorem passMoments_frame (crossed : Nat → Bool) (s : State) :
    (passMoments crossed s).pending = s.pending ∧ (passMoments crossed s).hold = s.hold
      ∧ (passMoments crossed s).clock = s.clock ∧ (passMoments crossed s).table = s.table
      ∧ (passMoments crossed s).send = s.send ∧ (passMoments crossed s).repair = s.repair
      ∧ (passMoments crossed s).recv = s.recv ∧ (passMoments crossed s).ctrl = s.ctrl
      ∧ (passMoments crossed s).mgmt = s.mgmt ∧ (passMoments crossed s).notices.tentative = s.notices.tentative
      ∧ (passMoments crossed s).notices.lastAnswer = s.notices.lastAnswer
      ∧ (passMoments crossed s).notices.queue = s.notices.queue
      ∧ (passMoments crossed s).notices.plan = s.notices.plan
      ∧ (passMoments crossed s).notices.rollCall = s.notices.rollCall ∧ (passMoments crossed s).notices.sentNotice = s.notices.sentNotice := by
  unfold passMoments; simp; simp only [applyIf]; split <;> simp

/-- Without a flight no moment of a round changes the notice engine. -/
theorem passMoments_notices_of_no_flight {crossed : Nat → Bool} {s : State} (h : s.notices.flight = none) :
    (passMoments crossed s).notices = s.notices := by
  have e : applyIf (crossed Config.noticeBodyEnd) endNoticeBody s = s := by
    simp only [applyIf, endNoticeBody_of_no_flight h]; split <;> rfl
  unfold passMoments; dsimp only; rw [e]; simp only [applyIf]; (repeat' split) <;> simp

@[simp] theorem reach_frame (r : Nat) (s : State) :
    (reach r s).pending = s.pending ∧ (reach r s).hold = s.hold ∧ (reach r s).table = s.table
      ∧ (reach r s).send = s.send ∧ (reach r s).repair = s.repair ∧ (reach r s).recv = s.recv
      ∧ (reach r s).ctrl = s.ctrl ∧ (reach r s).mgmt = s.mgmt ∧ (reach r s).clock.round = s.clock.round
      ∧ (reach r s).clock.capture = s.clock.capture ∧ (reach r s).clock.pacing = s.clock.pacing
      ∧ (reach r s).clock.validCount = s.clock.validCount ∧ (reach r s).notices.tentative = s.notices.tentative
      ∧ (reach r s).notices.lastAnswer = s.notices.lastAnswer
      ∧ (reach r s).notices.queue = s.notices.queue
      ∧ (reach r s).notices.plan = s.notices.plan
      ∧ (reach r s).notices.rollCall = s.notices.rollCall ∧ (reach r s).notices.sentNotice = s.notices.sentNotice := by
  unfold reach; dsimp only; (repeat' split) <;> simp

theorem reach_notices_of_no_flight {r : Nat} {s : State} (h : s.notices.flight = none) : (reach r s).notices = s.notices := by
  unfold reach; dsimp only; (repeat' split) <;> simp [h, passMoments_notices_of_no_flight]

@[simp] theorem tellLevels_frame (a b : LevelShown) (s : State) :
    (tellLevels a b s).pending = s.pending ∧ (tellLevels a b s).hold = s.hold
      ∧ (tellLevels a b s).clock = s.clock ∧ (tellLevels a b s).drive = s.drive
      ∧ (tellLevels a b s).table = s.table ∧ (tellLevels a b s).notices = s.notices
      ∧ (tellLevels a b s).send = s.send ∧ (tellLevels a b s).repair = s.repair
      ∧ (tellLevels a b s).recv = s.recv ∧ (tellLevels a b s).ctrl = s.ctrl
      ∧ (tellLevels a b s).mgmt = s.mgmt := by
  unfold tellLevels; simp

@[simp] theorem atEvent_frame (k : Nat) (s : State) :
    (atEvent k s).pending = s.pending ∧ (atEvent k s).hold = s.hold ∧ (atEvent k s).table = s.table
      ∧ (atEvent k s).send = s.send ∧ (atEvent k s).repair = s.repair ∧ (atEvent k s).recv = s.recv
      ∧ (atEvent k s).ctrl = s.ctrl ∧ (atEvent k s).mgmt = s.mgmt ∧ (atEvent k s).clock.round = s.clock.round
      ∧ (atEvent k s).clock.capture = s.clock.capture ∧ (atEvent k s).clock.pacing = s.clock.pacing
      ∧ (atEvent k s).clock.validCount = s.clock.validCount ∧ (atEvent k s).notices.tentative = s.notices.tentative
      ∧ (atEvent k s).notices.lastAnswer = s.notices.lastAnswer
      ∧ (atEvent k s).notices.queue = s.notices.queue
      ∧ (atEvent k s).notices.plan = s.notices.plan
      ∧ (atEvent k s).notices.rollCall = s.notices.rollCall ∧ (atEvent k s).notices.sentNotice = s.notices.sentNotice := by
  unfold atEvent; simp

theorem atEvent_notices_of_no_flight {k : Nat} {s : State} (h : s.notices.flight = none) : (atEvent k s).notices = s.notices := by
  unfold atEvent; exact reach_notices_of_no_flight h

@[simp] theorem dated_pending (r : Nat) (f : State → State) (h : ∀ s, (f s).pending = s.pending) (s : State) :
    (dated r f s).pending = s.pending := by
  unfold dated; split <;> simp [h]

@[simp] theorem fieldEvent_pending (k : Nat) (f : State → State) (h : ∀ s, (f s).pending = s.pending) (s : State) :
    (fieldEvent k f s).pending = s.pending := by
  unfold fieldEvent; split <;> simp [h]

@[simp] theorem dated_hold (r : Nat) (f : State → State) (h : ∀ s, (f s).hold = s.hold) (s : State) :
    (dated r f s).hold = s.hold := by
  unfold dated; split <;> simp [h]

@[simp] theorem fieldEvent_hold (k : Nat) (f : State → State) (h : ∀ s, (f s).hold = s.hold) (s : State) :
    (fieldEvent k f s).hold = s.hold := by
  unfold fieldEvent; split <;> simp [h]

@[simp] theorem dated_table (r : Nat) (f : State → State) (h : ∀ s, (f s).table = s.table) (s : State) :
    (dated r f s).table = s.table := by
  unfold dated; split <;> simp [h]

@[simp] theorem fieldEvent_table (k : Nat) (f : State → State) (h : ∀ s, (f s).table = s.table) (s : State) :
    (fieldEvent k f s).table = s.table := by
  unfold fieldEvent; split <;> simp [h]

@[simp] theorem dated_send (r : Nat) (f : State → State) (h : ∀ s, (f s).send = s.send) (s : State) :
    (dated r f s).send = s.send := by
  unfold dated; split <;> simp [h]

@[simp] theorem fieldEvent_send (k : Nat) (f : State → State) (h : ∀ s, (f s).send = s.send) (s : State) :
    (fieldEvent k f s).send = s.send := by
  unfold fieldEvent; split <;> simp [h]

@[simp] theorem dated_repair (r : Nat) (f : State → State) (h : ∀ s, (f s).repair = s.repair) (s : State) :
    (dated r f s).repair = s.repair := by
  unfold dated; split <;> simp [h]

@[simp] theorem fieldEvent_repair (k : Nat) (f : State → State) (h : ∀ s, (f s).repair = s.repair) (s : State) :
    (fieldEvent k f s).repair = s.repair := by
  unfold fieldEvent; split <;> simp [h]

@[simp] theorem dated_recv (r : Nat) (f : State → State) (h : ∀ s, (f s).recv = s.recv) (s : State) :
    (dated r f s).recv = s.recv := by
  unfold dated; split <;> simp [h]

@[simp] theorem fieldEvent_recv (k : Nat) (f : State → State) (h : ∀ s, (f s).recv = s.recv) (s : State) :
    (fieldEvent k f s).recv = s.recv := by
  unfold fieldEvent; split <;> simp [h]

@[simp] theorem dated_ctrl (r : Nat) (f : State → State) (h : ∀ s, (f s).ctrl = s.ctrl) (s : State) :
    (dated r f s).ctrl = s.ctrl := by
  unfold dated; split <;> simp [h]

@[simp] theorem fieldEvent_ctrl (k : Nat) (f : State → State) (h : ∀ s, (f s).ctrl = s.ctrl) (s : State) :
    (fieldEvent k f s).ctrl = s.ctrl := by
  unfold fieldEvent; split <;> simp [h]

@[simp] theorem dated_mgmt (r : Nat) (f : State → State) (h : ∀ s, (f s).mgmt = s.mgmt) (s : State) :
    (dated r f s).mgmt = s.mgmt := by
  unfold dated; split <;> simp [h]

@[simp] theorem fieldEvent_mgmt (k : Nat) (f : State → State) (h : ∀ s, (f s).mgmt = s.mgmt) (s : State) :
    (fieldEvent k f s).mgmt = s.mgmt := by
  unfold fieldEvent; split <;> simp [h]

@[simp] theorem dated_ctrl_option (r : Nat) (f : State → State) (h : ∀ s, (f s).ctrl.option = s.ctrl.option) (s : State) :
    (dated r f s).ctrl.option = s.ctrl.option := by
  unfold dated; split <;> simp [h]

@[simp] theorem fieldEvent_ctrl_option (k : Nat) (f : State → State) (h : ∀ s, (f s).ctrl.option = s.ctrl.option) (s : State) :
    (fieldEvent k f s).ctrl.option = s.ctrl.option := by
  unfold fieldEvent; split <;> simp [h]

@[simp] theorem dated_ctrl_supply (r : Nat) (f : State → State) (h : ∀ s, (f s).ctrl.supply = s.ctrl.supply) (s : State) :
    (dated r f s).ctrl.supply = s.ctrl.supply := by
  unfold dated; split <;> simp [h]

@[simp] theorem fieldEvent_ctrl_supply (k : Nat) (f : State → State) (h : ∀ s, (f s).ctrl.supply = s.ctrl.supply) (s : State) :
    (fieldEvent k f s).ctrl.supply = s.ctrl.supply := by
  unfold fieldEvent; split <;> simp [h]

@[simp] theorem dated_ctrl_orphans (r : Nat) (f : State → State) (h : ∀ s, (f s).ctrl.orphans = s.ctrl.orphans) (s : State) :
    (dated r f s).ctrl.orphans = s.ctrl.orphans := by
  unfold dated; split <;> simp [h]

@[simp] theorem fieldEvent_ctrl_orphans (k : Nat) (f : State → State) (h : ∀ s, (f s).ctrl.orphans = s.ctrl.orphans) (s : State) :
    (fieldEvent k f s).ctrl.orphans = s.ctrl.orphans := by
  unfold fieldEvent; split <;> simp [h]

@[simp] theorem dated_ctrl_context (r : Nat) (f : State → State) (h : ∀ s, (f s).ctrl.context = s.ctrl.context) (s : State) :
    (dated r f s).ctrl.context = s.ctrl.context := by
  unfold dated; split <;> simp [h]

@[simp] theorem fieldEvent_ctrl_context (k : Nat) (f : State → State) (h : ∀ s, (f s).ctrl.context = s.ctrl.context) (s : State) :
    (fieldEvent k f s).ctrl.context = s.ctrl.context := by
  unfold fieldEvent; split <;> simp [h]

@[simp] theorem dated_table_live (r : Nat) (f : State → State) (h : ∀ s, (f s).table.live = s.table.live) (s : State) :
    (dated r f s).table.live = s.table.live := by
  unfold dated; split <;> simp [h]

@[simp] theorem fieldEvent_table_live (k : Nat) (f : State → State) (h : ∀ s, (f s).table.live = s.table.live) (s : State) :
    (fieldEvent k f s).table.live = s.table.live := by
  unfold fieldEvent; split <;> simp [h]

@[simp] theorem dated_table_epoch (r : Nat) (f : State → State) (h : ∀ s, (f s).table.epoch = s.table.epoch) (s : State) :
    (dated r f s).table.epoch = s.table.epoch := by
  unfold dated; split <;> simp [h]

@[simp] theorem fieldEvent_table_epoch (k : Nat) (f : State → State) (h : ∀ s, (f s).table.epoch = s.table.epoch) (s : State) :
    (fieldEvent k f s).table.epoch = s.table.epoch := by
  unfold fieldEvent; split <;> simp [h]

@[simp] theorem dated_clock_round (r : Nat) (f : State → State) (h : ∀ s, (f s).clock.round = s.clock.round) (s : State) :
    (dated r f s).clock.round = s.clock.round := by
  unfold dated; split <;> simp [h]

@[simp] theorem fieldEvent_clock_round (k : Nat) (f : State → State) (h : ∀ s, (f s).clock.round = s.clock.round) (s : State) :
    (fieldEvent k f s).clock.round = s.clock.round := by
  unfold fieldEvent; split <;> simp [h]

@[simp] theorem dated_clock_capture (r : Nat) (f : State → State) (h : ∀ s, (f s).clock.capture = s.clock.capture) (s : State) :
    (dated r f s).clock.capture = s.clock.capture := by
  unfold dated; split <;> simp [h]

@[simp] theorem fieldEvent_clock_capture (k : Nat) (f : State → State) (h : ∀ s, (f s).clock.capture = s.clock.capture) (s : State) :
    (fieldEvent k f s).clock.capture = s.clock.capture := by
  unfold fieldEvent; split <;> simp [h]

@[simp] theorem dated_clock_pacing (r : Nat) (f : State → State) (h : ∀ s, (f s).clock.pacing = s.clock.pacing) (s : State) :
    (dated r f s).clock.pacing = s.clock.pacing := by
  unfold dated; split <;> simp [h]

@[simp] theorem fieldEvent_clock_pacing (k : Nat) (f : State → State) (h : ∀ s, (f s).clock.pacing = s.clock.pacing) (s : State) :
    (fieldEvent k f s).clock.pacing = s.clock.pacing := by
  unfold fieldEvent; split <;> simp [h]

@[simp] theorem dated_clock_validCount (r : Nat) (f : State → State) (h : ∀ s, (f s).clock.validCount = s.clock.validCount) (s : State) :
    (dated r f s).clock.validCount = s.clock.validCount := by
  unfold dated; split <;> simp [h]

@[simp] theorem fieldEvent_clock_validCount (k : Nat) (f : State → State) (h : ∀ s, (f s).clock.validCount = s.clock.validCount) (s : State) :
    (fieldEvent k f s).clock.validCount = s.clock.validCount := by
  unfold fieldEvent; split <;> simp [h]

@[simp] theorem dated_repair_queue (r : Nat) (f : State → State) (h : ∀ s, (f s).repair.queue = s.repair.queue) (s : State) :
    (dated r f s).repair.queue = s.repair.queue := by
  unfold dated; split <;> simp [h]

@[simp] theorem fieldEvent_repair_queue (k : Nat) (f : State → State) (h : ∀ s, (f s).repair.queue = s.repair.queue) (s : State) :
    (fieldEvent k f s).repair.queue = s.repair.queue := by
  unfold fieldEvent; split <;> simp [h]

@[simp] theorem dated_notices_tentative (r : Nat) (f : State → State) (h : ∀ s, (f s).notices.tentative = s.notices.tentative) (s : State) :
    (dated r f s).notices.tentative = s.notices.tentative := by
  unfold dated; split <;> simp [h]

@[simp] theorem fieldEvent_notices_tentative (k : Nat) (f : State → State) (h : ∀ s, (f s).notices.tentative = s.notices.tentative) (s : State) :
    (fieldEvent k f s).notices.tentative = s.notices.tentative := by
  unfold fieldEvent; split <;> simp [h]

@[simp] theorem tick_frame (s : State) :
    (tick s).pending = s.pending ∧ (tick s).hold = s.hold ∧ (tick s).table = s.table ∧ (tick s).send = s.send
      ∧ (tick s).repair = s.repair ∧ (tick s).recv = s.recv ∧ (tick s).ctrl = s.ctrl ∧ (tick s).mgmt = s.mgmt
      ∧ (tick s).clock.round = s.clock.round ∧ (tick s).clock.capture = s.clock.capture
      ∧ (tick s).clock.pacing = s.clock.pacing ∧ (tick s).clock.validCount = s.clock.validCount
      ∧ (tick s).notices.tentative = s.notices.tentative ∧ (tick s).notices.lastAnswer = s.notices.lastAnswer := by
  unfold tick; simp

@[simp] theorem takeCurrent_frame (p : Port) (b : Block) (a : Anchor) (st : RecvStream) (s : State) :
    (takeCurrent p b a st s).pending = s.pending ∧ (takeCurrent p b a st s).hold = s.hold
      ∧ (takeCurrent p b a st s).clock = s.clock ∧ (takeCurrent p b a st s).lanes = s.lanes
      ∧ (takeCurrent p b a st s).drive = s.drive ∧ (takeCurrent p b a st s).table = s.table
      ∧ (takeCurrent p b a st s).notices = s.notices ∧ (takeCurrent p b a st s).send = s.send
      ∧ (takeCurrent p b a st s).repair = s.repair ∧ (takeCurrent p b a st s).ctrl = s.ctrl := by
  unfold takeCurrent; dsimp only; (repeat' split) <;> simp

@[simp] theorem rebase_frame (p : Port) (b : Block) (a : Anchor) (st : RecvStream) (s : State) :
    (rebase p b a st s).pending = s.pending ∧ (rebase p b a st s).hold = s.hold ∧ (rebase p b a st s).clock = s.clock
      ∧ (rebase p b a st s).lanes = s.lanes ∧ (rebase p b a st s).drive = s.drive
      ∧ (rebase p b a st s).table = s.table ∧ (rebase p b a st s).send = s.send
      ∧ (rebase p b a st s).repair = s.repair ∧ (rebase p b a st s).ctrl = s.ctrl
      ∧ (rebase p b a st s).notices.flight = s.notices.flight
      ∧ (rebase p b a st s).notices.tentative = s.notices.tentative
      ∧ (rebase p b a st s).notices.lastAnswer = s.notices.lastAnswer := by
  unfold rebase; simp

@[simp] theorem takeStanding_frame (p : Port) (b : Block) (s : State) :
    (takeStanding p b s).pending = s.pending ∧ (takeStanding p b s).hold = s.hold
      ∧ (takeStanding p b s).clock = s.clock ∧ (takeStanding p b s).lanes = s.lanes
      ∧ (takeStanding p b s).drive = s.drive ∧ (takeStanding p b s).table = s.table
      ∧ (takeStanding p b s).notices = s.notices ∧ (takeStanding p b s).send = s.send
      ∧ (takeStanding p b s).repair = s.repair ∧ (takeStanding p b s).ctrl = s.ctrl := by
  unfold takeStanding; (repeat' split) <;> simp

@[simp] theorem takeBlock_frame (p : Port) (b : Block) (s : State) :
    (takeBlock p b s).pending = s.pending ∧ (takeBlock p b s).hold = s.hold ∧ (takeBlock p b s).clock = s.clock
      ∧ (takeBlock p b s).lanes = s.lanes ∧ (takeBlock p b s).drive = s.drive ∧ (takeBlock p b s).table = s.table
      ∧ (takeBlock p b s).send = s.send ∧ (takeBlock p b s).repair = s.repair ∧ (takeBlock p b s).ctrl = s.ctrl
      ∧ (takeBlock p b s).notices.flight = s.notices.flight
      ∧ (takeBlock p b s).notices.tentative = s.notices.tentative
      ∧ (takeBlock p b s).notices.lastAnswer = s.notices.lastAnswer := by
  unfold takeBlock; (repeat' split) <;> simp

@[simp] theorem markMissing_frame (p : Port) (s : State) :
    (markMissing p s).pending = s.pending ∧ (markMissing p s).hold = s.hold ∧ (markMissing p s).clock = s.clock
      ∧ (markMissing p s).lanes = s.lanes ∧ (markMissing p s).drive = s.drive ∧ (markMissing p s).table = s.table
      ∧ (markMissing p s).notices = s.notices ∧ (markMissing p s).send = s.send ∧ (markMissing p s).repair = s.repair
      ∧ (markMissing p s).ctrl = s.ctrl ∧ (markMissing p s).mgmt = s.mgmt := by
  unfold markMissing; simp

@[simp] theorem takeResent_frame (b : Block) (p : Port) (s : State) :
    (takeResent b p s).pending = s.pending ∧ (takeResent b p s).hold = s.hold ∧ (takeResent b p s).clock = s.clock
      ∧ (takeResent b p s).lanes = s.lanes ∧ (takeResent b p s).drive = s.drive ∧ (takeResent b p s).table = s.table
      ∧ (takeResent b p s).notices = s.notices ∧ (takeResent b p s).send = s.send
      ∧ (takeResent b p s).repair = s.repair ∧ (takeResent b p s).ctrl = s.ctrl ∧ (takeResent b p s).mgmt = s.mgmt := by
  unfold takeResent; simp

@[simp] theorem takeResents_frame (m : Copy Block) (s : State) :
    (takeResents m s).pending = s.pending ∧ (takeResents m s).hold = s.hold ∧ (takeResents m s).clock = s.clock
      ∧ (takeResents m s).lanes = s.lanes ∧ (takeResents m s).drive = s.drive ∧ (takeResents m s).table = s.table
      ∧ (takeResents m s).notices = s.notices ∧ (takeResents m s).send = s.send ∧ (takeResents m s).repair = s.repair
      ∧ (takeResents m s).ctrl = s.ctrl ∧ (takeResents m s).mgmt = s.mgmt := by
  unfold takeResents; (repeat' split) <;> simp

@[simp] theorem servePass_frame (n : Nat) (m : Copy Block) (p : Port) (s : State) :
    (servePass n m p s).pending = s.pending ∧ (servePass n m p s).hold = s.hold ∧ (servePass n m p s).clock = s.clock
      ∧ (servePass n m p s).lanes = s.lanes ∧ (servePass n m p s).drive = s.drive
      ∧ (servePass n m p s).table = s.table ∧ (servePass n m p s).send = s.send
      ∧ (servePass n m p s).repair = s.repair ∧ (servePass n m p s).ctrl = s.ctrl
      ∧ (servePass n m p s).notices.flight = s.notices.flight
      ∧ (servePass n m p s).notices.tentative = s.notices.tentative
      ∧ (servePass n m p s).notices.lastAnswer = s.notices.lastAnswer := by
  unfold servePass; (repeat' split) <;> simp

@[simp] theorem handItem_frame (p : Port) (seq : Seq) (item : OutItem) (s : State) :
    (handItem p seq item s).pending = s.pending ∧ (handItem p seq item s).hold = s.hold
      ∧ (handItem p seq item s).clock = s.clock ∧ (handItem p seq item s).lanes = s.lanes
      ∧ (handItem p seq item s).drive = s.drive ∧ (handItem p seq item s).table = s.table
      ∧ (handItem p seq item s).notices = s.notices ∧ (handItem p seq item s).send = s.send
      ∧ (handItem p seq item s).repair = s.repair ∧ (handItem p seq item s).ctrl = s.ctrl := by
  unfold handItem; dsimp only; (repeat' split) <;> simp

@[simp] theorem playPlace_frame (p : Port) (pl : Place) (s : State) :
    (playPlace p pl s).pending = s.pending ∧ (playPlace p pl s).hold = s.hold ∧ (playPlace p pl s).clock = s.clock
      ∧ (playPlace p pl s).lanes = s.lanes ∧ (playPlace p pl s).drive = s.drive ∧ (playPlace p pl s).table = s.table
      ∧ (playPlace p pl s).notices = s.notices ∧ (playPlace p pl s).send = s.send
      ∧ (playPlace p pl s).repair = s.repair ∧ (playPlace p pl s).ctrl = s.ctrl := by
  unfold playPlace; (repeat' split) <;> simp

@[simp] theorem playout_frame (p : Port) (s : State) :
    (playout p s).pending = s.pending ∧ (playout p s).hold = s.hold ∧ (playout p s).clock = s.clock ∧
      (playout p s).lanes = s.lanes ∧ (playout p s).drive = s.drive ∧ (playout p s).table = s.table ∧
      (playout p s).notices = s.notices ∧ (playout p s).send = s.send ∧ (playout p s).repair = s.repair ∧
      (playout p s).ctrl = s.ctrl := by
  unfold playout
  split
  · simp
  · split
    · simp
    · dsimp only
      refine ⟨?_, ?_, ?_, ?_, ?_, ?_, ?_, ?_, ?_, ?_⟩
      · rw [foldl_pending _ (by simp), foldl_pending _ (by simp)]; simp
      · rw [foldl_hold _ (by simp), foldl_hold _ (by simp)]; simp
      · rw [foldl_clock _ (by simp), foldl_clock _ (by simp)]; simp
      · rw [foldl_lanes _ (by simp), foldl_lanes _ (by simp)]; simp
      · rw [foldl_drive _ (by simp), foldl_drive _ (by simp)]; simp
      · rw [foldl_table _ (by simp), foldl_table _ (by simp)]; simp
      · rw [foldl_notices _ (by simp), foldl_notices _ (by simp)]; simp
      · rw [foldl_send _ (by simp), foldl_send _ (by simp)]; simp
      · rw [foldl_repair _ (by simp), foldl_repair _ (by simp)]; simp
      · rw [foldl_ctrl _ (by simp), foldl_ctrl _ (by simp)]; simp

@[simp] theorem endWaits_frame (p : Port) (s : State) :
    (endWaits p s).pending = s.pending ∧ (endWaits p s).hold = s.hold ∧ (endWaits p s).clock = s.clock ∧
      (endWaits p s).lanes = s.lanes ∧ (endWaits p s).drive = s.drive ∧ (endWaits p s).table = s.table ∧
      (endWaits p s).notices = s.notices ∧ (endWaits p s).send = s.send ∧ (endWaits p s).repair = s.repair ∧
      (endWaits p s).ctrl = s.ctrl := by
  unfold endWaits
  split
  · simp
  · dsimp only
    refine ⟨?_, ?_, ?_, ?_, ?_, ?_, ?_, ?_, ?_, ?_⟩
    · rw [foldl_pending _ (by simp)]; simp
    · rw [foldl_hold _ (by simp)]; simp
    · rw [foldl_clock _ (by simp)]; simp
    · rw [foldl_lanes _ (by simp)]; simp
    · rw [foldl_drive _ (by simp)]; simp
    · rw [foldl_table _ (by simp)]; simp
    · rw [foldl_notices _ (by simp)]; simp
    · rw [foldl_send _ (by simp)]; simp
    · rw [foldl_repair _ (by simp)]; simp
    · rw [foldl_ctrl _ (by simp)]; simp

@[simp] theorem askRepairs_frame (s : State) :
    (askRepairs s).pending = s.pending ∧ (askRepairs s).hold = s.hold ∧ (askRepairs s).clock = s.clock
      ∧ (askRepairs s).lanes = s.lanes ∧ (askRepairs s).drive = s.drive ∧ (askRepairs s).table = s.table
      ∧ (askRepairs s).send = s.send ∧ (askRepairs s).repair = s.repair ∧ (askRepairs s).recv = s.recv
      ∧ (askRepairs s).ctrl = s.ctrl ∧ (askRepairs s).mgmt = s.mgmt ∧ (askRepairs s).notices.flight = s.notices.flight
      ∧ (askRepairs s).notices.tentative = s.notices.tentative
      ∧ (askRepairs s).notices.lastAnswer = s.notices.lastAnswer := by
  unfold askRepairs; (repeat' split) <;> simp

@[simp] theorem askAccepted_frame (p : Port) (first : Seq) (count : Nat) (s : State) :
    (askAccepted p first count s).pending = s.pending ∧ (askAccepted p first count s).hold = s.hold
      ∧ (askAccepted p first count s).clock = s.clock ∧ (askAccepted p first count s).lanes = s.lanes
      ∧ (askAccepted p first count s).drive = s.drive ∧ (askAccepted p first count s).table = s.table
      ∧ (askAccepted p first count s).notices = s.notices ∧ (askAccepted p first count s).send = s.send
      ∧ (askAccepted p first count s).repair = s.repair ∧ (askAccepted p first count s).ctrl = s.ctrl
      ∧ (askAccepted p first count s).mgmt = s.mgmt := by
  unfold askAccepted; simp

@[simp] theorem askGone_frame (p : Port) (first : Seq) (count : Nat) (s : State) :
    (askGone p first count s).pending = s.pending ∧ (askGone p first count s).hold = s.hold
      ∧ (askGone p first count s).clock = s.clock ∧ (askGone p first count s).lanes = s.lanes
      ∧ (askGone p first count s).drive = s.drive ∧ (askGone p first count s).table = s.table
      ∧ (askGone p first count s).notices = s.notices ∧ (askGone p first count s).send = s.send
      ∧ (askGone p first count s).repair = s.repair ∧ (askGone p first count s).ctrl = s.ctrl := by
  unfold askGone; simp

end Sys2Proof.Machine
end

