-- ==== Sys2Proof/Laws/FrameRound.lean ====
section
/-! SUPPORT. Frames of the steps of a round start. One lemma for each shared operation: every part of the state that it leaves alone, whatever it does; what it
may change is what the lemma does not name. -/

namespace Sys2Proof.Machine

open Sys2Proof

@[simp] theorem monitorRound_frame (id : LaneId) (s : State) :
    (monitorRound id s).pending = s.pending ∧ (monitorRound id s).hold = s.hold ∧ (monitorRound id s).clock = s.clock
      ∧ (monitorRound id s).drive = s.drive ∧ (monitorRound id s).table = s.table
      ∧ (monitorRound id s).notices = s.notices ∧ (monitorRound id s).send = s.send
      ∧ (monitorRound id s).repair = s.repair ∧ (monitorRound id s).recv = s.recv ∧ (monitorRound id s).ctrl = s.ctrl := by
  unfold monitorRound; dsimp only; (repeat' split) <;> simp

@[simp] theorem endStarting_frame (s : State) :
    (endStarting s).pending = s.pending ∧ (endStarting s).hold = s.hold ∧ (endStarting s).clock = s.clock
      ∧ (endStarting s).recv = s.recv ∧ (endStarting s).ctrl.option = s.ctrl.option
      ∧ (endStarting s).ctrl.supply = s.ctrl.supply ∧ (endStarting s).ctrl.orphans = s.ctrl.orphans
      ∧ (endStarting s).table.live = s.table.live ∧ (endStarting s).table.epoch = s.table.epoch
      ∧ (endStarting s).table.heard = s.table.heard := by
  unfold endStarting; (repeat' split) <;> simp

@[simp] theorem setAllOpen_frame (s : State) :
    (setAllOpen s).pending = s.pending ∧ (setAllOpen s).hold = s.hold ∧ (setAllOpen s).clock = s.clock
      ∧ (setAllOpen s).lanes = s.lanes ∧ (setAllOpen s).drive = s.drive ∧ (setAllOpen s).notices = s.notices
      ∧ (setAllOpen s).send = s.send ∧ (setAllOpen s).repair = s.repair ∧ (setAllOpen s).recv = s.recv
      ∧ (setAllOpen s).ctrl = s.ctrl ∧ (setAllOpen s).mgmt = s.mgmt ∧ (setAllOpen s).table.heard = s.table.heard := by
  unfold setAllOpen; simp

@[simp] theorem reachAloneLimit_frame (sendFirst : Bool) (s : State) :
    (reachAloneLimit sendFirst s).pending = s.pending ∧ (reachAloneLimit sendFirst s).hold = s.hold
      ∧ (reachAloneLimit sendFirst s).clock = s.clock ∧ (reachAloneLimit sendFirst s).drive = s.drive
      ∧ (reachAloneLimit sendFirst s).ctrl.option = s.ctrl.option
      ∧ (reachAloneLimit sendFirst s).ctrl.supply = s.ctrl.supply
      ∧ (reachAloneLimit sendFirst s).ctrl.orphans = s.ctrl.orphans
      ∧ (reachAloneLimit sendFirst s).table.heard = s.table.heard
      ∧ (reachAloneLimit sendFirst s).notices.flight = s.notices.flight
      ∧ (reachAloneLimit sendFirst s).notices.tentative = s.notices.tentative
      ∧ (reachAloneLimit sendFirst s).notices.lastAnswer = s.notices.lastAnswer := by
  unfold reachAloneLimit; simp

@[simp] theorem countRounds_frame (ctx : RoundCtx) (s : State) :
    (countRounds ctx s).pending = s.pending ∧ (countRounds ctx s).hold = s.hold ∧ (countRounds ctx s).clock = s.clock
      ∧ (countRounds ctx s).ctrl.option = s.ctrl.option ∧ (countRounds ctx s).ctrl.supply = s.ctrl.supply
      ∧ (countRounds ctx s).ctrl.orphans = s.ctrl.orphans ∧ (countRounds ctx s).table.heard = s.table.heard := by
  unfold countRounds; dsimp only; (repeat' split) <;> simp

@[simp] theorem replaceTable_frame (L : Learning) (s : State) :
    (replaceTable L s).pending = s.pending ∧ (replaceTable L s).hold = s.hold ∧ (replaceTable L s).clock = s.clock
      ∧ (replaceTable L s).lanes = s.lanes ∧ (replaceTable L s).drive = s.drive
      ∧ (replaceTable L s).notices = s.notices ∧ (replaceTable L s).send = s.send
      ∧ (replaceTable L s).repair = s.repair ∧ (replaceTable L s).recv = s.recv ∧ (replaceTable L s).ctrl = s.ctrl
      ∧ (replaceTable L s).table.heard = s.table.heard := by
  unfold replaceTable; simp

@[simp] theorem settlePending_frame (s : State) :
    (settlePending s).pending = s.pending ∧ (settlePending s).hold = s.hold ∧ (settlePending s).clock = s.clock
      ∧ (settlePending s).lanes = s.lanes ∧ (settlePending s).drive = s.drive ∧ (settlePending s).table = s.table
      ∧ (settlePending s).recv = s.recv ∧ (settlePending s).ctrl = s.ctrl
      ∧ (settlePending s).notices.flight = s.notices.flight
      ∧ (settlePending s).notices.tentative = s.notices.tentative
      ∧ (settlePending s).notices.lastAnswer = s.notices.lastAnswer := by
  unfold settlePending; (repeat' split) <;> simp

@[simp] theorem formOrphans_frame (s : State) :
    (formOrphans s).pending = s.pending ∧ (formOrphans s).hold = s.hold ∧ (formOrphans s).clock = s.clock
      ∧ (formOrphans s).lanes = s.lanes ∧ (formOrphans s).drive = s.drive ∧ (formOrphans s).table = s.table
      ∧ (formOrphans s).notices = s.notices ∧ (formOrphans s).send = s.send ∧ (formOrphans s).repair = s.repair
      ∧ (formOrphans s).recv = s.recv ∧ (formOrphans s).mgmt = s.mgmt ∧ (formOrphans s).ctrl.option = s.ctrl.option
      ∧ (formOrphans s).ctrl.context = s.ctrl.context ∧ (formOrphans s).ctrl.mode = s.ctrl.mode
      ∧ (formOrphans s).ctrl.supply = s.ctrl.supply := by
  unfold formOrphans; simp

@[simp] theorem takeRuns_frame (p : Port) (s : State) :
    (takeRuns p s).pending = s.pending ∧ (takeRuns p s).hold = s.hold ∧ (takeRuns p s).clock = s.clock
      ∧ (takeRuns p s).lanes = s.lanes ∧ (takeRuns p s).drive = s.drive ∧ (takeRuns p s).table = s.table
      ∧ (takeRuns p s).repair = s.repair ∧ (takeRuns p s).recv = s.recv ∧ (takeRuns p s).ctrl = s.ctrl
      ∧ (takeRuns p s).mgmt = s.mgmt ∧ (takeRuns p s).notices.flight = s.notices.flight
      ∧ (takeRuns p s).notices.tentative = s.notices.tentative
      ∧ (takeRuns p s).notices.lastAnswer = s.notices.lastAnswer := by
  unfold takeRuns; (repeat' split) <;> simp

@[simp] theorem heldRound_frame (p : Port) (s : State) :
    (heldRound p s).pending = s.pending ∧ (heldRound p s).hold = s.hold ∧ (heldRound p s).clock = s.clock
      ∧ (heldRound p s).lanes = s.lanes ∧ (heldRound p s).drive = s.drive ∧ (heldRound p s).table = s.table
      ∧ (heldRound p s).repair = s.repair ∧ (heldRound p s).recv = s.recv ∧ (heldRound p s).ctrl = s.ctrl
      ∧ (heldRound p s).notices.flight = s.notices.flight ∧ (heldRound p s).notices.tentative = s.notices.tentative
      ∧ (heldRound p s).notices.lastAnswer = s.notices.lastAnswer := by
  unfold heldRound; dsimp only; (repeat' split) <;> simp

@[simp] theorem offerReclaim_frame (s : State) (rk : Run × StationNo × Tag) :
    (offerReclaim s rk).pending = s.pending ∧ (offerReclaim s rk).hold = s.hold ∧ (offerReclaim s rk).clock = s.clock
      ∧ (offerReclaim s rk).lanes = s.lanes ∧ (offerReclaim s rk).drive = s.drive ∧ (offerReclaim s rk).send = s.send
      ∧ (offerReclaim s rk).repair = s.repair ∧ (offerReclaim s rk).recv = s.recv ∧ (offerReclaim s rk).ctrl = s.ctrl
      ∧ (offerReclaim s rk).mgmt = s.mgmt ∧ (offerReclaim s rk).table.epoch = s.table.epoch
      ∧ (offerReclaim s rk).table.heard = s.table.heard ∧ (offerReclaim s rk).table.learning = s.table.learning
      ∧ (offerReclaim s rk).notices.flight = s.notices.flight
      ∧ (offerReclaim s rk).notices.tentative = s.notices.tentative
      ∧ (offerReclaim s rk).notices.lastAnswer = s.notices.lastAnswer := by
  unfold offerReclaim; dsimp only; (repeat' split) <;> simp

@[simp] theorem offerReclaims_frame (s : State) :
    (offerReclaims s).pending = s.pending ∧ (offerReclaims s).hold = s.hold ∧ (offerReclaims s).clock = s.clock
      ∧ (offerReclaims s).lanes = s.lanes ∧ (offerReclaims s).drive = s.drive ∧ (offerReclaims s).send = s.send
      ∧ (offerReclaims s).repair = s.repair ∧ (offerReclaims s).recv = s.recv ∧ (offerReclaims s).ctrl = s.ctrl
      ∧ (offerReclaims s).mgmt = s.mgmt ∧ (offerReclaims s).table.epoch = s.table.epoch
      ∧ (offerReclaims s).table.heard = s.table.heard ∧ (offerReclaims s).table.learning = s.table.learning
      ∧ (offerReclaims s).notices.flight = s.notices.flight
      ∧ (offerReclaims s).notices.tentative = s.notices.tentative
      ∧ (offerReclaims s).notices.lastAnswer = s.notices.lastAnswer := by
  unfold offerReclaims; simp

@[simp] theorem refuseQueued_frame (reason : RefuseReason) (s : State) (q : Queued) :
    (refuseQueued reason s q).pending = s.pending ∧ (refuseQueued reason s q).hold = s.hold
      ∧ (refuseQueued reason s q).clock = s.clock ∧ (refuseQueued reason s q).lanes = s.lanes
      ∧ (refuseQueued reason s q).drive = s.drive ∧ (refuseQueued reason s q).table = s.table
      ∧ (refuseQueued reason s q).notices = s.notices ∧ (refuseQueued reason s q).recv = s.recv
      ∧ (refuseQueued reason s q).ctrl = s.ctrl := by
  unfold refuseQueued; (repeat' split) <;> simp

@[simp] theorem limitClaims_frame (s : State) :
    (limitClaims s).pending = s.pending ∧ (limitClaims s).hold = s.hold ∧ (limitClaims s).clock = s.clock
      ∧ (limitClaims s).lanes = s.lanes ∧ (limitClaims s).drive = s.drive ∧ (limitClaims s).table = s.table
      ∧ (limitClaims s).recv = s.recv ∧ (limitClaims s).ctrl = s.ctrl
      ∧ (limitClaims s).notices.flight = s.notices.flight ∧ (limitClaims s).notices.tentative = s.notices.tentative
      ∧ (limitClaims s).notices.lastAnswer = s.notices.lastAnswer := by
  unfold limitClaims; simp

@[simp] theorem aimHead_frame (q : Queued) (first : BitVec 16) (count : BitVec 5) (s : State) :
    (aimHead q first count s).pending = s.pending ∧ (aimHead q first count s).hold = s.hold
      ∧ (aimHead q first count s).clock = s.clock ∧ (aimHead q first count s).lanes = s.lanes
      ∧ (aimHead q first count s).drive = s.drive ∧ (aimHead q first count s).table = s.table
      ∧ (aimHead q first count s).repair = s.repair ∧ (aimHead q first count s).recv = s.recv
      ∧ (aimHead q first count s).ctrl = s.ctrl ∧ (aimHead q first count s).mgmt = s.mgmt
      ∧ (aimHead q first count s).notices.flight = s.notices.flight
      ∧ (aimHead q first count s).notices.tentative = s.notices.tentative
      ∧ (aimHead q first count s).notices.lastAnswer = s.notices.lastAnswer := by
  unfold aimHead; (repeat' split) <;> simp

@[simp] theorem selectNotice_frame (s : State) :
    (selectNotice s).pending = s.pending ∧ (selectNotice s).hold = s.hold ∧ (selectNotice s).clock = s.clock
      ∧ (selectNotice s).lanes = s.lanes ∧ (selectNotice s).drive = s.drive ∧ (selectNotice s).table = s.table
      ∧ (selectNotice s).send = s.send ∧ (selectNotice s).repair = s.repair ∧ (selectNotice s).recv = s.recv
      ∧ (selectNotice s).ctrl = s.ctrl ∧ (selectNotice s).mgmt = s.mgmt
      ∧ (selectNotice s).notices.tentative = s.notices.tentative
      ∧ (selectNotice s).notices.lastAnswer = s.notices.lastAnswer := by
  unfold selectNotice; (repeat' split) <;> simp

@[simp] theorem dealOrphan_frame (s : State) (o : Orphan) :
    (dealOrphan s o).pending = s.pending ∧ (dealOrphan s o).hold = s.hold ∧ (dealOrphan s o).clock = s.clock
      ∧ (dealOrphan s o).lanes = s.lanes ∧ (dealOrphan s o).drive = s.drive ∧ (dealOrphan s o).table = s.table
      ∧ (dealOrphan s o).send = s.send ∧ (dealOrphan s o).repair = s.repair ∧ (dealOrphan s o).recv = s.recv
      ∧ (dealOrphan s o).mgmt = s.mgmt ∧ (dealOrphan s o).ctrl.option = s.ctrl.option
      ∧ (dealOrphan s o).ctrl.context = s.ctrl.context ∧ (dealOrphan s o).ctrl.mode = s.ctrl.mode
      ∧ (dealOrphan s o).ctrl.supply = s.ctrl.supply ∧ (dealOrphan s o).notices.flight = s.notices.flight
      ∧ (dealOrphan s o).notices.tentative = s.notices.tentative
      ∧ (dealOrphan s o).notices.lastAnswer = s.notices.lastAnswer := by
  unfold dealOrphan; dsimp only; (repeat' split) <;> simp

@[simp] theorem dealOrphans_frame (s : State) :
    (dealOrphans s).pending = s.pending ∧ (dealOrphans s).hold = s.hold ∧ (dealOrphans s).clock = s.clock
      ∧ (dealOrphans s).lanes = s.lanes ∧ (dealOrphans s).drive = s.drive ∧ (dealOrphans s).table = s.table
      ∧ (dealOrphans s).send = s.send ∧ (dealOrphans s).repair = s.repair ∧ (dealOrphans s).recv = s.recv
      ∧ (dealOrphans s).mgmt = s.mgmt ∧ (dealOrphans s).ctrl.option = s.ctrl.option
      ∧ (dealOrphans s).ctrl.context = s.ctrl.context ∧ (dealOrphans s).ctrl.mode = s.ctrl.mode
      ∧ (dealOrphans s).ctrl.supply = s.ctrl.supply ∧ (dealOrphans s).notices.flight = s.notices.flight
      ∧ (dealOrphans s).notices.tentative = s.notices.tentative
      ∧ (dealOrphans s).notices.lastAnswer = s.notices.lastAnswer := by
  unfold dealOrphans; simp

@[simp] theorem openRound_frame (t : Nat) (s : State) :
    (openRound t s).pending = s.pending ∧ (openRound t s).hold = s.hold ∧ (openRound t s).table = s.table
      ∧ (openRound t s).notices = { s.notices with sentNotice := false } ∧ (openRound t s).recv = s.recv ∧ (openRound t s).ctrl = s.ctrl
      ∧ (openRound t s).mgmt = s.mgmt ∧ (openRound t s).clock.capture = s.clock.capture
      ∧ (openRound t s).clock.pacing = s.clock.pacing ∧ (openRound t s).clock.validCount = s.clock.validCount
      ∧ (openRound t s).repair.queue = s.repair.queue := by
  unfold openRound; simp

@[simp] theorem warmRejoin_frame (s : State) :
    (warmRejoin s).pending = s.pending ∧ (warmRejoin s).hold = s.hold ∧ (warmRejoin s).clock = s.clock
      ∧ (warmRejoin s).lanes = s.lanes ∧ (warmRejoin s).drive = s.drive ∧ (warmRejoin s).table = s.table
      ∧ (warmRejoin s).notices = s.notices ∧ (warmRejoin s).repair = s.repair ∧ (warmRejoin s).recv = s.recv
      ∧ (warmRejoin s).mgmt = s.mgmt ∧ (warmRejoin s).ctrl.option = s.ctrl.option
      ∧ (warmRejoin s).ctrl.mode = s.ctrl.mode ∧ (warmRejoin s).ctrl.supply = s.ctrl.supply
      ∧ (warmRejoin s).ctrl.orphans = s.ctrl.orphans := by
  unfold warmRejoin
  dsimp only
  split
  · refine ⟨?_, ?_, ?_, ?_, ?_, ?_, ?_, ?_, ?_, ?_, ?_, ?_, ?_, ?_⟩ <;> dsimp only
    · rw [foldl_pending _ (by simp)]
    · rw [foldl_hold _ (by simp)]
    · rw [foldl_clock _ (by simp)]
    · rw [foldl_lanes _ (by simp)]
    · rw [foldl_drive _ (by simp)]
    · rw [foldl_table _ (by simp)]
    · rw [foldl_notices _ (by simp)]
    · rw [foldl_repair _ (by simp)]
    · rw [foldl_recv _ (by simp)]
    · rw [foldl_mgmt _ (by simp)]
    · rw [foldl_ctrl _ (by simp)]
    · rw [foldl_ctrl _ (by simp)]
    · rw [foldl_ctrl _ (by simp)]
    · rw [foldl_ctrl _ (by simp)]
  · simp

@[simp] theorem completeLearning_frame (ctx : RoundCtx) (L : Learning) (s : State) :
    (completeLearning ctx L s).pending = s.pending ∧ (completeLearning ctx L s).hold = s.hold
      ∧ (completeLearning ctx L s).clock = s.clock ∧ (completeLearning ctx L s).drive = s.drive
      ∧ (completeLearning ctx L s).ctrl.option = s.ctrl.option
      ∧ (completeLearning ctx L s).ctrl.supply = s.ctrl.supply := by
  unfold completeLearning
  dsimp only
  split <;> simp

@[simp] theorem learnRound_frame (ctx : RoundCtx) (s : State) :
    (learnRound ctx s).pending = s.pending ∧ (learnRound ctx s).hold = s.hold ∧ (learnRound ctx s).clock = s.clock
      ∧ (learnRound ctx s).drive = s.drive ∧ (learnRound ctx s).ctrl.option = s.ctrl.option
      ∧ (learnRound ctx s).ctrl.supply = s.ctrl.supply := by
  unfold learnRound
  split
  · simp
  · dsimp only
    split <;> simp

@[simp] theorem rewriteContext_frame (s : State) :
    (rewriteContext s).pending = s.pending ∧ (rewriteContext s).hold = s.hold ∧ (rewriteContext s).clock = s.clock
      ∧ (rewriteContext s).lanes = s.lanes ∧ (rewriteContext s).drive = s.drive ∧ (rewriteContext s).table = s.table
      ∧ (rewriteContext s).notices = s.notices ∧ (rewriteContext s).send = s.send
      ∧ (rewriteContext s).repair = s.repair ∧ (rewriteContext s).recv = s.recv ∧ (rewriteContext s).mgmt = s.mgmt
      ∧ (rewriteContext s).ctrl.option = s.ctrl.option ∧ (rewriteContext s).ctrl.mode = s.ctrl.mode
      ∧ (rewriteContext s).ctrl.supply = s.ctrl.supply ∧ (rewriteContext s).ctrl.orphans = s.ctrl.orphans := by
  simp [rewriteContext]

@[simp] theorem revalidate_frame (n : Nat) (s : State) :
    (revalidate n s).pending = s.pending ∧ (revalidate n s).hold = s.hold ∧ (revalidate n s).clock = s.clock
      ∧ (revalidate n s).lanes = s.lanes ∧ (revalidate n s).drive = s.drive ∧ (revalidate n s).table = s.table
      ∧ (revalidate n s).recv = s.recv ∧ (revalidate n s).ctrl = s.ctrl
      ∧ (revalidate n s).notices.flight = s.notices.flight ∧ (revalidate n s).notices.tentative = s.notices.tentative
      ∧ (revalidate n s).notices.lastAnswer = s.notices.lastAnswer := by
  induction n generalizing s with
  | zero => simp [revalidate]
  | succ n ih =>
    unfold revalidate
    (repeat' split) <;> simp [ih]

@[simp] theorem roundStep_frame (ctx : RoundCtx) (s : State) (step : RoundStep) :
    (roundStep ctx s step).pending = s.pending ∧ (roundStep ctx s step).hold = s.hold
      ∧ (roundStep ctx s step).clock = s.clock ∧ (roundStep ctx s step).ctrl.option = s.ctrl.option
      ∧ (roundStep ctx s step).ctrl.supply = s.ctrl.supply := by
  cases step <;> first | (simp [roundStep]; done) | (simp only [roundStep, applyIf]; split <;> simp)

@[simp] theorem startRound_frame (order : RoundOrder) (expiry : Bool) (t : Nat) (s : State) :
    (startRound order expiry t s).pending = s.pending ∧ (startRound order expiry t s).hold = s.hold
      ∧ (startRound order expiry t s).ctrl.option = s.ctrl.option
      ∧ (startRound order expiry t s).ctrl.supply = s.ctrl.supply := by
  unfold startRound
  refine ⟨?_, ?_, ?_, ?_⟩ <;> dsimp only
  · rw [foldl_pending _ (by simp)]; simp
  · rw [foldl_hold _ (by simp)]; simp
  · rw [foldl_ctrl_option _ (by simp)]; simp
  · rw [foldl_ctrl_supply _ (by simp)]; simp

/-- A round start advances the number, restarts the timer and the field events, and leaves the rest of the clock as it is (R1 to R3). -/
theorem startRound_clock (order : RoundOrder) (expiry : Bool) (t : Nat) (s : State) :
    (startRound order expiry t s).clock
      = { s.clock with
          round := s.clock.round + 1, timer := 0, closed := 0, lateWindow := false, edgeTaken := false, drove := false } := by
  unfold startRound
  dsimp only
  rw [foldl_clock _ (by simp)]
  simp [openRound, beginField]

end Sys2Proof.Machine
end

