-- ==== Sys2Proof/Laws/Frame.lean ====
section
/-! SUPPORT. Frames of the commands' own operations. One lemma for each shared operation: every part of the state that it leaves alone, whatever it does; what it
may change is what the lemma does not name. -/

namespace Sys2Proof.Machine

open Sys2Proof

@[simp] theorem driveAtExpiry_frame (readingOpen : Bool) (s : State) :
    (driveAtExpiry readingOpen s).pending = s.pending ∧ (driveAtExpiry readingOpen s).hold = s.hold
      ∧ (driveAtExpiry readingOpen s).table = s.table ∧ (driveAtExpiry readingOpen s).notices = s.notices
      ∧ (driveAtExpiry readingOpen s).send = s.send ∧ (driveAtExpiry readingOpen s).repair = s.repair
      ∧ (driveAtExpiry readingOpen s).recv = s.recv ∧ (driveAtExpiry readingOpen s).ctrl = s.ctrl
      ∧ (driveAtExpiry readingOpen s).mgmt = s.mgmt ∧ (driveAtExpiry readingOpen s).clock.round = s.clock.round
      ∧ (driveAtExpiry readingOpen s).clock.timer = s.clock.timer
      ∧ (driveAtExpiry readingOpen s).clock.capture = s.clock.capture
      ∧ (driveAtExpiry readingOpen s).clock.validCount = s.clock.validCount := by
  unfold driveAtExpiry; (repeat' split) <;> simp

@[simp] theorem Clock.follow_round (c : Clock) (e : Bool) : (c.follow e).round = c.round := rfl
@[simp] theorem Clock.follow_timer (c : Clock) (e : Bool) : (c.follow e).timer = c.timer := rfl
@[simp] theorem Clock.follow_closed (c : Clock) (e : Bool) : (c.follow e).closed = c.closed := rfl
@[simp] theorem Clock.follow_capture (c : Clock) (e : Bool) : (c.follow e).capture = c.capture := rfl
@[simp] theorem Clock.follow_validCount (c : Clock) (e : Bool) : (c.follow e).validCount = c.validCount := rfl
@[simp] theorem Clock.follow_phase (c : Clock) (e : Bool) : (c.follow e).phase = c.phase := rfl

@[simp] theorem realign_frame (l : LaneId) (reading : Nat) (s : State) :
    (realign l reading s).pending = s.pending ∧ (realign l reading s).hold = s.hold
      ∧ (realign l reading s).table = s.table ∧ (realign l reading s).send = s.send
      ∧ (realign l reading s).repair = s.repair ∧ (realign l reading s).recv = s.recv
      ∧ (realign l reading s).ctrl = s.ctrl ∧ (realign l reading s).mgmt = s.mgmt
      ∧ (realign l reading s).clock.round = s.clock.round
      ∧ (realign l reading s).clock.validCount = s.clock.validCount
      ∧ (realign l reading s).notices.tentative = s.notices.tentative
      ∧ (realign l reading s).notices.lastAnswer = s.notices.lastAnswer := by
  unfold realign; simp

@[simp] theorem countMark_frame (valid : Bool) (s : State) :
    (countMark valid s).pending = s.pending ∧ (countMark valid s).hold = s.hold ∧ (countMark valid s).lanes = s.lanes
      ∧ (countMark valid s).drive = s.drive ∧ (countMark valid s).table = s.table
      ∧ (countMark valid s).notices = s.notices ∧ (countMark valid s).send = s.send
      ∧ (countMark valid s).repair = s.repair ∧ (countMark valid s).recv = s.recv ∧ (countMark valid s).ctrl = s.ctrl
      ∧ (countMark valid s).mgmt = s.mgmt ∧ (countMark valid s).clock.round = s.clock.round
      ∧ (countMark valid s).clock.timer = s.clock.timer ∧ (countMark valid s).clock.capture = s.clock.capture
      ∧ (countMark valid s).clock.closed = s.clock.closed := by
  unfold countMark; simp

@[simp] theorem monitorMark_frame (id : LaneId) (copy : Copy Unit) (s : State) :
    (monitorMark id copy s).pending = s.pending ∧ (monitorMark id copy s).hold = s.hold
      ∧ (monitorMark id copy s).clock = s.clock ∧ (monitorMark id copy s).drive = s.drive
      ∧ (monitorMark id copy s).table = s.table ∧ (monitorMark id copy s).notices = s.notices
      ∧ (monitorMark id copy s).send = s.send ∧ (monitorMark id copy s).repair = s.repair
      ∧ (monitorMark id copy s).recv = s.recv ∧ (monitorMark id copy s).ctrl = s.ctrl := by
  unfold monitorMark; (repeat' split) <;> simp

@[simp] theorem listenMark_frame (valid : Bool) (s : State) :
    (listenMark valid s).pending = s.pending ∧ (listenMark valid s).hold = s.hold
      ∧ (listenMark valid s).clock = s.clock ∧ (listenMark valid s).lanes = s.lanes
      ∧ (listenMark valid s).drive = s.drive ∧ (listenMark valid s).notices = s.notices
      ∧ (listenMark valid s).send = s.send ∧ (listenMark valid s).repair = s.repair
      ∧ (listenMark valid s).recv = s.recv ∧ (listenMark valid s).mgmt = s.mgmt
      ∧ (listenMark valid s).ctrl.option = s.ctrl.option ∧ (listenMark valid s).ctrl.context = s.ctrl.context
      ∧ (listenMark valid s).ctrl.mode = s.ctrl.mode ∧ (listenMark valid s).ctrl.supply = s.ctrl.supply
      ∧ (listenMark valid s).ctrl.orphans = s.ctrl.orphans ∧ (listenMark valid s).table.live = s.table.live
      ∧ (listenMark valid s).table.epoch = s.table.epoch ∧ (listenMark valid s).table.heard = s.table.heard := by
  unfold listenMark; dsimp only; (repeat' split) <;> simp

@[simp] theorem contendNotice_frame (lanes : PerLane Lane) (s : State) :
    (contendNotice lanes s).pending = s.pending ∧ (contendNotice lanes s).hold = s.hold
      ∧ (contendNotice lanes s).clock = s.clock ∧ (contendNotice lanes s).table = s.table
      ∧ (contendNotice lanes s).notices = s.notices ∧ (contendNotice lanes s).send = s.send
      ∧ (contendNotice lanes s).repair = s.repair ∧ (contendNotice lanes s).recv = s.recv
      ∧ (contendNotice lanes s).ctrl = s.ctrl ∧ (contendNotice lanes s).mgmt = s.mgmt := by
  unfold contendNotice; (repeat' split) <;> simp

@[simp] theorem closeMark_frame (a b : Copy Unit) (leadInFirst : Bool) (s : State) :
    (closeMark a b leadInFirst s).pending = s.pending ∧ (closeMark a b leadInFirst s).hold = s.hold
      ∧ (closeMark a b leadInFirst s).notices = s.notices ∧ (closeMark a b leadInFirst s).send = s.send
      ∧ (closeMark a b leadInFirst s).repair = s.repair ∧ (closeMark a b leadInFirst s).recv = s.recv
      ∧ (closeMark a b leadInFirst s).clock.round = s.clock.round
      ∧ (closeMark a b leadInFirst s).clock.timer = s.clock.timer
      ∧ (closeMark a b leadInFirst s).clock.capture = s.clock.capture
      ∧ (closeMark a b leadInFirst s).ctrl.option = s.ctrl.option
      ∧ (closeMark a b leadInFirst s).ctrl.context = s.ctrl.context
      ∧ (closeMark a b leadInFirst s).ctrl.mode = s.ctrl.mode
      ∧ (closeMark a b leadInFirst s).ctrl.supply = s.ctrl.supply
      ∧ (closeMark a b leadInFirst s).ctrl.orphans = s.ctrl.orphans
      ∧ (closeMark a b leadInFirst s).table.live = s.table.live
      ∧ (closeMark a b leadInFirst s).table.epoch = s.table.epoch
      ∧ (closeMark a b leadInFirst s).table.heard = s.table.heard
      ∧ (closeMark a b leadInFirst s).clock.closed = s.clock.closed := by
  unfold closeMark; simp

@[simp] theorem takeMarks_frame (a b : MarkReading) (leadInFirst : Bool) (s : State) :
    (takeMarks a b leadInFirst s).pending = s.pending ∧ (takeMarks a b leadInFirst s).hold = s.hold
      ∧ (takeMarks a b leadInFirst s).send = s.send ∧ (takeMarks a b leadInFirst s).recv = s.recv
      ∧ (takeMarks a b leadInFirst s).ctrl.option = s.ctrl.option
      ∧ (takeMarks a b leadInFirst s).ctrl.context = s.ctrl.context
      ∧ (takeMarks a b leadInFirst s).ctrl.supply = s.ctrl.supply
      ∧ (takeMarks a b leadInFirst s).ctrl.orphans = s.ctrl.orphans
      ∧ (takeMarks a b leadInFirst s).table.live = s.table.live
      ∧ (takeMarks a b leadInFirst s).table.epoch = s.table.epoch
      ∧ (takeMarks a b leadInFirst s).table.heard = s.table.heard
      ∧ (takeMarks a b leadInFirst s).clock.round = s.clock.round
      ∧ (takeMarks a b leadInFirst s).clock.timer = s.clock.timer
      ∧ (takeMarks a b leadInFirst s).clock.closed = s.clock.closed
      ∧ (takeMarks a b leadInFirst s).clock.capture = s.clock.capture := by
  unfold takeMarks; simp

@[simp] theorem reportAnswersLost_frame (s : State) :
    (reportAnswersLost s).pending = s.pending ∧ (reportAnswersLost s).hold = s.hold
      ∧ (reportAnswersLost s).clock = s.clock ∧ (reportAnswersLost s).drive = s.drive
      ∧ (reportAnswersLost s).notices = s.notices ∧ (reportAnswersLost s).send = s.send
      ∧ (reportAnswersLost s).recv = s.recv ∧ (reportAnswersLost s).ctrl.option = s.ctrl.option
      ∧ (reportAnswersLost s).ctrl.context = s.ctrl.context ∧ (reportAnswersLost s).ctrl.supply = s.ctrl.supply
      ∧ (reportAnswersLost s).ctrl.orphans = s.ctrl.orphans ∧ (reportAnswersLost s).table.live = s.table.live
      ∧ (reportAnswersLost s).table.epoch = s.table.epoch ∧ (reportAnswersLost s).table.heard = s.table.heard
      ∧ (reportAnswersLost s).repair.queue = s.repair.queue := by
  unfold reportAnswersLost; (repeat' split) <;> simp

@[simp] theorem loseAnswers_frame (s : State) :
    (loseAnswers s).pending = s.pending ∧ (loseAnswers s).hold = s.hold ∧ (loseAnswers s).clock = s.clock
      ∧ (loseAnswers s).drive = s.drive ∧ (loseAnswers s).recv = s.recv ∧ (loseAnswers s).ctrl.option = s.ctrl.option
      ∧ (loseAnswers s).ctrl.context = s.ctrl.context ∧ (loseAnswers s).ctrl.supply = s.ctrl.supply
      ∧ (loseAnswers s).ctrl.orphans = s.ctrl.orphans ∧ (loseAnswers s).table.live = s.table.live
      ∧ (loseAnswers s).table.epoch = s.table.epoch ∧ (loseAnswers s).table.heard = s.table.heard := by
  unfold loseAnswers; (repeat' split) <;> simp

@[simp] theorem cutShort_frame (s : State) :
    (cutShort s).pending = s.pending ∧ (cutShort s).hold = s.hold ∧ (cutShort s).clock = s.clock
      ∧ (cutShort s).drive = s.drive ∧ (cutShort s).recv = s.recv ∧ (cutShort s).ctrl.option = s.ctrl.option
      ∧ (cutShort s).ctrl.context = s.ctrl.context ∧ (cutShort s).ctrl.supply = s.ctrl.supply
      ∧ (cutShort s).ctrl.orphans = s.ctrl.orphans ∧ (cutShort s).table.live = s.table.live
      ∧ (cutShort s).table.epoch = s.table.epoch ∧ (cutShort s).table.heard = s.table.heard := by
  unfold cutShort; (repeat' split) <;> simp

@[simp] theorem adopt_frame (x : Search) (s : State) :
    (adopt x s).pending = s.pending ∧ (adopt x s).hold = s.hold ∧ (adopt x s).drive = s.drive
      ∧ (adopt x s).table = s.table ∧ (adopt x s).notices = s.notices ∧ (adopt x s).send = s.send
      ∧ (adopt x s).repair = s.repair ∧ (adopt x s).recv = s.recv ∧ (adopt x s).ctrl = s.ctrl
      ∧ (adopt x s).mgmt = s.mgmt ∧ (adopt x s).clock.round = s.clock.round
      ∧ (adopt x s).clock.validCount = s.clock.validCount := by
  unfold adopt; exact ⟨rfl, rfl, rfl, rfl, rfl, rfl, rfl, rfl, rfl, rfl, rfl, rfl⟩

@[simp] theorem expire_frame (order : RoundOrder) (s : State) :
    (expire order s).pending = s.pending ∧ (expire order s).hold = s.hold
      ∧ (expire order s).ctrl.option = s.ctrl.option ∧ (expire order s).ctrl.supply = s.ctrl.supply := by
  unfold expire; simp

@[simp] theorem startAtEdge_frame (l : LaneId) (reading : Nat) (order : RoundOrder) (s : State) :
    (startAtEdge l reading order s).pending = s.pending ∧ (startAtEdge l reading order s).hold = s.hold
      ∧ (startAtEdge l reading order s).ctrl.option = s.ctrl.option
      ∧ (startAtEdge l reading order s).ctrl.supply = s.ctrl.supply := by
  unfold startAtEdge; simp

@[simp] theorem tellAdoption_frame (l : LaneId) (second : MarkReading) (s : State) :
    (tellAdoption l second s).pending = s.pending ∧ (tellAdoption l second s).hold = s.hold
      ∧ (tellAdoption l second s).clock = s.clock ∧ (tellAdoption l second s).drive = s.drive
      ∧ (tellAdoption l second s).table = s.table ∧ (tellAdoption l second s).notices = s.notices
      ∧ (tellAdoption l second s).send = s.send ∧ (tellAdoption l second s).repair = s.repair
      ∧ (tellAdoption l second s).recv = s.recv ∧ (tellAdoption l second s).ctrl = s.ctrl
      ∧ (tellAdoption l second s).mgmt = s.mgmt := by
  unfold tellAdoption; simp

@[simp] theorem adoptMark_frame (l : LaneId) (x : Search) (second : MarkReading) (leadInFirst : Bool) (order : RoundOrder) (s : State) :
    (adoptMark l x second leadInFirst order s).pending = s.pending
      ∧ (adoptMark l x second leadInFirst order s).hold = s.hold
      ∧ (adoptMark l x second leadInFirst order s).ctrl.option = s.ctrl.option
      ∧ (adoptMark l x second leadInFirst order s).ctrl.supply = s.ctrl.supply := by
  unfold adoptMark
  cases l <;> dsimp only <;> split <;> simp

@[simp] theorem buildBlock_frame (n : Nat) (p : Port) (s : State) :
    (buildBlock n p s).pending = s.pending ∧ (buildBlock n p s).hold = s.hold ∧ (buildBlock n p s).clock = s.clock
      ∧ (buildBlock n p s).lanes = s.lanes ∧ (buildBlock n p s).table = s.table
      ∧ (buildBlock n p s).notices = s.notices ∧ (buildBlock n p s).recv = s.recv ∧ (buildBlock n p s).ctrl = s.ctrl
      ∧ (buildBlock n p s).mgmt = s.mgmt := by
  unfold buildBlock; dsimp only; (repeat' split) <;> simp

@[simp] theorem handResend_frame (n : Nat) (s : State) :
    (handResend n s).pending = s.pending ∧ (handResend n s).hold = s.hold ∧ (handResend n s).clock = s.clock
      ∧ (handResend n s).lanes = s.lanes ∧ (handResend n s).table = s.table ∧ (handResend n s).notices = s.notices
      ∧ (handResend n s).send = s.send ∧ (handResend n s).repair = s.repair ∧ (handResend n s).recv = s.recv
      ∧ (handResend n s).ctrl = s.ctrl ∧ (handResend n s).mgmt = s.mgmt := by
  unfold handResend; (repeat' split) <;> simp

@[simp] theorem startSlot_frame (n : Nat) (s : State) :
    (startSlot n s).pending = s.pending ∧ (startSlot n s).hold = s.hold ∧ (startSlot n s).clock = s.clock
      ∧ (startSlot n s).lanes = s.lanes ∧ (startSlot n s).table = s.table ∧ (startSlot n s).notices = s.notices
      ∧ (startSlot n s).recv = s.recv ∧ (startSlot n s).ctrl = s.ctrl ∧ (startSlot n s).mgmt = s.mgmt := by
  unfold startSlot; (repeat' split) <;> simp

@[simp] theorem maintain_frame (n : Nat) (m : MergedBlock) (s : State) :
    (maintain n m s).pending = s.pending ∧ (maintain n m s).hold = s.hold ∧ (maintain n m s).clock = s.clock
      ∧ (maintain n m s).lanes = s.lanes ∧ (maintain n m s).drive = s.drive ∧ (maintain n m s).notices = s.notices
      ∧ (maintain n m s).send = s.send ∧ (maintain n m s).repair = s.repair ∧ (maintain n m s).recv = s.recv
      ∧ (maintain n m s).ctrl = s.ctrl ∧ (maintain n m s).mgmt = s.mgmt ∧ (maintain n m s).table.epoch = s.table.epoch
      ∧ (maintain n m s).table.heard = s.table.heard ∧ (maintain n m s).table.learning = s.table.learning := by
  unfold maintain; (repeat' split) <;> simp

@[simp] theorem learnAtPass_frame (n : Nat) (m : Copy Block) (s : State) :
    (learnAtPass n m s).pending = s.pending ∧ (learnAtPass n m s).hold = s.hold ∧ (learnAtPass n m s).clock = s.clock
      ∧ (learnAtPass n m s).lanes = s.lanes ∧ (learnAtPass n m s).drive = s.drive
      ∧ (learnAtPass n m s).notices = s.notices ∧ (learnAtPass n m s).send = s.send
      ∧ (learnAtPass n m s).repair = s.repair ∧ (learnAtPass n m s).recv = s.recv ∧ (learnAtPass n m s).ctrl = s.ctrl
      ∧ (learnAtPass n m s).mgmt = s.mgmt ∧ (learnAtPass n m s).table.live = s.table.live
      ∧ (learnAtPass n m s).table.epoch = s.table.epoch ∧ (learnAtPass n m s).table.heard = s.table.heard := by
  unfold learnAtPass; (repeat' split) <;> simp

@[simp] theorem takeHeader_frame (m : Copy Block) (s : State) :
    (takeHeader m s).pending = s.pending ∧ (takeHeader m s).hold = s.hold ∧ (takeHeader m s).clock = s.clock
      ∧ (takeHeader m s).drive = s.drive ∧ (takeHeader m s).notices = s.notices ∧ (takeHeader m s).send = s.send
      ∧ (takeHeader m s).recv = s.recv ∧ (takeHeader m s).ctrl.option = s.ctrl.option
      ∧ (takeHeader m s).ctrl.context = s.ctrl.context ∧ (takeHeader m s).ctrl.supply = s.ctrl.supply
      ∧ (takeHeader m s).ctrl.orphans = s.ctrl.orphans ∧ (takeHeader m s).table.live = s.table.live
      ∧ (takeHeader m s).table.epoch = s.table.epoch ∧ (takeHeader m s).repair.queue = s.repair.queue := by
  unfold takeHeader; (repeat' split) <;> simp

@[simp] theorem tableAtPass_frame (n : Nat) (m : MergedBlock) (s : State) :
    (tableAtPass n m s).pending = s.pending ∧ (tableAtPass n m s).hold = s.hold ∧ (tableAtPass n m s).clock = s.clock
      ∧ (tableAtPass n m s).drive = s.drive ∧ (tableAtPass n m s).notices = s.notices
      ∧ (tableAtPass n m s).send = s.send ∧ (tableAtPass n m s).recv = s.recv
      ∧ (tableAtPass n m s).ctrl.option = s.ctrl.option ∧ (tableAtPass n m s).ctrl.context = s.ctrl.context
      ∧ (tableAtPass n m s).ctrl.supply = s.ctrl.supply ∧ (tableAtPass n m s).ctrl.orphans = s.ctrl.orphans
      ∧ (tableAtPass n m s).table.epoch = s.table.epoch ∧ (tableAtPass n m s).repair.queue = s.repair.queue := by
  unfold tableAtPass; simp

@[simp] theorem sendAtPass_frame (n : Nat) (s : State) :
    (sendAtPass n s).pending = s.pending ∧ (sendAtPass n s).hold = s.hold ∧ (sendAtPass n s).clock = s.clock
      ∧ (sendAtPass n s).lanes = s.lanes ∧ (sendAtPass n s).drive = s.drive ∧ (sendAtPass n s).table = s.table
      ∧ (sendAtPass n s).notices = s.notices ∧ (sendAtPass n s).repair = s.repair ∧ (sendAtPass n s).recv = s.recv
      ∧ (sendAtPass n s).ctrl = s.ctrl ∧ (sendAtPass n s).mgmt = s.mgmt := by
  unfold sendAtPass; simp

@[simp] theorem recvAtPass_frame (n : Nat) (m : Copy Block) (s : State) :
    (recvAtPass n m s).pending = s.pending ∧ (recvAtPass n m s).hold = s.hold ∧ (recvAtPass n m s).clock = s.clock
      ∧ (recvAtPass n m s).lanes = s.lanes ∧ (recvAtPass n m s).drive = s.drive ∧ (recvAtPass n m s).table = s.table
      ∧ (recvAtPass n m s).send = s.send ∧ (recvAtPass n m s).repair = s.repair ∧ (recvAtPass n m s).ctrl = s.ctrl
      ∧ (recvAtPass n m s).notices.flight = s.notices.flight
      ∧ (recvAtPass n m s).notices.tentative = s.notices.tentative
      ∧ (recvAtPass n m s).notices.lastAnswer = s.notices.lastAnswer := by
  unfold recvAtPass; simp

@[simp] theorem controllerAtPass_frame (n : Nat) (m : Copy Block) (s : State) :
    (controllerAtPass n m s).pending = s.pending ∧ (controllerAtPass n m s).hold = s.hold
      ∧ (controllerAtPass n m s).clock = s.clock ∧ (controllerAtPass n m s).recv = s.recv
      ∧ (controllerAtPass n m s).ctrl.option = s.ctrl.option ∧ (controllerAtPass n m s).ctrl.supply = s.ctrl.supply
      ∧ (controllerAtPass n m s).ctrl.orphans = s.ctrl.orphans ∧ (controllerAtPass n m s).table.live = s.table.live
      ∧ (controllerAtPass n m s).table.epoch = s.table.epoch ∧ (controllerAtPass n m s).table.heard = s.table.heard := by
  unfold controllerAtPass; (repeat' split) <;> simp

@[simp] theorem passStep_frame (n : Nat) (m : MergedBlock) (s : State) (step : PassStep) :
    (passStep n m s step).pending = s.pending ∧ (passStep n m s step).hold = s.hold
      ∧ (passStep n m s step).clock = s.clock ∧ (passStep n m s step).ctrl.option = s.ctrl.option
      ∧ (passStep n m s step).ctrl.supply = s.ctrl.supply ∧ (passStep n m s step).ctrl.orphans = s.ctrl.orphans
      ∧ (passStep n m s step).table.epoch = s.table.epoch := by
  unfold passStep; (repeat' split) <;> simp

@[simp] theorem countHeader_frame (id : LaneId) (r : BlockReading) (s : State) :
    (countHeader id r s).pending = s.pending ∧ (countHeader id r s).hold = s.hold
      ∧ (countHeader id r s).clock = s.clock ∧ (countHeader id r s).drive = s.drive
      ∧ (countHeader id r s).table = s.table ∧ (countHeader id r s).notices = s.notices
      ∧ (countHeader id r s).send = s.send ∧ (countHeader id r s).repair = s.repair
      ∧ (countHeader id r s).recv = s.recv ∧ (countHeader id r s).ctrl = s.ctrl ∧ (countHeader id r s).mgmt = s.mgmt := by
  unfold countHeader; (repeat' split) <;> simp

@[simp] theorem clearHanded_frame (n : Nat) (s : State) :
    (clearHanded n s).pending = s.pending ∧ (clearHanded n s).hold = s.hold ∧ (clearHanded n s).clock = s.clock
      ∧ (clearHanded n s).lanes = s.lanes ∧ (clearHanded n s).table = s.table ∧ (clearHanded n s).notices = s.notices
      ∧ (clearHanded n s).send = s.send ∧ (clearHanded n s).repair = s.repair ∧ (clearHanded n s).recv = s.recv
      ∧ (clearHanded n s).ctrl = s.ctrl ∧ (clearHanded n s).mgmt = s.mgmt := by
  unfold clearHanded; simp

@[simp] theorem passSlot_frame (n : Nat) (a b : BlockReading) (order : List PassStep) (s : State) :
    (passSlot n a b order s).pending = s.pending ∧ (passSlot n a b order s).hold = s.hold
      ∧ (passSlot n a b order s).clock = s.clock ∧ (passSlot n a b order s).ctrl.option = s.ctrl.option
      ∧ (passSlot n a b order s).ctrl.supply = s.ctrl.supply ∧ (passSlot n a b order s).ctrl.orphans = s.ctrl.orphans
      ∧ (passSlot n a b order s).table.epoch = s.table.epoch := by
  unfold passSlot; simp

@[simp] theorem learnHeader_frame (m : Copy Block) (s : State) :
    (learnHeader m s).pending = s.pending ∧ (learnHeader m s).hold = s.hold ∧ (learnHeader m s).clock = s.clock
      ∧ (learnHeader m s).lanes = s.lanes ∧ (learnHeader m s).drive = s.drive ∧ (learnHeader m s).notices = s.notices
      ∧ (learnHeader m s).send = s.send ∧ (learnHeader m s).repair = s.repair ∧ (learnHeader m s).recv = s.recv
      ∧ (learnHeader m s).ctrl = s.ctrl ∧ (learnHeader m s).mgmt = s.mgmt
      ∧ (learnHeader m s).table.live = s.table.live ∧ (learnHeader m s).table.epoch = s.table.epoch
      ∧ (learnHeader m s).table.heard = s.table.heard := by
  unfold learnHeader; (repeat' split) <;> simp

@[simp] theorem closeRepair_frame (a b : BlockReading) (s : State) :
    (closeRepair a b s).pending = s.pending ∧ (closeRepair a b s).hold = s.hold ∧ (closeRepair a b s).clock = s.clock
      ∧ (closeRepair a b s).send = s.send ∧ (closeRepair a b s).ctrl.option = s.ctrl.option
      ∧ (closeRepair a b s).ctrl.context = s.ctrl.context ∧ (closeRepair a b s).ctrl.supply = s.ctrl.supply
      ∧ (closeRepair a b s).ctrl.orphans = s.ctrl.orphans ∧ (closeRepair a b s).table.live = s.table.live
      ∧ (closeRepair a b s).table.epoch = s.table.epoch ∧ (closeRepair a b s).notices.tentative = s.notices.tentative
      ∧ (closeRepair a b s).notices.lastAnswer = s.notices.lastAnswer
      ∧ (closeRepair a b s).repair.queue = s.repair.queue := by
  unfold closeRepair; simp

@[simp] theorem endResend_frame (b : Block) (s : State) :
    (endResend b s).pending = s.pending ∧ (endResend b s).hold = s.hold ∧ (endResend b s).clock = s.clock
      ∧ (endResend b s).lanes = s.lanes ∧ (endResend b s).drive = s.drive ∧ (endResend b s).table = s.table
      ∧ (endResend b s).notices = s.notices ∧ (endResend b s).send = s.send ∧ (endResend b s).recv = s.recv
      ∧ (endResend b s).ctrl = s.ctrl ∧ (endResend b s).mgmt = s.mgmt := by
  unfold endResend; (repeat' split) <;> simp

@[simp] theorem drivePastLeadIn_frame (c : DriveContent) (s : State) :
    (drivePastLeadIn c s).pending = s.pending ∧ (drivePastLeadIn c s).hold = s.hold
      ∧ (drivePastLeadIn c s).clock = s.clock ∧ (drivePastLeadIn c s).table = s.table
      ∧ (drivePastLeadIn c s).notices = s.notices ∧ (drivePastLeadIn c s).send = s.send
      ∧ (drivePastLeadIn c s).repair = s.repair ∧ (drivePastLeadIn c s).recv = s.recv
      ∧ (drivePastLeadIn c s).ctrl = s.ctrl ∧ (drivePastLeadIn c s).mgmt = s.mgmt := by
  unfold drivePastLeadIn; simp

@[simp] theorem noticeOutcome_frame (s : State) :
    (noticeOutcome s).pending = s.pending ∧ (noticeOutcome s).hold = s.hold ∧ (noticeOutcome s).clock = s.clock
      ∧ (noticeOutcome s).table = s.table ∧ (noticeOutcome s).recv = s.recv ∧ (noticeOutcome s).ctrl = s.ctrl
      ∧ (noticeOutcome s).notices.tentative = s.notices.tentative
      ∧ (noticeOutcome s).notices.lastAnswer = s.notices.lastAnswer := by
  unfold noticeOutcome; (repeat' split) <;> simp

@[simp] theorem repairOutcome_frame (s : State) :
    (repairOutcome s).pending = s.pending ∧ (repairOutcome s).hold = s.hold ∧ (repairOutcome s).clock = s.clock
      ∧ (repairOutcome s).table = s.table ∧ (repairOutcome s).notices = s.notices ∧ (repairOutcome s).send = s.send
      ∧ (repairOutcome s).recv = s.recv ∧ (repairOutcome s).ctrl = s.ctrl ∧ (repairOutcome s).mgmt = s.mgmt
      ∧ (repairOutcome s).repair.queue = s.repair.queue := by
  unfold repairOutcome; (repeat' split) <;> simp

@[simp] theorem endLeadIn_frame (field : LeadInField) (s : State) :
    (endLeadIn field s).pending = s.pending ∧ (endLeadIn field s).hold = s.hold ∧ (endLeadIn field s).table = s.table
      ∧ (endLeadIn field s).recv = s.recv ∧ (endLeadIn field s).ctrl = s.ctrl
      ∧ (endLeadIn field s).clock.round = s.clock.round ∧ (endLeadIn field s).clock.capture = s.clock.capture
      ∧ (endLeadIn field s).clock.pacing = s.clock.pacing ∧ (endLeadIn field s).clock.validCount = s.clock.validCount
      ∧ (endLeadIn field s).notices.tentative = s.notices.tentative := by
  unfold endLeadIn; (repeat' split) <;> simp

@[simp] theorem driveFaultOn_frame (l : LaneId) (s : State) :
    (driveFaultOn l s).pending = s.pending ∧ (driveFaultOn l s).hold = s.hold ∧ (driveFaultOn l s).clock = s.clock
      ∧ (driveFaultOn l s).recv = s.recv ∧ (driveFaultOn l s).ctrl.option = s.ctrl.option
      ∧ (driveFaultOn l s).ctrl.context = s.ctrl.context ∧ (driveFaultOn l s).ctrl.supply = s.ctrl.supply
      ∧ (driveFaultOn l s).ctrl.orphans = s.ctrl.orphans ∧ (driveFaultOn l s).table.live = s.table.live
      ∧ (driveFaultOn l s).table.epoch = s.table.epoch ∧ (driveFaultOn l s).table.heard = s.table.heard := by
  unfold driveFaultOn; dsimp only; (repeat' split) <;> simp

@[simp] theorem unsend_frame (l : LaneId) (s : State) :
    (unsend l s).pending = s.pending ∧ (unsend l s).hold = s.hold ∧ (unsend l s).clock = s.clock
      ∧ (unsend l s).lanes = s.lanes ∧ (unsend l s).drive = s.drive ∧ (unsend l s).table = s.table
      ∧ (unsend l s).send = s.send ∧ (unsend l s).repair = s.repair ∧ (unsend l s).recv = s.recv
      ∧ (unsend l s).ctrl = s.ctrl ∧ (unsend l s).mgmt = s.mgmt ∧ (unsend l s).notices.queue = s.notices.queue
      ∧ (unsend l s).notices.plan = s.notices.plan ∧ (unsend l s).notices.tentative = s.notices.tentative
      ∧ (unsend l s).notices.lastAnswer = s.notices.lastAnswer ∧ (unsend l s).notices.sentNotice = s.notices.sentNotice := by
  unfold unsend; simp

@[simp] theorem mismatchOn_frame (l : LaneId) (s : State) :
    (mismatchOn l s).pending = s.pending ∧ (mismatchOn l s).hold = s.hold ∧ (mismatchOn l s).clock = s.clock
      ∧ (mismatchOn l s).drive = s.drive ∧ (mismatchOn l s).table = s.table
      ∧ (mismatchOn l s).notices.queue = s.notices.queue ∧ (mismatchOn l s).notices.plan = s.notices.plan
      ∧ (mismatchOn l s).notices.tentative = s.notices.tentative
      ∧ (mismatchOn l s).notices.lastAnswer = s.notices.lastAnswer
      ∧ (mismatchOn l s).send = s.send ∧ (mismatchOn l s).repair = s.repair ∧ (mismatchOn l s).recv = s.recv
      ∧ (mismatchOn l s).ctrl = s.ctrl ∧ (mismatchOn l s).mgmt = s.mgmt := by
  unfold mismatchOn; (repeat' split) <;> simp

/-- What a mismatch of the mark does to its lane (R11). -/
theorem mismatchOn_mark (l : LaneId) {s : State} (h : s.drive.content = .mark) :
    mismatchOn l s = s.mapLane l (fun x =>
      { (x.countViolations 1).cutDrive.endRun with markSpoiled := true, cutAt := some s.clock.timer }) := by
  simp [mismatchOn, h]

/-- A measurement of the first mark tick outlasts the mismatch that cuts the mark (R11, R24; log 32). -/
theorem mismatchOn_mark_measures (l : LaneId) {s : State} (h : s.drive.content = .mark) (hd : (s.lanes.get l).drive = .driving)
    (value : Nat) : (mismatchOn l s).measures l value value = true := by
  rw [mismatchOn_mark l h]
  cases l <;>
    simp_all [State.measures, State.measuredTick, State.mapLane, Lane.drivesTick, Lane.countViolations, Lane.cutDrive, Lane.endRun,
      PerLane.get, PerLane.set]

@[simp] theorem writeEcho_frame (l : LaneId) (value : BitVec 8) (s : State) :
    (writeEcho l value s).pending = s.pending ∧ (writeEcho l value s).hold = s.hold
      ∧ (writeEcho l value s).clock = s.clock ∧ (writeEcho l value s).drive = s.drive
      ∧ (writeEcho l value s).table = s.table ∧ (writeEcho l value s).notices = s.notices
      ∧ (writeEcho l value s).send = s.send ∧ (writeEcho l value s).repair = s.repair
      ∧ (writeEcho l value s).recv = s.recv ∧ (writeEcho l value s).ctrl = s.ctrl := by
  unfold writeEcho; simp

@[simp] theorem writeLateEcho_frame (l : LaneId) (value : BitVec 8) (s : State) :
    (writeLateEcho l value s).pending = s.pending ∧ (writeLateEcho l value s).hold = s.hold
      ∧ (writeLateEcho l value s).clock = s.clock ∧ (writeLateEcho l value s).drive = s.drive
      ∧ (writeLateEcho l value s).table = s.table ∧ (writeLateEcho l value s).notices = s.notices
      ∧ (writeLateEcho l value s).send = s.send ∧ (writeLateEcho l value s).repair = s.repair
      ∧ (writeLateEcho l value s).recv = s.recv ∧ (writeLateEcho l value s).ctrl = s.ctrl
      ∧ (writeLateEcho l value s).mgmt = s.mgmt := by
  unfold writeLateEcho; (repeat' split) <;> simp

@[simp] theorem echoLateOn_frame (l : LaneId) (s : State) :
    (echoLateOn l s).pending = s.pending ∧ (echoLateOn l s).hold = s.hold ∧ (echoLateOn l s).clock = s.clock
      ∧ (echoLateOn l s).drive = s.drive ∧ (echoLateOn l s).recv = s.recv
      ∧ (echoLateOn l s).ctrl.option = s.ctrl.option ∧ (echoLateOn l s).ctrl.context = s.ctrl.context
      ∧ (echoLateOn l s).ctrl.supply = s.ctrl.supply ∧ (echoLateOn l s).ctrl.orphans = s.ctrl.orphans
      ∧ (echoLateOn l s).table.live = s.table.live ∧ (echoLateOn l s).table.epoch = s.table.epoch
      ∧ (echoLateOn l s).table.heard = s.table.heard := by
  unfold echoLateOn; dsimp only; (repeat' split) <;> simp

@[simp] theorem judgeWindow_frame (id : LaneId) (s : State) :
    (judgeWindow id s).pending = s.pending ∧ (judgeWindow id s).hold = s.hold ∧ (judgeWindow id s).clock = s.clock
      ∧ (judgeWindow id s).drive = s.drive ∧ (judgeWindow id s).recv = s.recv
      ∧ (judgeWindow id s).ctrl.option = s.ctrl.option ∧ (judgeWindow id s).ctrl.context = s.ctrl.context
      ∧ (judgeWindow id s).ctrl.supply = s.ctrl.supply ∧ (judgeWindow id s).ctrl.orphans = s.ctrl.orphans
      ∧ (judgeWindow id s).table.live = s.table.live ∧ (judgeWindow id s).table.epoch = s.table.epoch
      ∧ (judgeWindow id s).table.heard = s.table.heard := by
  unfold judgeWindow; dsimp only; (repeat' split) <;> simp

@[simp] theorem closeWindow_frame (id : LaneId) (run : Nat) (s : State) :
    (closeWindow id run s).pending = s.pending ∧ (closeWindow id run s).hold = s.hold
      ∧ (closeWindow id run s).clock = s.clock ∧ (closeWindow id run s).drive = s.drive
      ∧ (closeWindow id run s).recv = s.recv ∧ (closeWindow id run s).ctrl.option = s.ctrl.option
      ∧ (closeWindow id run s).ctrl.context = s.ctrl.context ∧ (closeWindow id run s).ctrl.supply = s.ctrl.supply
      ∧ (closeWindow id run s).ctrl.orphans = s.ctrl.orphans ∧ (closeWindow id run s).table.live = s.table.live
      ∧ (closeWindow id run s).table.epoch = s.table.epoch ∧ (closeWindow id run s).table.heard = s.table.heard := by
  unfold closeWindow; (repeat' split) <;> simp

@[simp] theorem closeWindows_frame (first : LaneId) (runA runB : Nat) (s : State) :
    (closeWindows first runA runB s).pending = s.pending ∧ (closeWindows first runA runB s).hold = s.hold
      ∧ (closeWindows first runA runB s).clock = s.clock ∧ (closeWindows first runA runB s).drive = s.drive
      ∧ (closeWindows first runA runB s).recv = s.recv ∧ (closeWindows first runA runB s).ctrl.option = s.ctrl.option
      ∧ (closeWindows first runA runB s).ctrl.context = s.ctrl.context
      ∧ (closeWindows first runA runB s).ctrl.supply = s.ctrl.supply
      ∧ (closeWindows first runA runB s).ctrl.orphans = s.ctrl.orphans
      ∧ (closeWindows first runA runB s).table.live = s.table.live
      ∧ (closeWindows first runA runB s).table.epoch = s.table.epoch
      ∧ (closeWindows first runA runB s).table.heard = s.table.heard := by
  unfold closeWindows; (repeat' split) <;> simp

@[simp] theorem closeBoth_frame (first : LaneId) (runA runB : Nat) (s : State) :
    (closeBoth first runA runB s).pending = s.pending ∧ (closeBoth first runA runB s).hold = s.hold
      ∧ (closeBoth first runA runB s).drive = s.drive ∧ (closeBoth first runA runB s).recv = s.recv
      ∧ (closeBoth first runA runB s).ctrl.option = s.ctrl.option
      ∧ (closeBoth first runA runB s).ctrl.context = s.ctrl.context
      ∧ (closeBoth first runA runB s).ctrl.supply = s.ctrl.supply
      ∧ (closeBoth first runA runB s).ctrl.orphans = s.ctrl.orphans
      ∧ (closeBoth first runA runB s).table.live = s.table.live
      ∧ (closeBoth first runA runB s).table.epoch = s.table.epoch
      ∧ (closeBoth first runA runB s).table.heard = s.table.heard
      ∧ (closeBoth first runA runB s).clock.round = s.clock.round
      ∧ (closeBoth first runA runB s).clock.timer = s.clock.timer
      ∧ (closeBoth first runA runB s).clock.closed = s.clock.closed
      ∧ (closeBoth first runA runB s).clock.validCount = s.clock.validCount := by
  unfold closeBoth; simp

@[simp] theorem longRunOn_frame (id : LaneId) (s : State) :
    (longRunOn id s).pending = s.pending ∧ (longRunOn id s).hold = s.hold ∧ (longRunOn id s).clock = s.clock
      ∧ (longRunOn id s).drive = s.drive ∧ (longRunOn id s).recv = s.recv
      ∧ (longRunOn id s).ctrl.option = s.ctrl.option ∧ (longRunOn id s).ctrl.context = s.ctrl.context
      ∧ (longRunOn id s).ctrl.supply = s.ctrl.supply ∧ (longRunOn id s).ctrl.orphans = s.ctrl.orphans
      ∧ (longRunOn id s).table.live = s.table.live ∧ (longRunOn id s).table.epoch = s.table.epoch
      ∧ (longRunOn id s).table.heard = s.table.heard := by
  unfold longRunOn; dsimp only; (repeat' split) <;> simp

@[simp] theorem heldRunOn_frame (id : LaneId) (s : State) :
    (heldRunOn id s).pending = s.pending ∧ (heldRunOn id s).hold = s.hold ∧ (heldRunOn id s).clock = s.clock
      ∧ (heldRunOn id s).drive = s.drive ∧ (heldRunOn id s).table = s.table ∧ (heldRunOn id s).notices = s.notices
      ∧ (heldRunOn id s).send = s.send ∧ (heldRunOn id s).repair = s.repair ∧ (heldRunOn id s).recv = s.recv
      ∧ (heldRunOn id s).ctrl = s.ctrl := by
  unfold heldRunOn; dsimp only; (repeat' split) <;> simp

@[simp] theorem framedReport_frame (id : LaneId) (kind : ViolationKind) (s : State) :
    (framedReport id kind s).pending = s.pending ∧ (framedReport id kind s).hold = s.hold
      ∧ (framedReport id kind s).clock = s.clock ∧ (framedReport id kind s).drive = s.drive
      ∧ (framedReport id kind s).table = s.table ∧ (framedReport id kind s).notices = s.notices
      ∧ (framedReport id kind s).send = s.send ∧ (framedReport id kind s).repair = s.repair
      ∧ (framedReport id kind s).recv = s.recv ∧ (framedReport id kind s).ctrl = s.ctrl
      ∧ (framedReport id kind s).mgmt = s.mgmt := by
  unfold framedReport; dsimp only; (repeat' split) <;> simp

@[simp] theorem judgeChange_frame (sender : StationNo) (b : NoticeBody) (s : State) :
    (judgeChange sender b s).pending = s.pending ∧ (judgeChange sender b s).hold = s.hold
      ∧ (judgeChange sender b s).clock = s.clock ∧ (judgeChange sender b s).lanes = s.lanes
      ∧ (judgeChange sender b s).drive = s.drive ∧ (judgeChange sender b s).table = s.table
      ∧ (judgeChange sender b s).send = s.send ∧ (judgeChange sender b s).repair = s.repair
      ∧ (judgeChange sender b s).recv = s.recv ∧ (judgeChange sender b s).ctrl = s.ctrl
      ∧ (judgeChange sender b s).mgmt = s.mgmt ∧ (judgeChange sender b s).notices.queue = s.notices.queue
      ∧ (judgeChange sender b s).notices.flight = s.notices.flight
      ∧ (judgeChange sender b s).notices.lastAnswer = s.notices.lastAnswer := by
  unfold judgeChange; (repeat' split) <;> simp

@[simp] theorem serveAsk_frame (b : NoticeBody) (e : SendEntry) (s : State) :
    (serveAsk b e s).pending = s.pending ∧ (serveAsk b e s).hold = s.hold ∧ (serveAsk b e s).clock = s.clock
      ∧ (serveAsk b e s).lanes = s.lanes ∧ (serveAsk b e s).drive = s.drive ∧ (serveAsk b e s).table = s.table
      ∧ (serveAsk b e s).send = s.send ∧ (serveAsk b e s).recv = s.recv ∧ (serveAsk b e s).ctrl = s.ctrl
      ∧ (serveAsk b e s).mgmt = s.mgmt ∧ (serveAsk b e s).notices.queue = s.notices.queue
      ∧ (serveAsk b e s).notices.flight = s.notices.flight
      ∧ (serveAsk b e s).notices.lastAnswer = s.notices.lastAnswer := by
  unfold serveAsk; dsimp only; (repeat' split) <;> simp

@[simp] theorem answerAsk_frame (b : NoticeBody) (s : State) :
    (answerAsk b s).pending = s.pending ∧ (answerAsk b s).hold = s.hold ∧ (answerAsk b s).clock = s.clock
      ∧ (answerAsk b s).lanes = s.lanes ∧ (answerAsk b s).drive = s.drive ∧ (answerAsk b s).table = s.table
      ∧ (answerAsk b s).send = s.send ∧ (answerAsk b s).recv = s.recv ∧ (answerAsk b s).ctrl = s.ctrl
      ∧ (answerAsk b s).mgmt = s.mgmt ∧ (answerAsk b s).notices.queue = s.notices.queue
      ∧ (answerAsk b s).notices.flight = s.notices.flight ∧ (answerAsk b s).notices.lastAnswer = s.notices.lastAnswer := by
  unfold answerAsk; dsimp only; (repeat' split) <;> simp

@[simp] theorem judgeOther_frame (n : Notice) (s : State) :
    (judgeOther n s).pending = s.pending ∧ (judgeOther n s).hold = s.hold ∧ (judgeOther n s).clock = s.clock
      ∧ (judgeOther n s).lanes = s.lanes ∧ (judgeOther n s).drive = s.drive ∧ (judgeOther n s).table = s.table
      ∧ (judgeOther n s).send = s.send ∧ (judgeOther n s).recv = s.recv ∧ (judgeOther n s).ctrl = s.ctrl
      ∧ (judgeOther n s).mgmt = s.mgmt ∧ (judgeOther n s).notices.queue = s.notices.queue
      ∧ (judgeOther n s).notices.flight = s.notices.flight
      ∧ (judgeOther n s).notices.lastAnswer = s.notices.lastAnswer := by
  unfold judgeOther; (repeat' split) <;> simp

@[simp] theorem judgeOwn_frame (b : NoticeBody) (s : State) :
    (judgeOwn b s).pending = s.pending ∧ (judgeOwn b s).hold = s.hold ∧ (judgeOwn b s).clock = s.clock
      ∧ (judgeOwn b s).lanes = s.lanes ∧ (judgeOwn b s).drive = s.drive ∧ (judgeOwn b s).table = s.table
      ∧ (judgeOwn b s).send = s.send ∧ (judgeOwn b s).repair = s.repair ∧ (judgeOwn b s).recv = s.recv
      ∧ (judgeOwn b s).ctrl = s.ctrl ∧ (judgeOwn b s).mgmt = s.mgmt ∧ (judgeOwn b s).notices.queue = s.notices.queue
      ∧ (judgeOwn b s).notices.flight = s.notices.flight ∧ (judgeOwn b s).notices.lastAnswer = s.notices.lastAnswer := by
  unfold judgeOwn; (repeat' split) <;> simp

@[simp] theorem rollCall_frame (takes : Bool) (s : State) :
    (rollCall takes s).pending = s.pending ∧ (rollCall takes s).hold = s.hold ∧ (rollCall takes s).clock = s.clock
      ∧ (rollCall takes s).lanes = s.lanes ∧ (rollCall takes s).drive = s.drive ∧ (rollCall takes s).table = s.table
      ∧ (rollCall takes s).send = s.send ∧ (rollCall takes s).repair = s.repair ∧ (rollCall takes s).recv = s.recv
      ∧ (rollCall takes s).ctrl = s.ctrl ∧ (rollCall takes s).mgmt = s.mgmt
      ∧ (rollCall takes s).notices.queue = s.notices.queue ∧ (rollCall takes s).notices.flight = s.notices.flight
      ∧ (rollCall takes s).notices.lastAnswer = s.notices.lastAnswer := by
  unfold rollCall; dsimp only; (repeat' split) <;> simp

@[simp] theorem engineAtNotice_frame (wasJoined : Bool) (m : MergedNotice) (s : State) :
    (engineAtNotice wasJoined m s).pending = s.pending ∧ (engineAtNotice wasJoined m s).hold = s.hold
      ∧ (engineAtNotice wasJoined m s).clock = s.clock ∧ (engineAtNotice wasJoined m s).lanes = s.lanes
      ∧ (engineAtNotice wasJoined m s).drive = s.drive ∧ (engineAtNotice wasJoined m s).table = s.table
      ∧ (engineAtNotice wasJoined m s).send = s.send ∧ (engineAtNotice wasJoined m s).recv = s.recv
      ∧ (engineAtNotice wasJoined m s).ctrl = s.ctrl ∧ (engineAtNotice wasJoined m s).mgmt = s.mgmt
      ∧ (engineAtNotice wasJoined m s).notices.queue = s.notices.queue
      ∧ (engineAtNotice wasJoined m s).notices.flight = s.notices.flight
      ∧ (engineAtNotice wasJoined m s).notices.lastAnswer = s.notices.lastAnswer := by
  unfold engineAtNotice; dsimp only; (repeat' split) <;> simp

@[simp] theorem controllerAtNotice_frame (m : MergedNotice) (s : State) :
    (controllerAtNotice m s).pending = s.pending ∧ (controllerAtNotice m s).hold = s.hold
      ∧ (controllerAtNotice m s).clock = s.clock ∧ (controllerAtNotice m s).recv = s.recv
      ∧ (controllerAtNotice m s).ctrl.option = s.ctrl.option ∧ (controllerAtNotice m s).ctrl.supply = s.ctrl.supply
      ∧ (controllerAtNotice m s).ctrl.orphans = s.ctrl.orphans ∧ (controllerAtNotice m s).table.live = s.table.live
      ∧ (controllerAtNotice m s).table.epoch = s.table.epoch ∧ (controllerAtNotice m s).table.heard = s.table.heard := by
  unfold controllerAtNotice; (repeat' split) <;> simp

@[simp] theorem foldl_hear_frame (ns : List Notice) (s : State) :
    (ns.foldl (fun s n => hear (leadInSender n.leadIn) s) s).pending = s.pending
      ∧ (ns.foldl (fun s n => hear (leadInSender n.leadIn) s) s).hold = s.hold
      ∧ (ns.foldl (fun s n => hear (leadInSender n.leadIn) s) s).clock = s.clock
      ∧ (ns.foldl (fun s n => hear (leadInSender n.leadIn) s) s).drive = s.drive
      ∧ (ns.foldl (fun s n => hear (leadInSender n.leadIn) s) s).notices = s.notices
      ∧ (ns.foldl (fun s n => hear (leadInSender n.leadIn) s) s).send = s.send
      ∧ (ns.foldl (fun s n => hear (leadInSender n.leadIn) s) s).recv = s.recv
      ∧ (ns.foldl (fun s n => hear (leadInSender n.leadIn) s) s).ctrl = s.ctrl
      ∧ (ns.foldl (fun s n => hear (leadInSender n.leadIn) s) s).table.live = s.table.live
      ∧ (ns.foldl (fun s n => hear (leadInSender n.leadIn) s) s).table.epoch = s.table.epoch
      ∧ (ns.foldl (fun s n => hear (leadInSender n.leadIn) s) s).repair = s.repair := by
  induction ns generalizing s with
  | nil => simp
  | cons n ns ih => simp [ih]

@[simp] theorem tableAtNotice_frame (m : MergedNotice) (first : LaneId) (s : State) :
    (tableAtNotice m first s).pending = s.pending ∧ (tableAtNotice m first s).hold = s.hold
      ∧ (tableAtNotice m first s).clock = s.clock ∧ (tableAtNotice m first s).drive = s.drive
      ∧ (tableAtNotice m first s).notices = s.notices ∧ (tableAtNotice m first s).send = s.send
      ∧ (tableAtNotice m first s).recv = s.recv ∧ (tableAtNotice m first s).ctrl.option = s.ctrl.option
      ∧ (tableAtNotice m first s).ctrl.context = s.ctrl.context
      ∧ (tableAtNotice m first s).ctrl.supply = s.ctrl.supply
      ∧ (tableAtNotice m first s).ctrl.orphans = s.ctrl.orphans ∧ (tableAtNotice m first s).table.live = s.table.live
      ∧ (tableAtNotice m first s).table.epoch = s.table.epoch
      ∧ (tableAtNotice m first s).repair.queue = s.repair.queue := by
  have h := foldl_hear_frame (m.notices first) s
  unfold tableAtNotice
  dsimp only
  (repeat' split) <;> simp [h]

@[simp] theorem noticeStep_frame (wasJoined : Bool) (m : MergedNotice) (first : LaneId) (s : State) (step : CloseStep) :
    (noticeStep wasJoined m first s step).pending = s.pending ∧ (noticeStep wasJoined m first s step).hold = s.hold
      ∧ (noticeStep wasJoined m first s step).clock = s.clock ∧ (noticeStep wasJoined m first s step).recv = s.recv
      ∧ (noticeStep wasJoined m first s step).ctrl.option = s.ctrl.option
      ∧ (noticeStep wasJoined m first s step).ctrl.supply = s.ctrl.supply
      ∧ (noticeStep wasJoined m first s step).ctrl.orphans = s.ctrl.orphans
      ∧ (noticeStep wasJoined m first s step).table.live = s.table.live
      ∧ (noticeStep wasJoined m first s step).table.epoch = s.table.epoch := by
  cases step <;> simp [noticeStep]

@[simp] theorem closeNotice_frame (a b : NoticeReading) (order : CloseOrder) (s : State) :
    (closeNotice a b order s).pending = s.pending ∧ (closeNotice a b order s).hold = s.hold
      ∧ (closeNotice a b order s).clock = s.clock ∧ (closeNotice a b order s).recv = s.recv
      ∧ (closeNotice a b order s).ctrl.option = s.ctrl.option ∧ (closeNotice a b order s).ctrl.supply = s.ctrl.supply
      ∧ (closeNotice a b order s).ctrl.orphans = s.ctrl.orphans ∧ (closeNotice a b order s).table.live = s.table.live
      ∧ (closeNotice a b order s).table.epoch = s.table.epoch := by
  unfold closeNotice
  dsimp only
  split <;> simp

@[simp] theorem rejoin_frame (q : Queued) (s : State) :
    (rejoin q s).pending = s.pending ∧ (rejoin q s).hold = s.hold ∧ (rejoin q s).clock = s.clock
      ∧ (rejoin q s).lanes = s.lanes ∧ (rejoin q s).drive = s.drive ∧ (rejoin q s).table = s.table
      ∧ (rejoin q s).send = s.send ∧ (rejoin q s).repair = s.repair ∧ (rejoin q s).recv = s.recv
      ∧ (rejoin q s).ctrl = s.ctrl ∧ (rejoin q s).mgmt = s.mgmt ∧ (rejoin q s).notices.tentative = s.notices.tentative
      ∧ (rejoin q s).notices.lastAnswer = s.notices.lastAnswer := by
  unfold rejoin; simp

@[simp] theorem releaseRefused_frame (q : Queued) (record : OutcomeRecord) (s : State) :
    (releaseRefused q record s).pending = s.pending ∧ (releaseRefused q record s).hold = s.hold
      ∧ (releaseRefused q record s).clock = s.clock ∧ (releaseRefused q record s).lanes = s.lanes
      ∧ (releaseRefused q record s).drive = s.drive ∧ (releaseRefused q record s).table = s.table
      ∧ (releaseRefused q record s).notices = s.notices ∧ (releaseRefused q record s).repair = s.repair
      ∧ (releaseRefused q record s).recv = s.recv ∧ (releaseRefused q record s).ctrl = s.ctrl := by
  unfold releaseRefused; (repeat' split) <;> simp

@[simp] theorem senderCommitted_frame (q : Queued) (s : State) :
    (senderCommitted q s).pending = s.pending ∧ (senderCommitted q s).hold = s.hold
      ∧ (senderCommitted q s).clock = s.clock ∧ (senderCommitted q s).lanes = s.lanes
      ∧ (senderCommitted q s).drive = s.drive ∧ (senderCommitted q s).table = s.table
      ∧ (senderCommitted q s).recv = s.recv ∧ (senderCommitted q s).ctrl = s.ctrl
      ∧ (senderCommitted q s).notices.tentative = s.notices.tentative
      ∧ (senderCommitted q s).notices.lastAnswer = s.notices.lastAnswer := by
  unfold senderCommitted; dsimp only; (repeat' split) <;> simp

@[simp] theorem senderDissented_frame (q : Queued) (s : State) :
    (senderDissented q s).pending = s.pending ∧ (senderDissented q s).hold = s.hold
      ∧ (senderDissented q s).clock = s.clock ∧ (senderDissented q s).lanes = s.lanes
      ∧ (senderDissented q s).drive = s.drive ∧ (senderDissented q s).table = s.table
      ∧ (senderDissented q s).recv = s.recv ∧ (senderDissented q s).ctrl = s.ctrl
      ∧ (senderDissented q s).notices.tentative = s.notices.tentative
      ∧ (senderDissented q s).notices.lastAnswer = s.notices.lastAnswer := by
  unfold senderDissented; (repeat' split) <;> simp

@[simp] theorem askOutcome_frame (q : Queued) (ans : AnswerRecord) (s : State) :
    (askOutcome q ans s).pending = s.pending ∧ (askOutcome q ans s).hold = s.hold
      ∧ (askOutcome q ans s).clock = s.clock ∧ (askOutcome q ans s).lanes = s.lanes
      ∧ (askOutcome q ans s).drive = s.drive ∧ (askOutcome q ans s).table = s.table
      ∧ (askOutcome q ans s).send = s.send ∧ (askOutcome q ans s).repair = s.repair
      ∧ (askOutcome q ans s).ctrl = s.ctrl ∧ (askOutcome q ans s).notices.tentative = s.notices.tentative
      ∧ (askOutcome q ans s).notices.lastAnswer = s.notices.lastAnswer := by
  unfold askOutcome; (repeat' split) <;> simp

/-- Outside JOINED the outcome of an ask reaches no entry (R159): the ask leaves the queue, and nothing else changes (log 64). -/
theorem askOutcome_outside_joined (q : Queued) (ans : AnswerRecord) {s : State} (h : s.ctrl.mode ≠ .joined) :
    askOutcome q ans s = removeInFlight s := by
  unfold askOutcome
  cases q.origin <;> simp [h]

@[simp] theorem senderOutcome_frame (committed : Bool) (ans : AnswerRecord) (s : State) :
    (senderOutcome committed ans s).pending = s.pending ∧ (senderOutcome committed ans s).hold = s.hold
      ∧ (senderOutcome committed ans s).clock = s.clock ∧ (senderOutcome committed ans s).lanes = s.lanes
      ∧ (senderOutcome committed ans s).drive = s.drive ∧ (senderOutcome committed ans s).table = s.table
      ∧ (senderOutcome committed ans s).ctrl = s.ctrl
      ∧ (senderOutcome committed ans s).notices.tentative = s.notices.tentative
      ∧ (senderOutcome committed ans s).notices.lastAnswer = s.notices.lastAnswer := by
  unfold senderOutcome; (repeat' split) <;> simp

@[simp] theorem hearRollCall_frame (ans : AnswerRecord) (s : State) :
    (hearRollCall ans s).pending = s.pending ∧ (hearRollCall ans s).hold = s.hold
      ∧ (hearRollCall ans s).clock = s.clock ∧ (hearRollCall ans s).lanes = s.lanes
      ∧ (hearRollCall ans s).drive = s.drive ∧ (hearRollCall ans s).notices = s.notices
      ∧ (hearRollCall ans s).send = s.send ∧ (hearRollCall ans s).repair = s.repair
      ∧ (hearRollCall ans s).recv = s.recv ∧ (hearRollCall ans s).ctrl = s.ctrl ∧ (hearRollCall ans s).mgmt = s.mgmt
      ∧ (hearRollCall ans s).table.live = s.table.live ∧ (hearRollCall ans s).table.epoch = s.table.epoch
      ∧ (hearRollCall ans s).table.learning = s.table.learning := by
  unfold hearRollCall; simp

@[simp] theorem takeAnswers_frame (ans : AnswerRecord) (sendFirst : Bool) (s : State) :
    (takeAnswers ans sendFirst s).pending = s.pending ∧ (takeAnswers ans sendFirst s).hold = s.hold
      ∧ (takeAnswers ans sendFirst s).clock = s.clock ∧ (takeAnswers ans sendFirst s).lanes = s.lanes
      ∧ (takeAnswers ans sendFirst s).drive = s.drive ∧ (takeAnswers ans sendFirst s).ctrl = s.ctrl
      ∧ (takeAnswers ans sendFirst s).notices.lastAnswer = s.notices.lastAnswer := by
  unfold takeAnswers
  dsimp only
  (repeat' split) <;> simp

@[simp] theorem closeAnswers_frame (a b : AnswerReading) (sendFirst : Bool) (s : State) :
    (closeAnswers a b sendFirst s).pending = s.pending ∧ (closeAnswers a b sendFirst s).hold = s.hold
      ∧ (closeAnswers a b sendFirst s).clock = s.clock ∧ (closeAnswers a b sendFirst s).ctrl.option = s.ctrl.option
      ∧ (closeAnswers a b sendFirst s).ctrl.context = s.ctrl.context
      ∧ (closeAnswers a b sendFirst s).ctrl.supply = s.ctrl.supply
      ∧ (closeAnswers a b sendFirst s).ctrl.orphans = s.ctrl.orphans := by
  unfold closeAnswers
  dsimp only
  split <;> simp

@[simp] theorem takeLength_frame (p : Port) (value : Nat) (s : State) :
    (takeLength p value s).pending = s.pending ∧ (takeLength p value s).hold = s.hold
      ∧ (takeLength p value s).clock = s.clock ∧ (takeLength p value s).lanes = s.lanes
      ∧ (takeLength p value s).drive = s.drive ∧ (takeLength p value s).table = s.table
      ∧ (takeLength p value s).notices = s.notices ∧ (takeLength p value s).repair = s.repair
      ∧ (takeLength p value s).recv = s.recv ∧ (takeLength p value s).ctrl = s.ctrl := by
  unfold takeLength; (repeat' split) <;> simp

@[simp] theorem takeByte_frame (p : Port) (byte : Byte) (s : State) :
    (takeByte p byte s).pending = s.pending ∧ (takeByte p byte s).hold = s.hold ∧ (takeByte p byte s).clock = s.clock
      ∧ (takeByte p byte s).lanes = s.lanes ∧ (takeByte p byte s).drive = s.drive
      ∧ (takeByte p byte s).table = s.table ∧ (takeByte p byte s).notices = s.notices
      ∧ (takeByte p byte s).repair = s.repair ∧ (takeByte p byte s).recv = s.recv ∧ (takeByte p byte s).ctrl = s.ctrl := by
  unfold takeByte; (repeat' split) <;> simp

@[simp] theorem adoptHeld_frame (p : Port) (c : RetClass) (priority : BitVec 3) (s : State) :
    (adoptHeld p c priority s).pending = s.pending ∧ (adoptHeld p c priority s).hold = s.hold
      ∧ (adoptHeld p c priority s).clock = s.clock ∧ (adoptHeld p c priority s).lanes = s.lanes
      ∧ (adoptHeld p c priority s).drive = s.drive ∧ (adoptHeld p c priority s).table = s.table
      ∧ (adoptHeld p c priority s).notices = s.notices ∧ (adoptHeld p c priority s).repair = s.repair
      ∧ (adoptHeld p c priority s).recv = s.recv ∧ (adoptHeld p c priority s).ctrl = s.ctrl
      ∧ (adoptHeld p c priority s).mgmt.mask = s.mgmt.mask ∧ (adoptHeld p c priority s).mgmt.events = s.mgmt.events := by
  unfold adoptHeld; simp

@[simp] theorem claimSlots_frame (p : Port) (count : Nat) (c : RetClass) (priority : BitVec 3) (s : State) :
    (claimSlots p count c priority s).pending = s.pending ∧ (claimSlots p count c priority s).hold = s.hold
      ∧ (claimSlots p count c priority s).clock = s.clock ∧ (claimSlots p count c priority s).lanes = s.lanes
      ∧ (claimSlots p count c priority s).drive = s.drive ∧ (claimSlots p count c priority s).table = s.table
      ∧ (claimSlots p count c priority s).repair = s.repair ∧ (claimSlots p count c priority s).recv = s.recv
      ∧ (claimSlots p count c priority s).ctrl = s.ctrl
      ∧ (claimSlots p count c priority s).notices.flight = s.notices.flight
      ∧ (claimSlots p count c priority s).notices.tentative = s.notices.tentative
      ∧ (claimSlots p count c priority s).notices.lastAnswer = s.notices.lastAnswer
      ∧ (claimSlots p count c priority s).mgmt.mask = s.mgmt.mask
      ∧ (claimSlots p count c priority s).mgmt.events = s.mgmt.events := by
  unfold claimSlots; dsimp only; (repeat' split) <;> simp

@[simp] theorem openSend_frame (port count cls priority : Byte) (s : State) :
    (openSend port count cls priority s).pending = s.pending ∧ (openSend port count cls priority s).hold = s.hold
      ∧ (openSend port count cls priority s).clock = s.clock ∧ (openSend port count cls priority s).lanes = s.lanes
      ∧ (openSend port count cls priority s).drive = s.drive ∧ (openSend port count cls priority s).table = s.table
      ∧ (openSend port count cls priority s).repair = s.repair ∧ (openSend port count cls priority s).recv = s.recv
      ∧ (openSend port count cls priority s).ctrl = s.ctrl
      ∧ (openSend port count cls priority s).notices.flight = s.notices.flight
      ∧ (openSend port count cls priority s).notices.tentative = s.notices.tentative
      ∧ (openSend port count cls priority s).notices.lastAnswer = s.notices.lastAnswer
      ∧ (openSend port count cls priority s).mgmt.mask = s.mgmt.mask
      ∧ (openSend port count cls priority s).mgmt.events = s.mgmt.events := by
  unfold openSend; dsimp only; (repeat' split) <;> simp

@[simp] theorem openReceive_frame (port tag : Byte) (delay : BitVec 16) (cls : Byte) (s : State) :
    (openReceive port tag delay cls s).pending = s.pending ∧ (openReceive port tag delay cls s).hold = s.hold
      ∧ (openReceive port tag delay cls s).clock = s.clock ∧ (openReceive port tag delay cls s).lanes = s.lanes
      ∧ (openReceive port tag delay cls s).drive = s.drive ∧ (openReceive port tag delay cls s).table = s.table
      ∧ (openReceive port tag delay cls s).notices = s.notices ∧ (openReceive port tag delay cls s).send = s.send
      ∧ (openReceive port tag delay cls s).repair = s.repair ∧ (openReceive port tag delay cls s).ctrl = s.ctrl
      ∧ (openReceive port tag delay cls s).mgmt.mask = s.mgmt.mask
      ∧ (openReceive port tag delay cls s).mgmt.events = s.mgmt.events := by
  unfold openReceive; (repeat' split) <;> simp

@[simp] theorem closeClaiming_frame (p : Port) (s : State) :
    (closeClaiming p s).pending = s.pending ∧ (closeClaiming p s).hold = s.hold ∧ (closeClaiming p s).clock = s.clock
      ∧ (closeClaiming p s).lanes = s.lanes ∧ (closeClaiming p s).drive = s.drive
      ∧ (closeClaiming p s).table = s.table ∧ (closeClaiming p s).recv = s.recv ∧ (closeClaiming p s).ctrl = s.ctrl
      ∧ (closeClaiming p s).notices.flight = s.notices.flight
      ∧ (closeClaiming p s).notices.tentative = s.notices.tentative
      ∧ (closeClaiming p s).notices.lastAnswer = s.notices.lastAnswer ∧ (closeClaiming p s).mgmt.mask = s.mgmt.mask
      ∧ (closeClaiming p s).mgmt.events = s.mgmt.events := by
  unfold closeClaiming; (repeat' split) <;> simp

@[simp] theorem closeHolding_frame (p : Port) (path : ReleasePath) (s : State) :
    (closeHolding p path s).pending = s.pending ∧ (closeHolding p path s).hold = s.hold
      ∧ (closeHolding p path s).clock = s.clock ∧ (closeHolding p path s).lanes = s.lanes
      ∧ (closeHolding p path s).drive = s.drive ∧ (closeHolding p path s).table = s.table
      ∧ (closeHolding p path s).repair = s.repair ∧ (closeHolding p path s).recv = s.recv
      ∧ (closeHolding p path s).ctrl = s.ctrl ∧ (closeHolding p path s).notices.flight = s.notices.flight
      ∧ (closeHolding p path s).notices.tentative = s.notices.tentative
      ∧ (closeHolding p path s).notices.lastAnswer = s.notices.lastAnswer
      ∧ (closeHolding p path s).mgmt.mask = s.mgmt.mask ∧ (closeHolding p path s).mgmt.events = s.mgmt.events := by
  unfold closeHolding; dsimp only; (repeat' split) <;> simp

@[simp] theorem closeSendEntry_frame (p : Port) (s : State) :
    (closeSendEntry p s).pending = s.pending ∧ (closeSendEntry p s).hold = s.hold
      ∧ (closeSendEntry p s).clock = s.clock ∧ (closeSendEntry p s).lanes = s.lanes
      ∧ (closeSendEntry p s).drive = s.drive ∧ (closeSendEntry p s).table = s.table
      ∧ (closeSendEntry p s).recv = s.recv ∧ (closeSendEntry p s).ctrl = s.ctrl
      ∧ (closeSendEntry p s).notices.flight = s.notices.flight
      ∧ (closeSendEntry p s).notices.tentative = s.notices.tentative
      ∧ (closeSendEntry p s).notices.lastAnswer = s.notices.lastAnswer ∧ (closeSendEntry p s).mgmt.mask = s.mgmt.mask
      ∧ (closeSendEntry p s).mgmt.events = s.mgmt.events := by
  unfold closeSendEntry; (repeat' split) <;> simp

@[simp] theorem closeRecvEntry_frame (p : Port) (s : State) :
    (closeRecvEntry p s).pending = s.pending ∧ (closeRecvEntry p s).hold = s.hold
      ∧ (closeRecvEntry p s).clock = s.clock ∧ (closeRecvEntry p s).lanes = s.lanes
      ∧ (closeRecvEntry p s).drive = s.drive ∧ (closeRecvEntry p s).table = s.table
      ∧ (closeRecvEntry p s).send = s.send ∧ (closeRecvEntry p s).repair = s.repair
      ∧ (closeRecvEntry p s).ctrl = s.ctrl ∧ (closeRecvEntry p s).notices.flight = s.notices.flight
      ∧ (closeRecvEntry p s).notices.tentative = s.notices.tentative
      ∧ (closeRecvEntry p s).notices.lastAnswer = s.notices.lastAnswer ∧ (closeRecvEntry p s).mgmt.mask = s.mgmt.mask
      ∧ (closeRecvEntry p s).mgmt.events = s.mgmt.events := by
  unfold closeRecvEntry; (repeat' split) <;> simp

@[simp] theorem closeEntry_frame (entry : Byte) (s : State) :
    (closeEntry entry s).pending = s.pending ∧ (closeEntry entry s).hold = s.hold
      ∧ (closeEntry entry s).clock = s.clock ∧ (closeEntry entry s).lanes = s.lanes
      ∧ (closeEntry entry s).drive = s.drive ∧ (closeEntry entry s).table = s.table
      ∧ (closeEntry entry s).ctrl = s.ctrl ∧ (closeEntry entry s).notices.flight = s.notices.flight
      ∧ (closeEntry entry s).notices.tentative = s.notices.tentative
      ∧ (closeEntry entry s).notices.lastAnswer = s.notices.lastAnswer ∧ (closeEntry entry s).mgmt.mask = s.mgmt.mask
      ∧ (closeEntry entry s).mgmt.events = s.mgmt.events := by
  unfold closeEntry; (repeat' split) <;> simp

@[simp] theorem readStream_frame (entry : Byte) (s : State) :
    (readStream entry s).pending = s.pending ∧ (readStream entry s).hold = s.hold
      ∧ (readStream entry s).clock = s.clock ∧ (readStream entry s).lanes = s.lanes
      ∧ (readStream entry s).drive = s.drive ∧ (readStream entry s).table = s.table
      ∧ (readStream entry s).notices = s.notices ∧ (readStream entry s).send = s.send
      ∧ (readStream entry s).repair = s.repair ∧ (readStream entry s).recv = s.recv
      ∧ (readStream entry s).ctrl = s.ctrl ∧ (readStream entry s).mgmt.mask = s.mgmt.mask
      ∧ (readStream entry s).mgmt.events = s.mgmt.events := by
  unfold readStream; (repeat' split) <;> simp

@[simp] theorem readSlot_frame (slot : Byte) (s : State) :
    (readSlot slot s).pending = s.pending ∧ (readSlot slot s).hold = s.hold ∧ (readSlot slot s).clock = s.clock
      ∧ (readSlot slot s).lanes = s.lanes ∧ (readSlot slot s).drive = s.drive ∧ (readSlot slot s).table = s.table
      ∧ (readSlot slot s).notices = s.notices ∧ (readSlot slot s).send = s.send ∧ (readSlot slot s).repair = s.repair
      ∧ (readSlot slot s).recv = s.recv ∧ (readSlot slot s).ctrl = s.ctrl ∧ (readSlot slot s).mgmt.mask = s.mgmt.mask
      ∧ (readSlot slot s).mgmt.events = s.mgmt.events := by
  unfold readSlot; (repeat' split) <;> simp

@[simp] theorem takeRecords_frame (n : Nat) (s : State) :
    (takeRecords n s).pending = s.pending ∧ (takeRecords n s).hold = s.hold ∧ (takeRecords n s).clock = s.clock
      ∧ (takeRecords n s).lanes = s.lanes ∧ (takeRecords n s).drive = s.drive ∧ (takeRecords n s).table = s.table
      ∧ (takeRecords n s).notices = s.notices ∧ (takeRecords n s).send = s.send ∧ (takeRecords n s).repair = s.repair
      ∧ (takeRecords n s).recv = s.recv ∧ (takeRecords n s).ctrl = s.ctrl ∧ (takeRecords n s).mgmt.mask = s.mgmt.mask := by
  unfold takeRecords; simp

@[simp] theorem takeEvents_frame (n : Byte) (s : State) :
    (takeEvents n s).pending = s.pending ∧ (takeEvents n s).hold = s.hold ∧ (takeEvents n s).clock = s.clock
      ∧ (takeEvents n s).lanes = s.lanes ∧ (takeEvents n s).drive = s.drive ∧ (takeEvents n s).table = s.table
      ∧ (takeEvents n s).notices = s.notices ∧ (takeEvents n s).send = s.send ∧ (takeEvents n s).repair = s.repair
      ∧ (takeEvents n s).recv = s.recv ∧ (takeEvents n s).ctrl = s.ctrl ∧ (takeEvents n s).mgmt.mask = s.mgmt.mask := by
  unfold takeEvents; (repeat' split) <;> simp

@[simp] theorem setMask_frame (c : Causes) (s : State) :
    (setMask c s).pending = s.pending ∧ (setMask c s).hold = s.hold ∧ (setMask c s).clock = s.clock
      ∧ (setMask c s).lanes = s.lanes ∧ (setMask c s).drive = s.drive ∧ (setMask c s).table = s.table
      ∧ (setMask c s).notices = s.notices ∧ (setMask c s).send = s.send ∧ (setMask c s).repair = s.repair
      ∧ (setMask c s).recv = s.recv ∧ (setMask c s).ctrl = s.ctrl ∧ (setMask c s).mgmt.reply = s.mgmt.reply
      ∧ (setMask c s).mgmt.events = s.mgmt.events := by
  unfold setMask; simp

@[simp] theorem clearCauses_frame (c : Causes) (s : State) :
    (clearCauses c s).pending = s.pending ∧ (clearCauses c s).hold = s.hold ∧ (clearCauses c s).clock = s.clock
      ∧ (clearCauses c s).lanes = s.lanes ∧ (clearCauses c s).drive = s.drive ∧ (clearCauses c s).table = s.table
      ∧ (clearCauses c s).notices = s.notices ∧ (clearCauses c s).send = s.send ∧ (clearCauses c s).repair = s.repair
      ∧ (clearCauses c s).recv = s.recv ∧ (clearCauses c s).ctrl = s.ctrl
      ∧ (clearCauses c s).mgmt.reply = s.mgmt.reply ∧ (clearCauses c s).mgmt.mask = s.mgmt.mask
      ∧ (clearCauses c s).mgmt.events = s.mgmt.events := by
  unfold clearCauses; simp

@[simp] theorem setHold_frame (l : LaneId) (on : Bool) (s : State) :
    (setHold l on s).pending = s.pending ∧ (setHold l on s).hold = s.hold ∧ (setHold l on s).clock = s.clock
      ∧ (setHold l on s).drive = s.drive ∧ (setHold l on s).table = s.table ∧ (setHold l on s).notices = s.notices
      ∧ (setHold l on s).send = s.send ∧ (setHold l on s).recv = s.recv ∧ (setHold l on s).ctrl = s.ctrl
      ∧ (setHold l on s).mgmt = s.mgmt ∧ (setHold l on s).repair.queue = s.repair.queue := by
  unfold setHold; (repeat' split) <;> simp

@[simp] theorem holdLane_frame (lane hold : Byte) (s : State) :
    (holdLane lane hold s).pending = s.pending ∧ (holdLane lane hold s).hold = s.hold
      ∧ (holdLane lane hold s).clock = s.clock ∧ (holdLane lane hold s).drive = s.drive
      ∧ (holdLane lane hold s).table = s.table ∧ (holdLane lane hold s).notices = s.notices
      ∧ (holdLane lane hold s).send = s.send ∧ (holdLane lane hold s).recv = s.recv
      ∧ (holdLane lane hold s).ctrl = s.ctrl ∧ (holdLane lane hold s).repair.queue = s.repair.queue
      ∧ (holdLane lane hold s).mgmt.mask = s.mgmt.mask ∧ (holdLane lane hold s).mgmt.events = s.mgmt.events := by
  unfold holdLane; (repeat' split) <;> simp

@[simp] theorem supplyWarns_frame (s : State) :
    (supplyWarns s).pending = s.pending ∧ (supplyWarns s).hold = s.hold ∧ (supplyWarns s).clock = s.clock
      ∧ (supplyWarns s).lanes = s.lanes ∧ (supplyWarns s).drive = s.drive ∧ (supplyWarns s).table = s.table
      ∧ (supplyWarns s).notices = s.notices ∧ (supplyWarns s).send = s.send ∧ (supplyWarns s).repair = s.repair
      ∧ (supplyWarns s).recv = s.recv ∧ (supplyWarns s).ctrl.option = s.ctrl.option
      ∧ (supplyWarns s).ctrl.mode = s.ctrl.mode ∧ (supplyWarns s).ctrl.orphans = s.ctrl.orphans := by
  unfold supplyWarns; (repeat' split) <;> simp

@[simp] theorem supplyRecovers_frame (s : State) :
    (supplyRecovers s).pending = s.pending ∧ (supplyRecovers s).hold = s.hold ∧ (supplyRecovers s).clock = s.clock
      ∧ (supplyRecovers s).lanes = s.lanes ∧ (supplyRecovers s).drive = s.drive ∧ (supplyRecovers s).table = s.table
      ∧ (supplyRecovers s).notices = s.notices ∧ (supplyRecovers s).send = s.send
      ∧ (supplyRecovers s).repair = s.repair ∧ (supplyRecovers s).recv = s.recv
      ∧ (supplyRecovers s).ctrl.option = s.ctrl.option ∧ (supplyRecovers s).ctrl.mode = s.ctrl.mode
      ∧ (supplyRecovers s).ctrl.orphans = s.ctrl.orphans := by
  unfold supplyRecovers; (repeat' split) <;> simp

@[simp] theorem idle_frame (s : State) :
    (idle s).pending = s.pending ∧ (idle s).hold = s.hold ∧ (idle s).table = s.table ∧ (idle s).send = s.send
      ∧ (idle s).repair = s.repair ∧ (idle s).recv = s.recv ∧ (idle s).ctrl = s.ctrl ∧ (idle s).mgmt = s.mgmt
      ∧ (idle s).clock.round = s.clock.round ∧ (idle s).clock.capture = s.clock.capture
      ∧ (idle s).clock.pacing = s.clock.pacing ∧ (idle s).clock.validCount = s.clock.validCount
      ∧ (idle s).notices.tentative = s.notices.tentative ∧ (idle s).notices.lastAnswer = s.notices.lastAnswer := by
  unfold idle; (repeat' split) <;> simp

end Sys2Proof.Machine
end

