-- ==== Sys2Proof/Laws/DominantRun.lean ====
section
/-! SUPPORT. The dominant run of a lane (R41): what a reading shows of it, and that at the close of a field nothing but the reading
touches it. -/

namespace Sys2Proof.Machine

open Sys2Proof

/-! ### What readings show -/

/-- A mark with every tick dominant shows no passive level (R5). -/
theorem levelShown_allDominant (levels : List TickLevel) (h : ∀ x ∈ levels, x = .dominant) (since : Nat) :
    (MarkReading.ticks levels).levelShown since = .nothing := by
  rw [show levels = List.replicate levels.length .dominant from List.eq_replicate_iff.2 ⟨rfl, h⟩]
  simp [MarkReading.levelShown, trailing]

/-- The last tick of eight that is not dominant, with `j` after it, was passive in its sample (R5). -/
theorem levelShown_ticks (before : List TickLevel) (x : TickLevel) (j : Nat) (hx : x ≠ .dominant) (hl : before.length + 1 + j = 8) :
    (MarkReading.ticks (before ++ x :: List.replicate j .dominant)).levelShown 800 = .passiveWithin (100 * j + 60) := by
  have h : trailing ((before ++ x :: List.replicate j .dominant).map (fun x => x == TickLevel.dominant)) = j := by
    simp [trailing, hx]
  simp only [MarkReading.levelShown, h]
  rw [if_pos (by simp; omega)]
  simp
  omega

/-- A whole block has a passive element in its last symbol (R20). -/
theorem levelShown_block (header : BitVec 64) (check : BitVec 16) (payload : List Byte) (blockCheck : BitVec 32) (field : Nat)
    (h : payload.length ≤ 256) :
    (BlockReading.frame header check payload blockCheck).levelShown field = .passiveWithin (712 - 2 * payload.length) := by
  simp [BlockReading.levelShown]
  omega

/-! ### The parts of the lanes that readings touch -/

/-- The dominant run of a lane and the reports it has given. -/
def Lane.runView (l : Lane) : Nat × Bool × RunReport := (l.run, l.dominant, l.reported)

/-- The dominant runs of the two lanes. -/
def State.runs (s : State) : PerLane (Nat × Bool × RunReport) := s.lanes.map Lane.runView

theorem State.runs_of_lanes {s t : State} (h : t.lanes = s.lanes) : t.runs = s.runs := by rw [State.runs, h, State.runs]

/-- A change of the lanes that keeps each dominant run keeps them all. -/
theorem State.runs_map (s t : State) (f : Lane → Lane) (hf : ∀ x, (f x).runView = x.runView) (h : t.lanes = s.lanes.map f) :
    t.runs = s.runs := by
  simp [State.runs, h, PerLane.map, hf]

theorem State.runs_mapLane (s : State) (l : LaneId) (f : Lane → Lane) (hf : ∀ x, (f x).runView = x.runView) :
    (s.mapLane l f).runs = s.runs := by
  cases l <;> simp [State.runs, PerLane.map, PerLane.get, PerLane.set, hf]

theorem foldl_runs {α : Type} (f : State → α → State) (h : ∀ s a, (f s a).runs = s.runs) (l : List α) (s : State) :
    (l.foldl f s).runs = s.runs := by
  induction l generalizing s with
  | nil => rfl
  | cons a l ih => rw [List.foldl_cons, ih, h]

@[simp] theorem Lane.cutDrive_runView (l : Lane) : l.cutDrive.runView = l.runView := by
  unfold Lane.cutDrive; split <;> rfl

@[simp] theorem giveEvent_runs (e : Event) (s : State) : (giveEvent e s).runs = s.runs := State.runs_of_lanes (by simp)

@[simp] theorem beginField_runs (t : Nat) (s : State) : (beginField t s).runs = s.runs :=
  State.runs_map _ _ (Lane.beginField t) (fun _ => rfl) rfl

@[simp] theorem driveOn_runs (test : Lane → Bool) (c : DriveContent) (s : State) : (driveOn test c s).runs = s.runs :=
  State.runs_map _ _ (fun l => if test l then { l with drive := .driving, drove := true } else l)
    (fun x => by split <;> rfl) rfl

@[simp] theorem startAnswer_runs (s : State) : (startAnswer s).runs = s.runs := by unfold startAnswer; simp

@[simp] theorem contendOn_runs (test : LaneId → Bool) (field : LeadInField) (v : BitVec 7) (s : State) :
    (contendOn test field v s).runs = s.runs := by
  unfold contendOn
  dsimp only
  split
  · simp only [State.runs, PerLane.map]
    congr 1 <;> split <;> rfl
  · rfl

@[simp] theorem dropTurn_runs (s : State) : (dropTurn s).runs = s.runs := by
  unfold dropTurn
  split
  · simp only [State.runs, PerLane.map]
    split <;> simp
  · rfl

@[simp] theorem changeMode_runs (m : Mode) (cause : ModeCause) (s : State) : (changeMode m cause s).runs = s.runs := by
  unfold changeMode
  dsimp only
  rw [giveEvent_runs]
  split
  · rfl
  · exact dropTurn_runs s

@[simp] theorem enterResync_runs (cause : ModeCause) (epoch : Epoch) (s : State) : (enterResync cause epoch s).runs = s.runs := by
  unfold enterResync
  exact (State.runs_of_lanes (s := changeMode .resync cause s) (by simp)).trans (changeMode_runs _ _ _)

@[simp] theorem enterFaulted_runs (reason : FaultReason) (cause : ModeCause) (s : State) :
    (enterFaulted reason cause s).runs = s.runs := by
  unfold enterFaulted
  dsimp only
  rw [giveEvent_runs]
  refine (State.runs_of_lanes (s := changeMode .faulted cause _) rfl).trans ((changeMode_runs _ _ _).trans ?_)
  exact State.runs_map _ _ Lane.cutDrive Lane.cutDrive_runView (by simp)

@[simp] theorem testEpoch_runs (e : Epoch) (s : State) : (testEpoch e s).runs = s.runs := by
  unfold testEpoch; split <;> simp

@[simp] theorem hear_runs (n : StationNo) (s : State) : (hear n s).runs = s.runs := rfl

@[simp] theorem enterUsable_runs (id : LaneId) (new : LaneState) (s : State) : (enterUsable id new s).runs = s.runs := by
  unfold enterUsable
  rw [giveEvent_runs]
  exact State.runs_mapLane _ _ _ (fun _ => rfl)

@[simp] theorem settleExit_runs (id : LaneId) (s : State) : (settleExit id s).runs = s.runs := by
  unfold settleExit; dsimp only; split <;> simp

/-- What `Lane.tell` does to the dominant run, in the words of the statements. -/
theorem Lane.told_of_runView (shown : LevelShown) (x y : Lane) (h : y.runView = (x.tell shown).runView) : Lane.Told shown x y := by
  simp only [Lane.runView, Prod.mk.injEq] at h
  obtain ⟨h1, h2, h3⟩ := h
  refine ⟨?_, ?_, ?_, ?_⟩
  · rintro n rfl hn
    simp [h1, h2, h3, Lane.tell, hn, Lane.endRun]
  · rintro n rfl ho hn
    have e : x.enabled = true := by simp [Lane.enabled, ho]
    have : ¬ (n = x.run) := by omega
    simp only [Lane.tell, e, Lane.readRun, this] at h1 h2
    simp [hn] at h1 h2
    exact ⟨by rw [h1]; rfl, by rw [h2]⟩
  · rintro n rfl ho
    have e : x.enabled = true := by simp [Lane.enabled, ho]
    simp only [Lane.tell, e, Lane.readRun] at h1 h2
    refine ⟨?_, by simpa using h2⟩
    by_cases hn : n = x.run <;> simp [hn] at h1 ⊢ <;> exact h1
  · intro a b c
    have : x.tell shown = x := by
      cases shown with
      | passiveWithin n => exact if_neg (Nat.not_le.2 (a n rfl))
      | dominantFor n =>
        refine if_neg ?_
        rcases b n rfl with h | h
        · simp [Lane.enabled, h]
        · simp [h]
      | risen n => exact if_neg (by simp [Lane.enabled, c n rfl])
      | nothing => rfl
    exact ⟨by rw [h1, this], by rw [h2, this], by rw [h3, this]⟩

/-- A state whose dominant runs are those that two readings leave of another's. -/
theorem told_of_runs (a b : LevelShown) (s t : State) (h : t.runs = (tellLevels a b s).runs) :
    Lane.Told a s.lanes.a t.lanes.a ∧ Lane.Told b s.lanes.b t.lanes.b := by
  simp only [State.runs, tellLevels, PerLane.map, PerLane.mk.injEq] at h
  exact ⟨Lane.told_of_runView _ _ _ h.1, Lane.told_of_runView _ _ _ h.2⟩

/-! ### The closes of the fields -/

@[simp] theorem monitorMark_runs (id : LaneId) (copy : Copy Unit) (s : State) : (monitorMark id copy s).runs = s.runs := by
  unfold monitorMark
  split
  · rw [settleExit_runs]; exact State.runs_mapLane _ _ _ (fun _ => rfl)
  · rfl

@[simp] theorem contendNotice_runs (lanes : PerLane Lane) (s : State) : (contendNotice lanes s).runs = s.runs := by
  unfold contendNotice
  split
  · split <;> simp
  · rfl

@[simp] theorem closeMark_runs (a b : Copy Unit) (leadInFirst : Bool) (s : State) : (closeMark a b leadInFirst s).runs = s.runs := by
  unfold closeMark
  dsimp only
  rw [contendNotice_runs, beginField_runs, State.runs_of_lanes (listenMark_frame _ _).2.2.2.1]
  simp only [monitorMark_runs]
  exact State.runs_of_lanes (by simp)

@[simp] theorem tableAtNotice_runs (m : MergedNotice) (first : LaneId) (s : State) : (tableAtNotice m first s).runs = s.runs := by
  have h := foldl_runs (fun s (n : Notice) => hear (leadInSender n.leadIn) s) (fun _ _ => rfl) (m.notices first) s
  unfold tableAtNotice
  dsimp only
  split
  · exact h
  · simpa using h
  · split <;> simpa using h

@[simp] theorem controllerAtNotice_runs (m : MergedNotice) (s : State) : (controllerAtNotice m s).runs = s.runs := by
  unfold controllerAtNotice; split <;> simp

@[simp] theorem noticeStep_runs (wasJoined : Bool) (m : MergedNotice) (first : LaneId) (s : State) (step : CloseStep) :
    (noticeStep wasJoined m first s step).runs = s.runs := by
  cases step
  · exact tableAtNotice_runs _ _ _
  · exact State.runs_of_lanes (by simp [noticeStep])
  · exact controllerAtNotice_runs _ _

@[simp] theorem loseAnswers_runs (s : State) : (loseAnswers s).runs = s.runs := by
  have h : ∀ t : State, (reportAnswersLost t).runs = t.runs := by
    intro t; unfold reportAnswersLost; split <;> simp
  unfold loseAnswers applyIf
  dsimp only
  split
  · rw [h]; exact State.runs_of_lanes (by split <;> simp)
  · exact State.runs_of_lanes (by split <;> simp)

@[simp] theorem takeHeader_runs (m : Copy Block) (s : State) : (takeHeader m s).runs = s.runs := by
  unfold takeHeader; split <;> simp

@[simp] theorem countHeader_runs (id : LaneId) (r : BlockReading) (s : State) : (countHeader id r s).runs = s.runs := by
  unfold countHeader countFramed
  split
  · split
    · exact State.runs_mapLane _ _ _ (fun _ => rfl)
    · rfl
  · rfl

@[simp] theorem passStep_runs (n : Nat) (m : MergedBlock) (s : State) (step : PassStep) : (passStep n m s step).runs = s.runs := by
  cases step
  · change (learnAtPass n m.copy (takeHeader m.copy (maintain n m s))).runs = s.runs
    rw [State.runs_of_lanes (s := takeHeader m.copy (maintain n m s)) (by simp), takeHeader_runs]
    exact State.runs_of_lanes (by simp)
  · exact State.runs_of_lanes (by simp [passStep])
  · exact State.runs_of_lanes (by simp [passStep])
  · change (controllerAtPass n m.copy s).runs = s.runs
    unfold controllerAtPass
    split
    · split <;> simp
    · rfl
    · rfl

end Sys2Proof.Machine
end

