-- ==== Sys2Proof/Laws/Runs.lean ====
section
/-! SUPPORT. What `collectRuns` collects: the maximal runs of adjacent slots with one key, in slot order; and the parts of a run. -/

namespace Sys2Proof.Machine
open Sys2Proof

/-- Two maximal runs that share a slot are one. -/
theorem maximalRun_unique {κ : Type} {key : Nat → Option κ} {f c f' c' : Nat} {k k' : κ} (h : MaximalRun key f c k)
    (h' : MaximalRun key f' c' k') {n : Nat} (hn : f ≤ n ∧ n < f + c) (hn' : f' ≤ n ∧ n < f' + c') : f = f' ∧ c = c' ∧ k = k' := by
  obtain ⟨_, ha, hb, hc⟩ := h
  obtain ⟨_, ha', hb', hc'⟩ := h'
  have hk : k = k' := by
    have h1 := ha (n - f) (by omega)
    have h2 := ha' (n - f') (by omega)
    rw [show f + (n - f) = n by omega] at h1
    rw [show f' + (n - f') = n by omega] at h2
    exact Option.some.inj (h1.symm.trans h2)
  subst hk
  have hf : f = f' := by
    rcases Nat.lt_trichotomy f f' with h | h | h
    · have := ha (f' - 1 - f) (by omega)
      rw [show f + (f' - 1 - f) = f' - 1 by omega] at this
      exact absurd this (hc' _ (by omega))
    · exact h
    · have := ha' (f - 1 - f') (by omega)
      rw [show f' + (f - 1 - f') = f - 1 by omega] at this
      exact absurd this (hc _ (by omega))
  subst hf
  refine ⟨rfl, ?_, rfl⟩
  rcases Nat.lt_trichotomy c c' with h | h | h
  · exact absurd (ha' c h) hb
  · exact h
  · exact absurd (ha c' h) hb'

/-- The slot at which the run in progress began, or the next slot. -/
def runStart {κ : Type} (n : Nat) : Option (Run × κ) → Nat
  | some (r, _) => r.first
  | none => n

/-- The run in progress ends right before slot `n` and began where its key did; with none in progress no key stands right before `n`. -/
def RunOpen {κ : Type} (key : Nat → Option κ) (n : Nat) : Option (Run × κ) → Prop
  | some (r, k) => 0 < r.count ∧ r.first + r.count = n ∧ (∀ i, i < r.count → key (r.first + i) = some k)
      ∧ ∀ g, g + 1 = r.first → key g ≠ some k
  | none => ∀ g, g + 1 = n → key g = none

/-- From slot `n` on, with a run in progress or none: each run collected is maximal, each slot with a key lies in one, and they come in slot
order. -/
theorem collectRuns_spec {κ : Type} [DecidableEq κ] (key : Nat → Option κ) :
    ∀ (keys : List (Option κ)) (n : Nat) (cur : Option (Run × κ)), RunOpen key n cur →
      (∀ i, key (n + i) = (keys[i]?).join) →
      (∀ x ∈ collectRuns n keys cur, MaximalRun key x.1.first x.1.count x.2 ∧ runStart n cur ≤ x.1.first)
      ∧ (∀ m, runStart n cur ≤ m → ∀ k, key m = some k → ∃ x ∈ collectRuns n keys cur, x.1.first ≤ m ∧ m < x.1.first + x.1.count)
      ∧ (collectRuns n keys cur).Pairwise (fun x y => x.1.first + x.1.count ≤ y.1.first) := by
  intro keys
  induction keys with
  | nil =>
    intro n cur ho hk
    have hnone : ∀ m, n ≤ m → key m = none := by
      intro m hm
      have := hk (m - n)
      rw [show n + (m - n) = m by omega] at this
      simpa using this
    cases cur with
    | none =>
      refine ⟨by simp [collectRuns], ?_, by simp [collectRuns]⟩
      intro m hm k h
      rw [hnone m hm] at h
      cases h
    | some rk =>
      obtain ⟨r, k⟩ := rk
      obtain ⟨h0, hn, ha, hc⟩ := ho
      refine ⟨?_, ?_, by simp [collectRuns]⟩
      · intro x hx
        have : x = (r, k) := by simpa [collectRuns] using hx
        subst this
        refine ⟨⟨h0, ha, ?_, hc⟩, Nat.le_refl _⟩
        rw [hn, hnone n (Nat.le_refl _)]
        simp
      · intro m hm k' h
        refine ⟨(r, k), by simp [collectRuns], hm, ?_⟩
        by_contra hlt
        rw [hnone m (by simp only at hlt; omega)] at h
        cases h
  | cons o rest ih =>
    intro n cur ho hk
    have hhead : key n = o := by simpa using hk 0
    have htail : ∀ i, key (n + 1 + i) = (rest[i]?).join := by
      intro i
      have := hk (i + 1)
      rw [show n + (i + 1) = n + 1 + i by omega] at this
      simpa using this
    cases o with
    | none =>
      have hopen : RunOpen key (n + 1) (none : Option (Run × κ)) := by
        intro g hg
        rw [show g = n by omega]
        exact hhead
      obtain ⟨i1, i2, i3⟩ := ih (n + 1) none hopen htail
      cases cur with
      | none =>
        simp only [collectRuns]
        refine ⟨fun x hx => ⟨(i1 x hx).1, ?_⟩, ?_, i3⟩
        · have := (i1 x hx).2
          simp only [runStart] at this ⊢
          omega
        · intro m hm k h
          refine i2 m ?_ k h
          simp only [runStart] at hm ⊢
          rcases Nat.lt_or_ge n m with hlt | hge
          · omega
          · rw [show m = n by omega, hhead] at h
            cases h
      | some rk =>
        obtain ⟨r, k⟩ := rk
        obtain ⟨h0, hn, ha, hc⟩ := ho
        simp only [collectRuns]
        refine ⟨?_, ?_, ?_⟩
        · intro x hx
          rcases List.mem_cons.mp hx with rfl | hx
          · refine ⟨⟨h0, ha, ?_, hc⟩, Nat.le_refl _⟩
            rw [hn, hhead]
            simp
          · refine ⟨(i1 x hx).1, ?_⟩
            have := (i1 x hx).2
            simp only [runStart] at this ⊢
            omega
        · intro m hm k' h
          simp only [runStart] at hm
          rcases Nat.lt_or_ge m n with hlt | hge
          · exact ⟨(r, k), by simp, hm, by simp only; omega⟩
          · have : n + 1 ≤ m := by
              rcases Nat.lt_or_ge n m with h1 | h1
              · omega
              · rw [show m = n by omega, hhead] at h
                cases h
            obtain ⟨x, hx, h2⟩ := i2 m this k' h
            exact ⟨x, List.mem_cons_of_mem _ hx, h2⟩
        · refine List.pairwise_cons.mpr ⟨fun y hy => ?_, i3⟩
          have := (i1 y hy).2
          simp only [runStart] at this
          simp only
          omega
    | some k =>
      cases cur with
      | none =>
        have hopen : RunOpen key (n + 1) (some ((⟨n, 1⟩ : Run), k)) := by
          refine ⟨Nat.one_pos, rfl, ?_, ?_⟩
          · intro i hi
            simp only at hi
            rw [show i = 0 by omega]
            exact hhead
          · intro g hg
            rw [ho g hg]
            simp
        obtain ⟨i1, i2, i3⟩ := ih (n + 1) _ hopen htail
        exact ⟨i1, i2, i3⟩
      | some rk =>
        obtain ⟨r, k'⟩ := rk
        obtain ⟨h0, hn, ha, hc⟩ := ho
        by_cases hkk : k = k'
        · subst hkk
          have hopen : RunOpen key (n + 1) (some ({ r with count := r.count + 1 }, k)) := by
            refine ⟨Nat.succ_pos _, by simp only; omega, ?_, hc⟩
            intro i hi
            simp only at hi ⊢
            rcases Nat.lt_or_ge i r.count with h1 | h1
            · exact ha i h1
            · rw [show r.first + i = n by omega]
              exact hhead
          obtain ⟨i1, i2, i3⟩ := ih (n + 1) _ hopen htail
          simp only [collectRuns, if_pos]
          exact ⟨i1, i2, i3⟩
        · have hopen : RunOpen key (n + 1) (some ((⟨n, 1⟩ : Run), k)) := by
            refine ⟨Nat.one_pos, rfl, ?_, ?_⟩
            · intro i hi
              simp only at hi
              rw [show i = 0 by omega]
              exact hhead
            · intro g hg
              have := ha (r.count - 1) (by omega)
              simp only at hg
              rw [show r.first + (r.count - 1) = g by omega] at this
              rw [this]
              simpa using fun e => hkk e.symm
          obtain ⟨i1, i2, i3⟩ := ih (n + 1) _ hopen htail
          simp only [collectRuns, if_neg hkk]
          refine ⟨?_, ?_, ?_⟩
          · intro x hx
            rcases List.mem_cons.mp hx with rfl | hx
            · refine ⟨⟨h0, ha, ?_, hc⟩, Nat.le_refl _⟩
              rw [hn, hhead]
              simpa using hkk
            · refine ⟨(i1 x hx).1, ?_⟩
              have := (i1 x hx).2
              simp only [runStart] at this ⊢
              omega
          · intro m hm k'' h
            simp only [runStart] at hm
            rcases Nat.lt_or_ge m n with hlt | hge
            · exact ⟨(r, k'), by simp, hm, by simp only; omega⟩
            · obtain ⟨x, hx, h2⟩ := i2 m hge k'' h
              exact ⟨x, List.mem_cons_of_mem _ hx, h2⟩
          · refine List.pairwise_cons.mpr ⟨fun y hy => ?_, i3⟩
            have := (i1 y hy).2
            simp only [runStart] at this
            simp only
            omega

/-- Everything that `collectRuns` collects of the keys of the slots from 0 on: the maximal runs, in slot order. -/
theorem collectRuns_maximal {κ : Type} [DecidableEq κ] (keys : List (Option κ)) :
    (∀ f c k, (⟨f, c⟩, k) ∈ collectRuns 0 keys none ↔ MaximalRun (fun n => (keys[n]?).join) f c k)
      ∧ (collectRuns 0 keys none).Pairwise (fun x y => x.1.first + x.1.count ≤ y.1.first) := by
  obtain ⟨h1, h2, h3⟩ := collectRuns_spec (fun n => (keys[n]?).join) keys 0 none (fun g hg => by omega) (fun i => by simp)
  refine ⟨fun f c k => ⟨fun h => (h1 _ h).1, fun h => ?_⟩, h3⟩
  obtain ⟨x, hx, hle, hlt⟩ := h2 f (Nat.zero_le _) k (by simpa using h.2.1 0 h.1)
  obtain ⟨e1, e2, e3⟩ := maximalRun_unique h (h1 x hx).1 ⟨Nat.le_refl _, by have := h.1; omega⟩ ⟨hle, hlt⟩
  obtain ⟨⟨f', c'⟩, k'⟩ := x
  simp only at e1 e2 e3
  subst e1 e2 e3
  exact hx

/-- The parts of a run of at most 24 slots (R75, R167). -/
theorem mem_parts_iff {r p : Run} (h0 : 0 < r.count) (h : r.count ≤ 24) : p ∈ r.parts ↔ IsPart r.first r.count p := by
  unfold Run.parts IsPart
  obtain ⟨f, c⟩ := r
  simp only at h0 h ⊢
  split
  · next h1 =>
    constructor
    · intro hp
      exact ⟨0, by omega, by simp at hp; rw [hp]; simp; omega⟩
    · rintro ⟨j, hj, rfl⟩
      have : j = 0 := by omega
      subst this
      simp
      omega
  · next h1 =>
    constructor
    · intro hp
      rcases List.mem_cons.mp hp with rfl | hp
      · exact ⟨0, by omega, by simp; omega⟩
      · simp at hp
        subst hp
        exact ⟨1, by omega, by simp; omega⟩
    · rintro ⟨j, hj, rfl⟩
      have : j = 0 ∨ j = 1 := by omega
      rcases this with rfl | rfl
      · simp; omega
      · simp; omega

/-- The parts of a run come in slot order. -/
theorem parts_pairwise (r : Run) : r.parts.Pairwise (fun x y => x.first + x.count ≤ y.first) := by
  unfold Run.parts
  split
  · simp
  · split
    · simp
    · simp

end Sys2Proof.Machine
end

