-- ==== Sys2Proof/Laws/Signal.lean ====
section
/-! SUPPORT. What the readings of a fast-rate field, of a mark tick and of an answer position answer, how lane activity divides into
stretches, and what it shows of the dominant run (R5, R20, R31, R39, R41, R190). -/

namespace Sys2Proof.Machine

open Sys2Proof

/-! ### Symbols -/

theorem byteOfSymbol_symbolOf : ∀ b : Byte, byteOfSymbol (symbolOf b) = some b := by decide +kernel

theorem symbolOf_of_byteOfSymbol : ∀ (x : BitVec 10) (b : Byte), byteOfSymbol x = some b → symbolOf b = x := by
  have h : ∀ x : BitVec 10, (byteOfSymbol x).all (fun b => symbolOf b == x) = true := by decide +kernel
  intro x b hb
  simpa [hb] using h x

theorem byteOfSymbol_eq_some_iff (x : BitVec 10) (b : Byte) : byteOfSymbol x = some b ↔ x = symbolOf b :=
  ⟨fun h => (symbolOf_of_byteOfSymbol x b h).symm, fun h => h ▸ byteOfSymbol_symbolOf b⟩

theorem symbolElements_length (x : BitVec 10) : (symbolElements x).length = 10 := by simp [symbolElements]

/-- No symbol of the code is passive throughout. -/
theorem symbolElements_not_passive : ∀ b : Byte, (symbolElements (symbolOf b)).all (fun d => !d) = false := by decide +kernel

/-- Ten elements and their pattern determine each other. -/
theorem symbolElements_eq_iff (elements : List Bool) (h : 10 ≤ elements.length) (x : BitVec 10) :
    patternOf elements = x ↔ elements.take 10 = symbolElements x := by
  have h1 : ∀ a b c d e f g i j k : Bool,
      symbolElements (patternOf [a, b, c, d, e, f, g, i, j, k]) = [a, b, c, d, e, f, g, i, j, k] := by decide +kernel
  have h2 : ∀ z : BitVec 10, patternOf (symbolElements z) = z := by decide +kernel
  have key : ∀ (a b c d e f g i j k : Bool) (rest : List Bool) (y : BitVec 10),
      patternOf (a :: b :: c :: d :: e :: f :: g :: i :: j :: k :: rest) = y
        ↔ [a, b, c, d, e, f, g, i, j, k] = symbolElements y := by
    intro a b c d e f g i j k rest y
    have hp : patternOf (a :: b :: c :: d :: e :: f :: g :: i :: j :: k :: rest)
        = patternOf [a, b, c, d, e, f, g, i, j, k] := rfl
    rw [hp]
    constructor
    · rintro rfl; exact (h1 a b c d e f g i j k).symm
    · intro hy; rw [hy]; exact h2 y
  match elements, h with
  | a :: b :: c :: d :: e :: f :: g :: i :: j :: k :: rest, _ => exact key a b c d e f g i j k rest x

/-! ### Fields -/

theorem readSymbols_ok_iff (n : Nat) (elements : List Bool) (h : 10 * n ≤ elements.length) (bytes : List Byte) :
    readSymbols n elements = .ok bytes
      ↔ bytes.length = n ∧ elements.take (10 * n) = bytes.flatMap (fun b => symbolElements (symbolOf b)) := by
  induction n generalizing elements bytes with
  | zero =>
    simp only [readSymbols, Except.ok.injEq, Nat.mul_zero, List.take_zero, List.length_eq_zero_iff]
    constructor
    · rintro rfl; simp
    · rintro ⟨rfl, _⟩; rfl
  | succ n ih =>
    have hd : 10 * n ≤ (elements.drop 10).length := by simp; omega
    have ht : elements.take (10 * (n + 1)) = elements.take 10 ++ (elements.drop 10).take (10 * n) := by
      rw [show 10 * (n + 1) = 10 + 10 * n by omega, List.take_add]
    have hl : (elements.take 10).length = 10 := by simp; omega
    constructor
    · intro hr
      unfold readSymbols at hr
      split at hr
      · cases hr
      · split at hr
        · next b hb =>
          rw [byteOfSymbol_eq_some_iff, symbolElements_eq_iff elements (by omega)] at hb
          cases hrest : readSymbols n (elements.drop 10) with
          | error e => rw [hrest] at hr; cases hr
          | ok rest =>
            rw [hrest] at hr
            cases hr
            obtain ⟨h1, h2⟩ := (ih _ hd rest).mp hrest
            exact ⟨by simp [h1], by rw [ht, hb, h2]; rfl⟩
        · cases hr
    · rintro ⟨hn, he⟩
      match bytes, hn with
      | b :: rest, hn =>
        rw [ht, List.flatMap_cons] at he
        obtain ⟨h1, h2⟩ := List.append_inj he (by rw [hl, symbolElements_length])
        unfold readSymbols
        rw [h1, symbolElements_not_passive, (symbolElements_eq_iff elements (by omega) _).mpr h1, byteOfSymbol_symbolOf,
          (ih _ hd rest).mpr ⟨by simpa using hn, h2⟩]
        rfl

/-- A fast-rate field is read exactly from its line elements. -/
theorem readField_ok_iff (n off : Nat) (elements : List Bool) (ho : off ≤ Config.startTolerance)
    (h : elements.length = 10 * (n + 1)) (bytes : List Byte) :
    readField n off elements = .ok bytes ↔ bytes.length = n ∧ elements = fieldElements bytes := by
  have hsplit : elements = elements.take 10 ++ elements.drop 10 := (List.take_append_drop 10 elements).symm
  have hd : (elements.drop 10).length = 10 * n := by simp; omega
  have hf : fieldElements bytes
      = symbolElements startSymbol ++ bytes.flatMap (fun b => symbolElements (symbolOf b)) := by
    simp [fieldElements, fieldSymbols, List.flatMap_map]
  have hs := readSymbols_ok_iff n (elements.drop 10) (by omega) bytes
  rw [List.take_of_length_le (by omega)] at hs
  have hstart := symbolElements_eq_iff elements (by omega) startSymbol
  unfold readField
  by_cases hp : patternOf elements = startSymbol
  · have : (decide (Config.startTolerance < off) || patternOf elements != startSymbol) = false := by
      simp [hp, Nat.not_lt.mpr ho]
    simp only [this, Bool.false_eq_true, if_false, hs, hf]
    constructor
    · rintro ⟨h1, h2⟩; exact ⟨h1, by rw [← hstart.mp hp, ← h2, ← hsplit]⟩
    · rintro ⟨h1, h2⟩
      refine ⟨h1, ?_⟩
      rw [hsplit] at h2
      exact (List.append_inj h2 (by rw [hstart.mp hp])).2
  · have : (decide (Config.startTolerance < off) || patternOf elements != startSymbol) = true := by simp [hp]
    simp only [this, if_true]
    constructor
    · intro h; cases h
    · rintro ⟨_, h2⟩
      exact absurd (hstart.mpr (by rw [h2, hf, List.take_left' (symbolElements_length _)])) hp

/-! ### Stretches -/

/-- Level runs that alternate, none of them empty, stand as they are. -/
theorem mergeRuns_of_alternating (runs : List LevelRun) (hpos : ∀ r ∈ runs, r.length ≠ 0)
    (halt : List.IsChain (fun (x y : LevelRun) => x.dominant ≠ y.dominant) runs) : mergeRuns runs = runs := by
  induction runs with
  | nil => rfl
  | cons r rest ih =>
    have hr : r.length ≠ 0 := hpos r (by simp)
    have h := ih (fun x hx => hpos x (by simp [hx])) halt.tail
    unfold mergeRuns
    rw [h]
    cases rest with
    | nil => simp [hr]
    | cons x more =>
      have hx : x.dominant ≠ r.dominant := fun e => (List.isChain_cons_cons.mp halt).1 e.symm
      simp [hr, hx]

/-- A steady level ends a stretch, and what follows it is divided for itself. -/
theorem splitStretches_append_steady (before : Option Bool) (levels xs : List LevelRun) (r : LevelRun) (ys : List LevelRun)
    (h : Config.steadyTime ≤ r.length) :
    splitStretches before levels (xs ++ r :: ys)
      = splitStretches before levels (xs ++ [r]) ++ splitStretches (some r.dominant) [] ys := by
  have hr : ¬ r.length < Config.steadyTime := by omega
  induction xs generalizing before levels with
  | nil =>
    cases before <;> cases levels <;> simp [splitStretches, hr]
  | cons x xs ih =>
    by_cases hx : x.length < Config.steadyTime
    · simp [splitStretches, hx, ih]
    · cases before <;> cases levels <;> simp [splitStretches, hx, ih]

/-! ### Levels, nanosecond by nanosecond -/

/-- The level of each nanosecond of level runs. -/
def expand (runs : List LevelRun) : List Bool := runs.flatMap (fun r => List.replicate r.length r.dominant)

@[simp] theorem expand_nil : expand [] = [] := rfl
@[simp] theorem expand_cons (r : LevelRun) (rest : List LevelRun) :
    expand (r :: rest) = List.replicate r.length r.dominant ++ expand rest := rfl

theorem length_expand_takeLevels (n : Nat) (runs : List LevelRun) : (expand (takeLevels n runs)).length = n := by
  induction runs generalizing n with
  | nil => simp [takeLevels]
  | cons r rest ih => unfold takeLevels; split <;> simp [ih]; omega

theorem getD_expand_takeLevels (n i : Nat) (runs : List LevelRun) (h : i < n) :
    (expand (takeLevels n runs)).getD i false = (expand runs).getD i false := by
  induction runs generalizing n i with
  | nil => simp [takeLevels, h]
  | cons r rest ih =>
    unfold takeLevels
    by_cases hi : i < r.length
    · split <;> simp [List.getD_eq_getElem?_getD, List.getElem?_append, hi, h]
    · split
      · omega
      · have := ih (n - r.length) (i - r.length) (by omega)
        simp only [List.getD_eq_getElem?_getD] at this
        simp [List.getD_eq_getElem?_getD, List.getElem?_append, hi, this]

theorem getD_expand_dropLevels (n i : Nat) (runs : List LevelRun) :
    (expand (dropLevels n runs)).getD i false = (expand runs).getD (n + i) false := by
  induction runs generalizing n i with
  | nil => simp [dropLevels]
  | cons r rest ih =>
    unfold dropLevels
    split
    · by_cases hi : n + i < r.length
      · have : i < r.length - n := by omega
        simp [List.getD_eq_getElem?_getD, List.getElem?_append, hi, this]
      · have h1 : ¬ i < r.length - n := by omega
        have h2 : i - (r.length - n) = n + i - r.length := by omega
        simp [List.getD_eq_getElem?_getD, List.getElem?_append, hi, h1, h2]
    · have hi : ¬ n + i < r.length := by omega
      have := ih (n - r.length) i
      rw [show n - r.length + i = n + i - r.length by omega] at this
      simp only [List.getD_eq_getElem?_getD] at this
      simp [List.getD_eq_getElem?_getD, List.getElem?_append, hi, this]

theorem steadyAt_iff (level : Bool) (runs : List LevelRun) : steadyAt level runs = true ↔ ∀ d ∈ expand runs, d = level := by
  induction runs with
  | nil => simp [steadyAt]
  | cons r rest ih =>
    have : steadyAt level (r :: rest) = ((r.dominant == level || r.length == 0) && steadyAt level rest) := rfl
    rw [this, Bool.and_eq_true, ih]
    simp only [expand_cons, List.mem_append, List.mem_replicate, Bool.or_eq_true, beq_iff_eq]
    constructor
    · rintro ⟨h1 | h1, h2⟩ d (⟨h3, h4⟩ | h4)
      · rw [h4, h1]
      · exact h2 d h4
      · exact absurd h1 h3
      · exact h2 d h4
    · intro h
      refine ⟨?_, fun d hd => h d (Or.inr hd)⟩
      by_cases h0 : r.length = 0
      · exact Or.inr h0
      · exact Or.inl (h r.dominant (Or.inl ⟨h0, rfl⟩))

/-- The levels of `n` nanoseconds from `start` on have one level throughout. -/
theorem steadyAt_sample (level : Bool) (n start : Nat) (runs : List LevelRun) :
    steadyAt level (takeLevels n (dropLevels start runs)) = true
      ↔ ∀ i, i < n → (expand runs).getD (start + i) false = level := by
  have hl := length_expand_takeLevels n (dropLevels start runs)
  have hv := fun i (h : i < n) =>
    (getD_expand_takeLevels n i (dropLevels start runs) h).trans (getD_expand_dropLevels start i runs)
  rw [steadyAt_iff]
  constructor
  · intro h i hi
    rw [← hv i hi, List.getD_eq_getElem _ _ (by omega)]
    exact h _ (List.getElem_mem _)
  · intro h d hd
    obtain ⟨i, hi, rfl⟩ := List.mem_iff_getElem.mp hd
    rw [← List.getD_eq_getElem _ false hi, hv i (by omega)]
    exact h i (by omega)

/-- A tick is read dominant or passive exactly if the lane is so throughout its sample (R5). -/
theorem readTick_iff (start : Nat) (runs : List LevelRun) :
    (readTick start runs = .dominant ↔ ∀ i, i < 200 → (expand runs).getD (start + 400 + i) false = true)
    ∧ (readTick start runs = .passive ↔ ∀ i, i < 200 → (expand runs).getD (start + 400 + i) false = false) := by
  rw [← steadyAt_sample, ← steadyAt_sample]
  unfold readTick
  by_cases h1 : steadyAt true (takeLevels 200 (dropLevels (start + 400) runs)) = true
  · have h2 : steadyAt false (takeLevels 200 (dropLevels (start + 400) runs)) ≠ true := by
      intro h2
      rw [steadyAt_sample] at h1 h2
      have := (h1 0 (by omega)).symm.trans (h2 0 (by omega))
      cases this
    simp [h1, h2]
  · by_cases h2 : steadyAt false (takeLevels 200 (dropLevels (start + 400) runs)) = true <;> simp [h1, h2]

theorem expand_mergeRuns (runs : List LevelRun) : expand (mergeRuns runs) = expand runs := by
  induction runs with
  | nil => rfl
  | cons r rest ih =>
    unfold mergeRuns
    cases h : mergeRuns rest with
    | nil =>
      rw [h] at ih
      by_cases h0 : r.length = 0 <;> simp [h0, ← ih]
    | cons x more =>
      rw [h] at ih
      by_cases h0 : r.length = 0
      · simp [h0, ← ih]
      · by_cases hx : x.dominant = r.dominant
        · simp [h0, hx, ← ih, ← List.replicate_append_replicate]
        · simp [h0, hx, ← ih]

/-- Merged runs are not empty and alternate. -/
theorem mergeRuns_alternates (runs : List LevelRun) : (∀ r ∈ mergeRuns runs, r.length ≠ 0)
    ∧ List.IsChain (fun (x y : LevelRun) => x.dominant ≠ y.dominant) (mergeRuns runs) := by
  induction runs with
  | nil => simp [mergeRuns]
  | cons r rest ih =>
    unfold mergeRuns
    cases h : mergeRuns rest with
    | nil => by_cases h0 : r.length = 0 <;> simp [h0]
    | cons x more =>
      rw [h] at ih
      by_cases h0 : r.length = 0
      · simpa [h0] using ih
      · by_cases hx : x.dominant = r.dominant
        · simp only [h0, hx, if_false, if_true]
          refine ⟨?_, ?_⟩
          · intro y hy
            rcases List.mem_cons.mp hy with rfl | hy
            · simp; omega
            · exact ih.1 y (by simp [hy])
          · cases more with
            | nil => simp
            | cons y more =>
              have := List.isChain_cons_cons.mp ih.2
              exact List.isChain_cons_cons.mpr ⟨by simpa [hx] using this.1, this.2⟩
        · simp only [h0, hx, if_false]
          refine ⟨?_, List.isChain_cons_cons.mpr ⟨fun e => hx e.symm, ih.2⟩⟩
          intro y hy
          rcases List.mem_cons.mp hy with rfl | hy
          · exact h0
          · exact ih.1 y hy

theorem getElem?_expand_cons (r : LevelRun) (rest : List LevelRun) (k : Nat) :
    (expand (r :: rest))[k]? = if k < r.length then some r.dominant else (expand rest)[k - r.length]? := by
  by_cases hk : k < r.length <;> simp [List.getElem?_append, hk]

/-- In runs that alternate, a level that holds for `n` nanoseconds on end is one run of `n` or more. -/
theorem any_run_iff (b : Bool) (n : Nat) (hn : 0 < n) (runs : List LevelRun)
    (halt : List.IsChain (fun (x y : LevelRun) => x.dominant ≠ y.dominant) runs) (hpos : ∀ r ∈ runs, r.length ≠ 0) :
    runs.any (fun r => r.dominant == b && decide (n ≤ r.length)) = true
      ↔ ∃ i, ∀ j, j < n → (expand runs)[i + j]? = some b := by
  induction runs with
  | nil => simp; exact ⟨0, hn⟩
  | cons r rest ih =>
    have ih := ih halt.tail (fun x hx => hpos x (by simp [hx]))
    rw [List.any_cons, Bool.or_eq_true, ih]
    simp only [Bool.and_eq_true, decide_eq_true_eq, beq_iff_eq, getElem?_expand_cons]
    constructor
    · rintro (⟨h1, h2⟩ | ⟨i, hi⟩)
      · exact ⟨0, fun j hj => by rw [if_pos (by omega), h1]⟩
      · refine ⟨r.length + i, fun j hj => ?_⟩
        rw [if_neg (by omega), show r.length + i + j - r.length = i + j by omega]
        exact hi j hj
    · rintro ⟨i, hi⟩
      by_cases hr : i < r.length
      · have hd : r.dominant = b := by simpa [hr] using hi 0 hn
        refine Or.inl ⟨hd, ?_⟩
        by_contra hlt
        have := hi (r.length - i) (by omega)
        rw [if_neg (by omega), show i + (r.length - i) - r.length = 0 by omega] at this
        cases rest with
        | nil => simp at this
        | cons x more =>
          have hx : r.dominant ≠ x.dominant := (List.isChain_cons_cons.mp halt).1
          have hx0 : x.length ≠ 0 := hpos x (by simp)
          rw [getElem?_expand_cons, if_pos (Nat.pos_of_ne_zero hx0)] at this
          exact hx (hd.trans (Option.some.inj this).symm)
      · refine Or.inr ⟨i - r.length, fun j hj => ?_⟩
        have := hi j hj
        rwa [if_neg (by omega), show i + j - r.length = i - r.length + j by omega] at this

/-- Runs that alternate, none of them empty, are told by their levels. -/
theorem eq_of_expand_eq (xs ys : List LevelRun) (hx : ∀ r ∈ xs, r.length ≠ 0) (hy : ∀ r ∈ ys, r.length ≠ 0)
    (ax : List.IsChain (fun (x y : LevelRun) => x.dominant ≠ y.dominant) xs)
    (ay : List.IsChain (fun (x y : LevelRun) => x.dominant ≠ y.dominant) ys) (h : expand xs = expand ys) : xs = ys := by
  -- a first run cannot be the shorter one: the run after it has another level
  have shorter : ∀ (r : LevelRun) (rest : List LevelRun) (q : LevelRun) (more : List LevelRun), r.length ≠ 0 →
      (∀ x ∈ rest, x.length ≠ 0) → List.IsChain (fun (x y : LevelRun) => x.dominant ≠ y.dominant) (r :: rest) →
      expand (r :: rest) = expand (q :: more) → ¬ r.length < q.length := by
    intro r rest q more h0 hp ha he hlt
    have first := congrArg (fun l => l[0]?) he
    have next := congrArg (fun l => l[r.length]?) he
    simp only [getElem?_expand_cons, Nat.pos_of_ne_zero h0, show 0 < q.length by omega, hlt, if_true, lt_irrefl, if_false,
      Nat.sub_self] at first next
    cases rest with
    | nil => simp at next
    | cons x rest =>
      rw [getElem?_expand_cons, if_pos (Nat.pos_of_ne_zero (hp x (by simp)))] at next
      exact (List.isChain_cons_cons.mp ha).1 ((Option.some.inj first).trans (Option.some.inj next).symm)
  induction xs generalizing ys with
  | nil =>
    cases ys with
    | nil => rfl
    | cons q more => exact absurd (congrArg List.length h) (by have := hy q (by simp); simp; omega)
  | cons r rest ih =>
    cases ys with
    | nil => exact absurd (congrArg List.length h) (by have := hx r (by simp); simp; omega)
    | cons q more =>
      have h0 := hx r (by simp)
      have hl : r.length = q.length := by
        have h1 := shorter r rest q more h0 (fun x m => hx x (by simp [m])) ax h
        have h2 := shorter q more r rest (hy q (by simp)) (fun x m => hy x (by simp [m])) ay h.symm
        omega
      have hd := congrArg (fun l => l[0]?) h
      simp only [getElem?_expand_cons, Nat.pos_of_ne_zero h0, ← hl, if_true, Option.some.injEq] at hd
      have hq : r = q := by cases r; cases q; simp_all
      subst hq
      rw [ih more (fun x m => hx x (by simp [m])) (fun x m => hy x (by simp [m])) ax.tail ay.tail (by simpa using h)]

/-- Merged runs depend on the levels alone. -/
theorem mergeRuns_congr (xs ys : List LevelRun) (h : expand xs = expand ys) : mergeRuns xs = mergeRuns ys :=
  eq_of_expand_eq _ _ (mergeRuns_alternates xs).1 (mergeRuns_alternates ys).1 (mergeRuns_alternates xs).2
    (mergeRuns_alternates ys).2 (by rw [expand_mergeRuns, expand_mergeRuns, h])

/-! ### Passive readings (R41) -/

theorem readsPassive_eq : readsPassive = fun r => r.dominant == false && decide (2 ≤ r.length) := by
  funext ⟨d, n⟩; cases d <;> rfl

/-- Levels hold a passive reading exactly if they are passive for two nanoseconds on end (R41). -/
theorem any_readsPassive_iff (runs : List LevelRun) : (mergeRuns runs).any readsPassive = true
    ↔ ∃ i, (expand runs)[i]? = some false ∧ (expand runs)[i + 1]? = some false := by
  obtain ⟨h1, h2⟩ := mergeRuns_alternates runs
  rw [readsPassive_eq, any_run_iff false 2 (by omega) _ h2 h1, expand_mergeRuns]
  constructor
  · rintro ⟨i, hi⟩
    exact ⟨i, hi 0 (by omega), hi 1 (by omega)⟩
  · rintro ⟨i, h1, h2⟩
    refine ⟨i, fun j hj => ?_⟩
    obtain rfl | rfl : j = 0 ∨ j = 1 := by omega
    · exact h1
    · exact h2

/-- Without a candidate edge a mark field reads passive throughout, or as broken by a passive reading, or as dominant throughout (R5, R41). -/
theorem readMark_field (field : List LevelRun) :
    let passive := ∀ d ∈ expand field, d = false
    let broken := ∃ i, (expand field)[i]? = some false ∧ (expand field)[i + 1]? = some false
    (readMark none field = .passiveThroughout ↔ passive) ∧ (readMark none field = .other ↔ ¬ passive ∧ broken)
    ∧ (readMark none field = .dominantThroughout ↔ ¬ passive ∧ ¬ broken) := by
  dsimp only
  rw [← steadyAt_iff, ← any_readsPassive_iff]
  unfold readMark
  by_cases h1 : steadyAt false field = true <;> by_cases h2 : (mergeRuns field).any readsPassive = true <;> simp [h1, h2]

/-! ### What a lane's activity shows of its dominant run (R41) -/

/-- What activity shows of the dominant run depends on its levels alone. -/
theorem runShown_congr (xs ys : List LevelRun) (h : expand xs = expand ys) : runShown xs = runShown ys := by
  unfold runShown; rw [mergeRuns_congr xs ys h]

/-- Levels before a passive one change nothing of the levels after it, nor make it shorter. -/
theorem mergeRuns_append_passive (earlier : List LevelRun) (passive : LevelRun) (later : List LevelRun)
    (hp : passive.dominant = false) (h : mergeRuns (passive :: later) = passive :: later) :
    ∃ front p, mergeRuns (earlier ++ passive :: later) = front ++ p :: later ∧ p.dominant = false
      ∧ passive.length ≤ p.length := by
  induction earlier with
  | nil => exact ⟨[], passive, h, hp, le_refl _⟩
  | cons r rest ih =>
    obtain ⟨front, p, e, hd, hl⟩ := ih
    rw [List.cons_append, mergeRuns, e]
    by_cases hr : r.length = 0
    · exact ⟨front, p, by cases front <;> simp [hr], hd, hl⟩
    · cases front with
      | nil =>
        by_cases hx : p.dominant = r.dominant
        · exact ⟨[], { r with length := r.length + p.length }, by simp [hr, hx], hx ▸ hd, by simp; omega⟩
        · exact ⟨[r], p, by simp [hr, hx], hd, hl⟩
      | cons x front =>
        by_cases hx : x.dominant = r.dominant
        · exact ⟨{ r with length := r.length + x.length } :: front, p, by simp [hr, hx], hd, hl⟩
        · exact ⟨r :: x :: front, p, by simp [hr, hx], hd, hl⟩

/-- Levels without a passive reading show the lane dominant throughout (R41). -/
theorem runShown_dominant (levels : List LevelRun) (h : mergeRuns levels = levels) (hq : ∀ r ∈ levels, readsPassive r = false) :
    runShown levels = .dominantFor ((levels.map (fun r => r.length)).sum / 10) := by
  have : levels.reverse.takeWhile (fun r => !readsPassive r) = levels.reverse :=
    List.takeWhile_eq_self_iff.2 (fun r m => by simp [hq r (List.mem_reverse.1 m)])
  simp [runShown, h, this, List.sum_reverse]

/-- After the last passive reading the levels are one dominant run, which shorter passive levels do not break (R41). -/
theorem runShown_append (earlier : List LevelRun) (passive : LevelRun) (later : List LevelRun) (hp : passive.dominant = false)
    (h2 : 2 ≤ passive.length) (h : mergeRuns (passive :: later) = passive :: later) (hq : ∀ r ∈ later, readsPassive r = false) :
    runShown (earlier ++ passive :: later)
      = if later = [] then .passiveWithin 0 else .risen ((later.map (fun r => r.length)).sum / 10) := by
  obtain ⟨front, p, e, hd, hl⟩ := mergeRuns_append_passive earlier passive later hp h
  have hr : readsPassive p = true := by simp [readsPassive_eq, hd, Nat.le_trans h2 hl]
  have hall : later.reverse.takeWhile (fun r => !readsPassive r) = later.reverse :=
    List.takeWhile_eq_self_iff.2 (fun r m => by simp [hq r (List.mem_reverse.1 m)])
  have : (front ++ p :: later).reverse.takeWhile (fun r => !readsPassive r) = later.reverse := by
    rw [List.reverse_append, List.reverse_cons, List.append_assoc, List.takeWhile_append, hall]
    simp [hr]
  have hlen : ¬ later.length = front.length + (later.length + 1) := by omega
  unfold runShown
  dsimp only
  rw [e, this]
  simp [hlen, List.sum_reverse, List.isEmpty_iff]

/-- An answer position is read dominant exactly if the lane is dominant for 20 continuous units within it (R31). -/
theorem readPosition_iff (start : Nat) (runs : List LevelRun) : readPosition start runs = true
    ↔ ∃ i, i + 200 ≤ 1000 ∧ ∀ j, j < 200 → (expand runs).getD (start + i + j) false = true := by
  have hl := length_expand_takeLevels 1000 (dropLevels start runs)
  have hv := fun i (h : i < 1000) =>
    (getD_expand_takeLevels 1000 i (dropLevels start runs) h).trans (getD_expand_dropLevels start i runs)
  obtain ⟨h1, h2⟩ := mergeRuns_alternates (takeLevels 1000 (dropLevels start runs))
  have hd : (fun (r : LevelRun) => r.dominant && decide (200 ≤ r.length)) = fun r => r.dominant == true && decide (200 ≤ r.length) := by
    funext r; simp
  have hat : ∀ (l : List Bool) k, l[k]? = some true ↔ l.getD k false = true := by
    intro l k; rw [List.getD_eq_getElem?_getD]; cases l[k]? <;> simp
  unfold readPosition
  rw [hd, any_run_iff true 200 (by omega) _ h2 h1, expand_mergeRuns]
  simp only [hat]
  constructor
  · rintro ⟨i, hi⟩
    have hb : i + 200 ≤ 1000 := by
      by_contra hgt
      have := hi 199 (by omega)
      rw [List.getD_eq_default _ _ (by omega)] at this
      cases this
    exact ⟨i, hb, fun j hj => by rw [← hi j hj, hv _ (by omega), Nat.add_assoc]⟩
  · rintro ⟨i, hb, hi⟩
    exact ⟨i, fun j hj => by rw [hv _ (by omega), ← hi j hj, Nat.add_assoc]⟩

end Sys2Proof.Machine
end

