-- ==== Sys2Proof/Laws/Time.lean ====
section
/-! SUPPORT. The passing of time: what `reach` does to the clock and to each lane, when a command is due, and what `dated` and `fieldEvent`
answer. -/

namespace Sys2Proof.Machine

open Sys2Proof

/-- Time never passes the next field event of the round (R3). -/
theorem State.horizon_le_event (s : State) : s.horizon ≤ Config.eventAt s.clock.closed := by
  unfold State.horizon
  dsimp only
  split <;> split <;> omega

/-- Before the horizon nothing due is passed; at or beyond it nothing moves. -/
theorem reach_of_le {r : Nat} {s : State} (h : min r s.horizon ≤ s.clock.timer) : reach r s = s := by
  unfold reach
  simp [h]

/-- Everything `reach` does to the clock: the timer moves, and with it the local time base. -/
theorem reach_clock (r : Nat) (s : State) :
    ∃ phase, (reach r s).clock = { s.clock with timer := max s.clock.timer (min r s.horizon), phase := phase } := by
  unfold reach
  dsimp only
  split
  · next h => exact ⟨s.clock.phase, by rw [Nat.max_eq_left h]⟩
  · next h =>
    rw [Nat.max_eq_right (by omega)]
    simp only [passMoments_frame]
    exact ⟨_, rfl⟩

@[simp] theorem reach_timer (r : Nat) (s : State) : (reach r s).clock.timer = max s.clock.timer (min r s.horizon) := by
  obtain ⟨_, h⟩ := reach_clock r s
  rw [h]

@[simp] theorem reach_closed (r : Nat) (s : State) : (reach r s).clock.closed = s.clock.closed := by
  obtain ⟨_, h⟩ := reach_clock r s
  rw [h]

@[simp] theorem reach_lateWindow (r : Nat) (s : State) : (reach r s).clock.lateWindow = s.clock.lateWindow := by
  obtain ⟨_, h⟩ := reach_clock r s
  rw [h]

@[simp] theorem reach_edgeTaken (r : Nat) (s : State) : (reach r s).clock.edgeTaken = s.clock.edgeTaken := by
  obtain ⟨_, h⟩ := reach_clock r s
  rw [h]

@[simp] theorem reach_drove (r : Nat) (s : State) : (reach r s).clock.drove = s.clock.drove := by
  obtain ⟨_, h⟩ := reach_clock r s
  rw [h]

/-- The two parts of `reaches`. -/
theorem State.reaches_iff {s : State} {r : Nat} : s.reaches r = true ↔ s.clock.timer ≤ r ∧ r ≤ s.horizon := by
  simp [State.reaches]

/-- The timer stands at a reading that it reaches. -/
theorem reach_timer_of_reaches {s : State} {r : Nat} (h : s.reaches r = true) : (reach r s).clock.timer = r := by
  have := State.reaches_iff.mp h
  rw [reach_timer]
  omega

/-- The timer never passes a field event that has not occurred (R3). -/
theorem reach_timer_le_event {r : Nat} {s : State} (h : s.clock.timer ≤ Config.eventAt s.clock.closed) :
    (reach r s).clock.timer ≤ Config.eventAt s.clock.closed := by
  have := s.horizon_le_event
  rw [reach_timer]
  omega

/-- The two parts of `due`. -/
theorem State.due_iff {s : State} {k : Nat} : s.due k = true ↔ s.clock.closed = k ∧ s.reaches (Config.eventAt k) = true := by
  simp [State.due]

/-- The clock at a field event that was due: the timer stands at its reading, and the event has occurred (R3). -/
theorem atEvent_clock_of_due {s : State} {k : Nat} (h : s.due k = true) :
    (atEvent k s).clock.timer = Config.eventAt k ∧ (atEvent k s).clock.closed = k + 1 := by
  obtain ⟨_, hr⟩ := State.due_iff.mp h
  exact ⟨reach_timer_of_reaches hr, rfl⟩

/-- A field event that has occurred is not due again in its round (R3). -/
theorem not_due_atEvent (k : Nat) (s : State) : (atEvent k s).due k = false := by
  simp [State.due, atEvent]

/-- A command acts at a reading that the timer reaches. -/
theorem dated_of_reaches {s : State} {r : Nat} (f : State → State) (h : s.reaches r = true) : dated r f s = f (reach r s) := by
  simp [dated, h]

/-- A command whose reading has passed, or that a due command precedes, changes nothing. -/
theorem dated_of_not {s : State} {r : Nat} (f : State → State) (h : s.reaches r = false) : dated r f s = s := by
  simp [dated, h]

/-- Everything `dated` can answer. -/
theorem dated_cases {P : State → Prop} {r : Nat} {f : State → State} {s : State} (h1 : s.reaches r = true → P (f (reach r s)))
    (h2 : P s) : P (dated r f s) := by
  unfold dated
  split
  · next h => exact h1 h
  · exact h2

/-- A field event that is due occurs. -/
theorem fieldEvent_of_due {s : State} {k : Nat} (f : State → State) (h : s.due k = true) : fieldEvent k f s = f (atEvent k s) := by
  simp [fieldEvent, h]

/-- A field event that is not due does not occur. -/
theorem fieldEvent_of_not {s : State} {k : Nat} (f : State → State) (h : s.due k = false) : fieldEvent k f s = s := by
  simp [fieldEvent, h]

/-- Everything `fieldEvent` can answer. -/
theorem fieldEvent_cases {P : State → Prop} {k : Nat} {f : State → State} {s : State}
    (h1 : s.due k = true → P (f (atEvent k s))) (h2 : P s) : P (fieldEvent k f s) := by
  unfold fieldEvent
  split
  · next h => exact h1 h
  · exact h2

/-- Two lanes agree in all that a monitor holds, and in echo delay, hold and open reading. -/
def Lane.agrees (x y : Lane) : Prop :=
  x.state = y.state ∧ x.cause = y.cause ∧ x.echoOwed = y.echoOwed ∧ x.windowCounter = y.windowCounter
  ∧ x.violations = y.violations ∧ x.windowHeld = y.windowHeld ∧ x.run = y.run ∧ x.dominant = y.dominant
  ∧ x.reported = y.reported ∧ x.quiet = y.quiet ∧ x.marks = y.marks ∧ x.rounds = y.rounds ∧ x.contPhase = y.contPhase
  ∧ x.echoDelay = y.echoDelay ∧ x.measuring = y.measuring ∧ x.hold = y.hold ∧ x.search = y.search

theorem Lane.agrees_refl (x : Lane) : x.agrees x := by simp [Lane.agrees]

theorem Lane.agrees_trans {x y z : Lane} (h : x.agrees y) (k : y.agrees z) : x.agrees z := by
  simp_all [Lane.agrees]

theorem driveOn_agrees (test : Lane → Bool) (c : DriveContent) (s : State) (l : LaneId) :
    ((driveOn test c s).lanes.get l).agrees (s.lanes.get l) := by
  simp only [driveOn, PerLane.get_map]
  split <;> simp [Lane.agrees]

theorem contendOn_agrees (test : LaneId → Bool) (field : LeadInField) (v : BitVec 7) (s : State) (l : LaneId) :
    ((contendOn test field v s).lanes.get l).agrees (s.lanes.get l) := by
  cases l <;> simp only [contendOn] <;> split <;> simp only [PerLane.get] <;> (try split) <;> simp [Lane.agrees]

theorem beginField_agrees (t : Nat) (s : State) (l : LaneId) : ((beginField t s).lanes.get l).agrees (s.lanes.get l) := by
  simp [Lane.beginField, Lane.agrees]

theorem applyIf_agrees (c : Bool) (f : State → State) (s : State) (l : LaneId)
    (h : ((f s).lanes.get l).agrees (s.lanes.get l)) : ((applyIf c f s).lanes.get l).agrees (s.lanes.get l) := by
  cases c
  · exact Lane.agrees_refl _
  · exact h

theorem startRepairLeadIn_agrees (s : State) (l : LaneId) :
    ((startRepairLeadIn s).lanes.get l).agrees (s.lanes.get l) := by
  unfold startRepairLeadIn
  dsimp only
  split
  · exact beginField_agrees _ s l
  · split
    · exact Lane.agrees_trans (contendOn_agrees _ _ _ _ l) (beginField_agrees _ s l)
    · exact beginField_agrees _ s l

theorem startSlotDrive_agrees (s : State) (l : LaneId) : ((startSlotDrive s).lanes.get l).agrees (s.lanes.get l) := by
  unfold startSlotDrive
  split
  · exact Lane.agrees_refl _
  · next n b _ =>
    by_cases h : (if b.header.resend then s.repair.turn else s.ctrl.mode == .joined) = true
    · rw [if_pos h]
      exact driveOn_agrees Lane.entered (.block b) s l
    · rw [if_neg h]
      exact Lane.agrees_refl _

/-- Passing the moments inside a round leaves each lane's monitor, echo delay, hold and open reading alone (R22). -/
theorem passMoments_agrees (crossed : Nat → Bool) (s : State) (l : LaneId) :
    ((passMoments crossed s).lanes.get l).agrees (s.lanes.get l) := by
  unfold passMoments
  dsimp only
  refine Lane.agrees_trans (applyIf_agrees _ _ _ l (startSlotDrive_agrees _ l)) ?_
  refine Lane.agrees_trans (applyIf_agrees _ _ _ l (startRepairLeadIn_agrees _ l)) ?_
  refine Lane.agrees_trans (applyIf_agrees _ _ _ l ?_) ?_
  · simp [endAnswer, Lane.agrees]
  refine Lane.agrees_trans (applyIf_agrees _ _ _ l (driveOn_agrees _ _ _ l)) ?_
  refine applyIf_agrees _ _ _ l ?_
  rw [(endNoticeBody_frame s).2.2.2.1]
  exact Lane.agrees_refl _

/-! ### Entry into a field, and the dominant run -/

/-- As a field begins the lanes that may be entered in it are the transmit-usable ones (R21). -/
@[simp] theorem Lane.entered_beginField (t : Nat) (l : Lane) : (l.beginField t).entered = l.transmitUsable := by
  have h : (l.beginField t).transmitUsable = l.transmitUsable := rfl
  unfold Lane.entered
  rw [h]
  exact Bool.and_self _

/-- A lane that surges or is held may not be entered in the rest of the field (R21, R30). -/
@[simp] theorem Lane.entered_surge (cause : SurgeCause) (t : Nat) (l : Lane) : (l.surge cause t).entered = false := by
  simp [Lane.entered, Lane.surge]

/-- Everything that reading the dominant-run timer changes of a lane, within the timer's range (R41). -/
theorem Lane.readRun_spec (value : Nat) (l : Lane) :
    ∃ run dominant reported held, l.readRun value
        = { l with run := run, dominant := dominant, reported := reported, windowHeld := held }
      ∧ (l.run ≤ Config.heldRun → run ≤ Config.heldRun) := by
  unfold Lane.readRun
  split
  · exact ⟨l.run, l.dominant, l.reported, l.windowHeld, rfl, id⟩
  · exact ⟨_, _, _, _, rfl, fun _ => Nat.min_le_left _ _⟩

/-- Everything that a reading changes of a lane, within the timer's range (R41). -/
theorem Lane.tell_spec (shown : LevelShown) (l : Lane) :
    ∃ run dominant reported held, l.tell shown
        = { l with run := run, dominant := dominant, reported := reported, windowHeld := held }
      ∧ (l.run ≤ Config.heldRun → run ≤ Config.heldRun) := by
  have same : ∃ run dominant reported held, l = { l with run := run, dominant := dominant, reported := reported, windowHeld := held }
      ∧ (l.run ≤ Config.heldRun → run ≤ Config.heldRun) := ⟨l.run, l.dominant, l.reported, l.windowHeld, rfl, id⟩
  unfold Lane.tell
  split
  · split
    · exact ⟨0, false, .none, l.windowHeld, rfl, fun _ => Nat.zero_le _⟩
    · exact same
  · split
    · exact Lane.readRun_spec _ l
    · exact same
  · split
    · obtain ⟨run, _, reported, held, h, hr⟩ := Lane.readRun_spec _ l
      exact ⟨run, true, reported, held, by rw [h], hr⟩
    · exact same
  · exact same

/-- After a reading that shows the lane passive at some moment of the last `n` units no run of so many units stands (R41). -/
theorem Lane.tell_passiveWithin (n : Nat) (l : Lane) (h : 0 < n) : (l.tell (.passiveWithin n)).run < n := by
  unfold Lane.tell
  dsimp only
  split
  · exact h
  · omega

/-- A run that began after the passive moment a reading shows goes on (R41). -/
theorem Lane.tell_passiveWithin_of_lt (n : Nat) (l : Lane) (h : l.run < n) : l.tell (.passiveWithin n) = l := by
  unfold Lane.tell
  exact if_neg (by omega)

end Sys2Proof.Machine
end

