-- ==== Sys2Proof/Tests/Slice0.lean ====
section
/-! SUPPORT. Tests on small states: the operand checks and an ill-formed term for each, the formats on fixed values, one step for the
main commands, and for every statement with hypotheses states and operands that meet them, clause by clause. -/

namespace Sys2Proof.Tests

open Sys2Proof Sys2Proof.Machine

/-! ### The sample station -/

/-- The next state of an answer. -/
def after (r : Host.Outcome State Fault Refusal) : Option State :=
  match r with
  | .next t => some t
  | .fault _ => none
  | .refused _ => none

/-- The three answers of a command. -/
inductive Answer where
  | next | fault | refused
deriving DecidableEq, Repr

/-- Which answer a command gives. -/
def answer (r : Host.Outcome State Fault Refusal) : Answer :=
  match r with
  | .next _ => .next
  | .fault .illFormedCommand => .fault
  | .refused _ => .refused

def order : RoundOrder := ⟨RoundStep.all, true⟩
def closeOrder : CloseOrder := ⟨CloseStep.all, .a⟩

def lane : Lane := { Lane.reset true with contributing := true, admitted := true, usableSince := some 0 }
def surged : Lane := Lane.surge .long 850 lane
def laneOff : Lane := Lane.reset false

def liveEntry : SendEntry :=
  { SendEntry.reset with state := .live, priority := some 3, slotRun := some ⟨0, 2⟩, gen := 1, nextSeq := 5, cls := some .r128 }

def heldEntry : SendEntry :=
  { SendEntry.reset with state := .held, priority := some 4, slotRun := some ⟨2, 1⟩, gen := 2, cls := some .r128,
                         heldRounds := some 9 }

def claimingEntry : SendEntry :=
  { SendEntry.reset with state := .claiming, priority := some 3, requested := some 2, claimRun := some ⟨4, 2⟩, gen := 1,
                         cls := some .r256 }

def releasingEntry : SendEntry := { liveEntry with state := .releasing, releasePath := some .fromLive }

def claim : Queued :=
  { kind := .claim, priority := 3, tag := 10, target := 0, first := 4, count := 2, origin := .send .p2, attempt := 1,
    queuedRound := some 90, inFlight := false, withdrawn := false, pending := false, lastSent := none }

def anchor : Anchor := { gen := 1, nextPlayout := 40, nextPlace := 40 }

def heldPlace : Place := { block := some (false, [7]), seq := 40, gen := 1, due := 101 }
def missingPlace : Place := { block := none, seq := 41, gen := 1, due := 109 }
def gap : GapRun := { first := 41, count := 1, asksUsed := 0, ask := none }

/-- An anchored stream of station 5's tag 20, with sequence 40 HELD and 41 MISSING. -/
def stream : RecvStream :=
  { active := true, tag := 20, delay := 20, cls := .w256, anchor := some anchor, window := [heldPlace, missingPlace], gaps := [gap] }

/-- Station 2, JOINED with pacing permit: slots 0 and 1 its own with the tag of port 0, slot 2 with the tag of port 1, slot 3 of station
5 with tag 20, slots 4 to 9 OPEN, the others UNKNOWN. -/
def base : State :=
  { State.reset with
    hold := ⟨false, false, false, false⟩
    lanes := ⟨lane, lane⟩
    clock := { Clock.reset with round := 100, timer := 850, validCount := 9, closed := 1, pacing := true }
    table := { SlotTable.reset with
      epoch := 7
      live := ([.owned 2 8, .owned 2 8, .owned 2 9, .owned 5 20].map SlotEntry.fresh) ++
        List.replicate 6 (SlotEntry.fresh .openSlot) ++ List.replicate 14 (SlotEntry.fresh .unknown) }
    notices := { NoticeEngine.reset with queue := [claim] }
    send := ⟨liveEntry, heldEntry, claimingEntry, SendEntry.reset⟩
    recv := ⟨{ RecvEntry.reset with stream := some stream }, RecvEntry.reset, RecvEntry.reset, RecvEntry.reset⟩
    ctrl := { Controller.reset
        { station := 2, laneA := true, laneB := true, policy := .fault, pacing := true, chatter := 1 } Context.empty with
      mode := .joined, startCount := none } }

/-- A state in another mode, at another reading, right after the field event before event `k`. -/
def inMode (m : Mode) (s : State) : State := { s with ctrl := { s.ctrl with mode := m } }
def atReading (r : Nat) (s : State) : State := { s with clock := { s.clock with timer := r } }
def before (k : Nat) (s : State) : State :=
  { s with clock := { s.clock with timer := if k = 0 then 0 else Config.eventAt (k - 1), closed := k } }

/-- A state with other lanes, another number, another send entry or receive entry of port 0, another queue, another live table. -/
def withLanes (a b : Lane) (s : State) : State := { s with lanes := ⟨a, b⟩ }
def withStation (n : StationNo) (s : State) : State := { s with ctrl := { s.ctrl with option := { s.ctrl.option with station := n } } }
def withSend (e : SendEntry) (s : State) : State := { s with send := { s.send with p0 := e } }
def withStream (x : RecvStream) (s : State) : State := { s with recv := { s.recv with p0 := { RecvEntry.reset with stream := some x } } }
def withQueue (q : List Queued) (s : State) : State := { s with notices := { s.notices with queue := q } }
def withUse (n : Nat) (u : SlotUse) (s : State) : State :=
  { s with table := { s.table with live := s.table.live.set n (SlotEntry.fresh u) } }

/-- Eight queued notices, none of which is a CLAIM. -/
def fullQueue : List Queued := (List.range 8).map (fun i => reclaimNotice 5 (BitVec.ofNat 6 (20 + i)) ⟨3, 1⟩)

/-- The sample station in the late window, with no mark counted; with a search reading open on lane A; in LISTENING; and in DARK. -/
def inLateWindow : State :=
  before 0 { base with clock := { base.clock with lateWindow := true, validCount := 0, pacing := false } }
def searching (x : Search) : State := withLanes { lane with search := some x } lane base
def listening : State := { base with ctrl := { base.ctrl with mode := .listening, alone := some 3, lockTaken := some false } }
def dark (back : Mode) (spell : Nat) : State :=
  withLanes surged laneOff
    { base with ctrl := { base.ctrl with mode := .dark, returnMode := some back, darkRounds := some spell },
                notices := { base.notices with queue := [] } }

/-- The sample station with a notice in flight, contending on both lanes in the notice window. -/
def contendingWith (q : Queued) : State :=
  { base with
    lanes := ⟨{ lane with drive := .contending }, { lane with drive := .contending }⟩
    drive := { FieldDrive.idle with content := .leadIn .noticeWindow, leadIn := some (leadInValue q.priority 2) }
    notices := { base.notices with
      queue := [{ q with inFlight := true }]
      flight := some { leadIn := leadInValue q.priority 2, body := q.body 7, sent := ⟨false, false⟩ } } }

def contending : State := contendingWith claim

/-- It drives the body of that notice. -/
def drivingBody : State :=
  atReading 1500 { contending with
    lanes := ⟨{ lane with drive := .driving }, { lane with drive := .cut }⟩
    drive := { FieldDrive.idle with content := .noticeBody } }

/-- The notice was sent, and its window or its answer field comes. -/
def sentNotice (q : Queued) : State :=
  { base with
    notices := { base.notices with
      queue := [{ q with inFlight := true, lastSent := some q.run }]
      flight := some { leadIn := leadInValue q.priority 2, body := q.body 7, sent := ⟨true, true⟩ }
      sentNotice := true } }
def sentAt (k : Nat) (q : Queued) (plan : Option AnswerPlan) (tentative : Option Tentative) : State :=
  let s := before k (sentNotice q)
  { s with notices := { s.notices with plan := plan, tentative := tentative } }

/-- The tentative change of the station's own notice. -/
def ownChange (q : Queued) : Option Tentative := some { kind := q.kind, run := q.run, owner := 2, tag := q.tag }
def claimed : State := sentAt 2 claim (some .accept) (ownChange claim)
def ownRelease : Queued := releaseNotice (.send .p0) 8 ⟨0, 2⟩
def ask : Queued := askNotice .p0 20 41 1
def reclaim : Queued := reclaimNotice 5 20 ⟨3, 1⟩

/-- The sample station with a tentative change of station 5, at the answer field; another one in its slot of the answer field. -/
def answering : State :=
  before 2 { base with
    notices := { base.notices with
      plan := some .accept, tentative := some { kind := .release, run := ⟨3, 1⟩, owner := 5, tag := 20 } } }
def planning (p : AnswerPlan) (r : Nat) : State :=
  atReading r (before 2 { base with notices := { base.notices with plan := some p } })

/-- A retained block, and the sample station with its re-send queued, contending in the repair window. -/
def kept : Retained := { seq := 4, gen := 1, fill := true, payload := [], check := check32 [] }
def queuedResend : State :=
  before 3 { base with
    send := { base.send with p0 := { liveEntry with ring := [kept] } }, repair := { queue := [⟨8, 4, 3⟩], turn := false } }
def repairing : State :=
  atReading 3700 { queuedResend with
    lanes := ⟨{ lane with drive := .contending }, lane⟩
    drive := { FieldDrive.idle with content := .leadIn .repairWindow, leadIn := some (leadInValue 3 2) } }

/-- The re-send stamped for the repair window or for a slot, and the sample station driving or handing it over. -/
def resentBlock (index : BitVec 5) : Block :=
  { header := { owner := 2, tag := 8, gen := 1, seq := 4, fill := true, resend := true, index := index, epoch := 7, length := 0 },
    payload := [], check := check32 [] }
def resending : State :=
  atReading 4300 { repairing with
    lanes := ⟨{ lane with drive := .driving }, lane⟩
    drive := { FieldDrive.idle with content := .block (resentBlock 31) }
    repair := { repairing.repair with turn := true } }

/-- A block of station 5's stream for slot 3, and a block of another header. -/
def farBlock (seq : Seq) : Block :=
  { header := { owner := 5, tag := 20, gen := 1, seq := seq, fill := false, resend := false, index := 3, epoch := 7, length := 1 },
    payload := [9], check := check32 [9] }
def withHeader (f : BlockHeader → BlockHeader) (b : Block) : Block := { b with header := f b.header }
def resent (seq : Seq) : Block := withHeader (fun h => { h with resend := true, index := 31 }) (farBlock seq)
def ownBlock (seq : Seq) : Block := withHeader (fun h => { h with owner := 2, tag := 8, index := 0 }) (farBlock seq)
def handing (b : Block) : State := before 4 { base with drive := { FieldDrive.idle with handed := some (0, b) } }

/-- A notice of another station, as a reading. -/
def farNotice (sender : StationNo) (q : Queued) (epoch : Epoch) : Flight :=
  { leadIn := leadInValue q.priority sender, body := q.body epoch, sent := ⟨false, false⟩ }
def notice (f : Flight) : Notice := { leadIn := f.leadIn, body := f.body }
def farClaim : Flight := farNotice 5 { claim with tag := 21 } 7
def farAsk (first : Seq) (count : BitVec 5) : Flight :=
  farNotice 5 { ask with tag := 8, first := first, count := count } 7

def mark : MarkReading := .ticks markPattern

/-- Every lane carried answers of all stations, without dissent; with it; nothing. -/
def accepts : AnswerReading := { accepts := 0xFFFF, dissent := false }
def dissents : AnswerReading := { accepts := 0, dissent := true }
def silence : AnswerReading := { accepts := 0, dissent := false }

/-- The lanes contributed nothing to the field. -/
def deaf (s : State) : State := { s with lanes := s.lanes.map (fun l => { l with contributing := false }) }

/-- A learned table with no UNKNOWN entry, and a state with it in progress. -/
def learned (epoch : Option Epoch) (rounds : Nat) (carried : List CarriedRun) : Learning :=
  { table := List.replicate 24 { use := .openSlot, carried := true }, epoch := epoch, rounds := rounds, carried := carried }
def withLearning (L : Learning) (s : State) : State := { s with table := { s.table with learning := some L } }

/-! ### Ill-formed terms that the operand checks refuse -/

theorem test_known_kind_refused : (Instr.unknownRequestKind 1).wellFormed = false ∧ (Instr.unknownRequestKind 11).wellFormed = false
    ∧ (Instr.unknownRequestKind 0).wellFormed = true ∧ (Instr.unknownRequestKind 12).wellFormed = true := by decide
theorem test_expiry_order_refused :
    (Instr.roundTimerExpiry ⟨RoundStep.all.tail, true⟩).wellFormed = false ∧ (Instr.roundTimerExpiry order).wellFormed = true := by
  decide
theorem test_expiry_order_reversed_refused : (Instr.roundTimerExpiry ⟨RoundStep.all.reverse, true⟩).wellFormed = false := by decide
theorem test_early_edge_order_refused : (Instr.earlyWindowEdge .a 24900 ⟨[], true⟩).wellFormed = false := by decide
theorem test_adoption_order_refused :
    (Instr.openSearchAdoption .a .other true ⟨RoundStep.monitors :: RoundStep.all, true⟩).wellFormed = false := by decide
theorem test_notice_order_refused :
    (Instr.noticeWindowClose .other .other ⟨[.slotTable, .slotTable, .controller], .a⟩).wellFormed = false
    ∧ (Instr.noticeWindowClose .other .other closeOrder).wellFormed = true := by decide
theorem test_pass_order_refused :
    (Instr.slotPass 0 .other .other [.slotTable, .sendEngine, .receiveEngine]).wellFormed = false
    ∧ (Instr.slotPass 0 .other .other PassStep.all).wellFormed = true := by decide
theorem test_ill_formed_faults : answer (exec (.roundTimerExpiry ⟨[], true⟩) base) = .fault := by decide +kernel

/-! ### Formats and levels -/

theorem test_symbol : symbolOf 0x0F = 0b1010001011 ∧ symbolOf 0x80 = 0b1101010100 := by decide +kernel
theorem test_symbols_read_back : (List.range 256).all (fun n => byteOfSymbol (symbolOf (BitVec.ofNat 8 n)) == some (BitVec.ofNat 8 n)) := by
  decide +kernel
theorem test_check_of_nothing : check32 [] = 0xFFFFFFFF ∧ check16 [] = 0xFFFF := by decide
theorem test_check16_divides : check16 ([1, 2, 0xA5] ++ bytesOf 2 (check16 [1, 2, 0xA5])) = 0 := by decide +kernel
theorem test_check32_divides : check32 ([9, 8] ++ bytesOf 4 (check32 [9, 8])) = 0 := by decide +kernel
theorem test_notice_bits :
    (claim.body 7).bits = 0b00_00000111_001010_0000_0000000000000100_00010_0000000 := by decide +kernel
theorem test_header_bits :
    (farBlock 3).header.bits = 0b0101_010100_0001_0000000000000011_0_0_00011_00000111_000000001_0000000000 := by
  decide +kernel
theorem test_pad_bits_ignored : NoticeBody.ofBits ((claim.body 7).bits ||| 0x7F) = claim.body 7
    ∧ BlockHeader.ofBits ((farBlock 3).header.bits ||| 0x3FF) = (farBlock 3).header := by decide +kernel
theorem test_lead_in : leadInValue 3 2 = 0b0110010 ∧ leadInPriority (leadInValue 3 2) = 3 ∧ leadInSender (leadInValue 3 2) = 2 := by
  decide
theorem test_decode_table_word : decodeTableWord 8 0 = none ∧ State.reset.withFetchWord 8 0 = State.reset := by decide +kernel

/-- The levels of a field of bytes, one line element each. -/
def levels (bytes : List Byte) : List LevelRun := (fieldElements bytes).map (fun d => { dominant := d, length := 2 })

theorem test_notice_reads_back : readNotice farClaim.leadIn 40 (levels farClaim.bytes) = farClaim.asRead
    ∧ readNotice farClaim.leadIn 41 (levels farClaim.bytes) = .other := by decide +kernel
theorem test_block_reads_back : readBlock 0 (levels (farBlock 3).bytes) = (farBlock 3).asRead
    ∧ readBlock 0 (levels (resentBlock 31).bytes) = (resentBlock 31).asRead := by decide +kernel
theorem test_odd_level_is_unresolved : readBlock 0 ({ dominant := true, length := 3 } :: levels (farBlock 3).bytes) = .other := by
  decide +kernel
theorem test_mark_levels : (List.range 8).map (fun t => markLevel (100 * t)) = [true, true, true, true, false, true, false, false] := by
  decide
theorem test_answer_levels : answerLevel 49 = true ∧ answerLevel 50 = false := by decide
theorem test_mark_ticks :
    readMark (some [⟨true, 4000⟩, ⟨false, 1000⟩, ⟨true, 1000⟩]) [] = .ticks markPattern
    ∧ readTick 0 [⟨true, 400⟩, ⟨false, 1⟩, ⟨true, 9000⟩] = .violation ∧ readTick 0 [⟨true, 399⟩, ⟨false, 1⟩, ⟨true, 9000⟩] = .dominant
    ∧ readMark none [⟨false, 8000⟩] = .passiveThroughout ∧ readMark none [⟨true, 8000⟩] = .dominantThroughout
    ∧ readMark none [⟨true, 7999⟩, ⟨false, 1⟩] = .dominantThroughout
    ∧ readMark none [⟨true, 7998⟩, ⟨false, 2⟩] = .other := by decide +kernel
theorem test_answer_positions :
    readAnswers [⟨false, 2000⟩, ⟨true, 200⟩, ⟨false, 800⟩, ⟨true, 199⟩, ⟨false, 12801⟩, ⟨true, 500⟩] = { accepts := 4, dissent := true } := by
  decide +kernel

/-! ### Steps -/

/-- Just after field event `k` - 1 or at a reading after it, lane A has been dominant for no time yet. -/
def risen (k r : Nat) : State := atReading r (before k (withLanes { lane with dominant := true, contributing := true } lane base))
/-- The station's own mark, risen five units late, ends passive, and so does the run that began in it (R41). -/
theorem test_mark_close_ends_own_run :
    (after (exec (.markClose mark .passiveThroughout true) (risen 0 5))).map (fun t => (t.lanes.a.run, t.lanes.a.dominant))
      = some (0, false)
    ∧ (after (exec (.markClose (.ticks (List.replicate 8 .dominant)) .other true) (risen 0 5))).map
        (fun t => (t.lanes.a.run, t.lanes.a.dominant)) = some (795, true)
    ∧ (after (exec (.markClose mark .other true) (risen 0 750))).map (fun t => t.lanes.a.run) = some 50 := by decide +kernel
theorem test_closes_end_runs :
    (after (exec (.noticeWindowClose farClaim.asRead .other closeOrder) (risen 1 805))).map (fun t => t.lanes.a.run) = some 0
    ∧ (after (exec (.noticeWindowClose farClaim.asRead .other closeOrder) (risen 1 1600))).map (fun t => t.lanes.a.run) = some 200
    ∧ (after (exec (.answerClose silence silence true) (risen 2 3000))).map (fun t => t.lanes.a.run) = some 0
    ∧ (after (exec (.repairWindowClose .dominantThroughout .other) (before 3 base))).map (fun t => (t.lanes.a.run, t.lanes.a.dominant))
      = some (1400, true)
    ∧ (after (exec (.slotPass 3 (farBlock 41).asRead .other PassStep.all) (risen 7 7450))).map (fun t => t.lanes.a.run)
      = some 0 := by decide +kernel
/-- The adopted mark ends the run of its lane, and the reading of the other lane the run there (R14, R41). -/
theorem test_adoption_ends_runs :
    (after (exec (.openSearchAdoption .a mark true order) (withLanes
        { lane with search := some ⟨900, 0, false⟩, run := 700, dominant := true } { lane with run := 90, dominant := true } base))).map
      (fun t => (t.lanes.a.run, t.lanes.b.run)) = some (0, 0) := by decide +kernel
/-- A roll call at the very end of its answer field, lane A still usable, lane B off. -/
def rollCallAt3500 : State :=
  withLanes lane laneOff (atReading 3500 (before 2 { base with notices := { base.notices with plan := some .rollCall, rollCall := true } }))
/-- The lane that surges as the answer field ends puts the station into DARK, and the answers are heard all the same (R34, R65, R97, R103). -/
theorem test_roll_call_heard_in_dark :
    let t := (after (exec (.longRun .a 3500) rollCallAt3500)).getD State.reset
    t.ctrl.mode = .dark ∧ t.notices.plan = none
    ∧ (after (exec (.answerClose { accepts with accepts := 0x20 } silence true) t)).map
        (fun v => (v.table.heard[5]?, v.table.heard[6]?, v.notices.rollCall)) = some (some 0, some 256, false) := by decide +kernel
/-- Lane A after activity, its run counted before. -/
def afterActivity (run : Nat) (activity : List LevelRun) : Option (Nat × Bool) :=
  (after (exec (.uncleanStretch .a activity) (withLanes { lane with run := run, dominant := decide (0 < run) } lane base))).map
    (fun t => (t.lanes.a.run, t.lanes.a.dominant))
/-- A passive reading of 1 ns leaves the dominant-run timer, one of a line element of 2 ns returns it to 0 (R41). -/
theorem test_passive_reading_ends_run :
    afterActivity 7 [⟨true, 20000⟩, ⟨false, 1⟩, ⟨true, 4999⟩] = some (2500, true)
    ∧ afterActivity 7 [⟨true, 20000⟩, ⟨false, 2⟩, ⟨true, 5000⟩] = some (500, true)
    ∧ afterActivity 3000 [⟨true, 20000⟩, ⟨false, 1⟩] = some (3000, true) := by decide +kernel
/-- A passive reading at the end of the activity ends a run, and a rise begins one that has not counted a unit yet (R41). -/
theorem test_activity_ends_and_begins_run :
    afterActivity 3000 [⟨false, 2⟩] = some (0, false) ∧ afterActivity 0 [⟨false, 300⟩, ⟨true, 8⟩] = some (0, true) := by
  decide +kernel

theorem test_empty_queue_passes_one_unit :
    (after (step base)).map (fun t => (t.clock.timer, t.clock.phase)) = some (851, 1) := by decide +kernel
theorem test_held_station_idles : after (step State.reset) = some State.reset := by decide +kernel
theorem test_time_waits_for_the_close :
    (after (step (atReading 1800 base))).map (fun t => t.clock.timer) = some 1800 := by decide +kernel
theorem test_core_step : after (core.step { base with pending := [.readStation] }) = after (exec .readStation base) := by
  decide +kernel
theorem test_release_starts :
    (after (exec (.resetRelease 0b0110110010 true) State.reset)).map
      (fun t => (t.ctrl.mode, t.station, t.lanes.a.state, t.lanes.b.state, t.ctrl.option.pacing, t.ctrl.option.chatter))
      = some (.starting, 2, .clear, .clear, true, 1) := by decide +kernel
theorem test_open_send_starts_claim :
    (after (exec (.openSend 3 6 0 2) base)).map (fun t => (t.mgmt.reply, t.send.p3.claimRun, t.notices.queue.map (·.tag)))
      = some (some ⟨.started, .none⟩, some ⟨4, 6⟩, [11, 10]) := by decide +kernel
theorem test_open_receive_opens :
    (after (exec (.openReceive 1 20 16 0) base)).map (fun t => (t.mgmt.reply, t.recv.p1.state))
      = some (some ⟨.done, .newState .active⟩, .active) := by decide +kernel
theorem test_close_releases :
    (after (exec (.close 0) base)).map (fun t => (t.mgmt.reply, t.send.p0.state, t.notices.queue.map (·.kind)))
      = some (some ⟨.started, .none⟩, .releasing, [.release, .claim]) := by decide +kernel
theorem test_expiry_drives_mark :
    (after (exec (.roundTimerExpiry order) (before 28 base))).map
      (fun t => (t.clock.round, t.clock.timer, t.clock.closed, t.lanes.a.drive, t.clock.pacing))
      = some (101, 0, 0, .driving, true) := by decide +kernel
theorem test_second_mark_close_counts_nothing :
    after (exec (.markClose mark mark true) base) = some base := by decide +kernel
theorem test_claim_wins :
    (after (exec (.seventhLeadInTick .noticeWindow) contending)).map (fun t => (t.drive.content, t.lanes.a.drive))
      = some (.noticeBody, .driving) := by decide +kernel
theorem test_claim_commits :
    (after (exec (.answerClose accepts accepts true) claimed)).map
      (fun t => (t.send.p2.state, t.send.p2.claimRun, t.table.epoch, useAt t.table.live 4, t.mgmt.events.map (·.event.kind)))
      = some (.live, some ⟨4, 2⟩, 8, .owned 2 10, [5]) := by decide +kernel
theorem test_far_claim_accepted :
    (after (exec (.noticeWindowClose farClaim.asRead .passiveThroughout closeOrder) base)).map (fun t => (t.notices.plan, t.table.heard[5]?))
      = some (some .accept, some 0) := by decide +kernel
theorem test_slot_start_builds_fill :
    (after (exec (.slotStart 0) (before 4 base))).map (fun t => (t.send.p0.ring.map (fun r => (r.seq, r.fill)), t.drive.handed.isSome))
      = some ([(5, true)], true) := by decide +kernel
theorem test_slot_pass_advances :
    (after (exec (.slotPass 0 .other .other PassStep.all) (before 4 (withSend { liveEntry with served := some 0 } base)))).map
      (fun t => t.send.p0.nextSeq) = some 6 := by decide +kernel
theorem test_slot_pass_receives :
    (after (exec (.slotPass 3 (farBlock 42).asRead .other PassStep.all) (before 7 base))).map
      (fun t => (t.recv.p0.stream.map (fun st => st.window.length), t.table.live[3]?.map (fun e => e.lastValid)))
      = some (some 3, some true) := by decide +kernel
theorem test_playout_at_round_start :
    (after (exec (.roundTimerExpiry order) { before 28 base with clock := { (before 28 base).clock with round := 108 } })).map
      (fun t => (t.recv.p0.out, t.mgmt.events.map (·.event.kind))) = some ([.block [7], .lossMarker], [13]) := by decide +kernel
theorem test_repair_fills :
    (after (exec (.repairWindowClose (resent 41).asRead .passiveThroughout) (before 3 base))).map
      (fun t => t.recv.p0.stream.map (fun st => (st.window.map (fun pl => pl.block.isSome), st.gaps.length)))
      = some (some ([true, true], 0)) := by decide +kernel
theorem test_data_byte_completes_block :
    (after (exec (.dataByte .p0 5) (withSend { liveEntry with assembly := some ⟨1, []⟩ } base))).map (fun t => t.send.p0.fifo)
      = some [⟨[5], check32 [5]⟩] := by decide +kernel
theorem test_long_run_surges :
    (after (exec (.longRun .a 900) base)).map (fun t => (t.lanes.a.state, t.lanes.a.cause, t.mgmt.latched.surge))
      = some (.surge, some .long, true) := by decide +kernel
theorem test_both_lanes_surge_to_dark :
    (after (exec (.longRun .b 900) (withLanes surged lane base))).map (fun t => t.ctrl.mode) = some .dark := by decide +kernel
theorem test_mark_of_a_lane_lost_is_erased :
    markCopy { lane with state := .settling, lostAt := some 300 } true mark = .erased ∧ markCopy lane true mark = .valid () := by decide
theorem test_late_lane_reads_no_position :
    mergedAccept ⟨{ lane with contributing := false, state := .settling, usableSince := some 2000 }, laneOff⟩ accepts accepts 9 = false := by
  decide
theorem test_resend_sent_before_its_symbol :
    (after (exec .resendSent { handing (resentBlock 0) with repair := { queue := [⟨8, 4, 3⟩], turn := true } })).map
      (fun t => (t.repair.queue, t.clock.timer)) = some ([], 5130) := by decide +kernel

theorem test_lane_usable_within_the_field_is_not_driven :
    (reach 2000 (withLanes { lane with admitted := false } lane (planning .accept 1999))).lanes.map (fun x => x.drive)
      = ⟨.notDriving, .driving⟩ := by decide +kernel
theorem test_late_mismatch_unsends :
    (after (exec (.echoMismatch .a 1530) (withLanes { lane with drive := .driving, echoDelay := 20 } { lane with drive := .driving }
      { drivingBody with clock := { drivingBody.clock with timer := 1520 } }))).map
        (fun t => (t.notices.flight.map (fun f => f.sent.a), t.lanes.a.drive)) = some (some false, .cut) := by decide +kernel
def drivingMark : State := before 0 (withLanes { lane with drive := .driving } lane { base with drive := { FieldDrive.idle with content := .mark } })
/-- R11, R24: a mark tick never read dominant with an echo delay of 0 is cut by its mismatch at 60, and is late at 61 all the same. -/
theorem test_echo_late_after_mark_mismatch :
    ((after (exec (.echoMismatch .a 60) drivingMark)).bind (fun t => after (exec (.echoLate .a 61) t))).map
      (fun t => (t.lanes.a.state, t.lanes.a.cause, t.lanes.a.echoOwed, t.lanes.a.violations, t.lanes.a.measuring))
      = some (.surge, some .echoLate, true, 1, true) := by decide +kernel
theorem test_gap_no_command_showed :
    (after (exec (.longRun .a 1800) (withLanes { lane with reported := .long, dominant := true, run := 2000 } lane base))).map
      (fun t => (t.lanes.a.run, t.lanes.a.windowHeld)) = some (1200, true) := by decide +kernel

/-! ### States and operands that meet the hypotheses of the statements

One theorem per statement, named after it; its conjuncts meet the hypotheses of the clauses in turn, at the ends of their ranges. -/

/-- A lane with a dominant run of 1199 units. -/
def running1199 : State := withLanes { lane with dominant := true, run := 1199 } laneOff base

theorem witness_TimePassesBetweenCommands : State.reset.pending = [] ∧ State.reset.holding = true ∧ base.pending = []
    ∧ base.holding = false ∧ base.horizon = 1800 ∧ base.clock.timer < 851 ∧ 1800 ≤ base.horizon ∧ base.horizon ≤ 1801
    ∧ 850 ≤ base.clock.timer ∧ (base.lanes.get .a).state ≠ .off ∧ (running1199.lanes.get .b).state = .off
    ∧ (base.lanes.get .a).dominant = false ∧ (running1199.lanes.get .a).dominant = true ∧ ¬ 1200 < 1199 + (851 - 850)
    ∧ 1200 < 1199 + (852 - 850) ∧ 852 ≤ running1199.horizon := by decide +kernel
/-- Lane A became transmit-usable after the field began. -/
def unadmitted : State := withLanes { lane with admitted := false } lane base
theorem witness_MomentsInsideRoundDrive :
    (drivingBody.clock.timer < 1518 ∧ 1518 ≤ drivingBody.horizon ∧ drivingBody.notices.flight.isSome = true
      ∧ drivingBody.drive.content = .noticeBody ∧ base.notices.flight = none)
    ∧ ((planning .accept 1999).clock.timer < 2000 ∧ (planning .accept 1999).notices.plan = some .accept
      ∧ 2000 ≤ (planning .accept 1999).horizon ∧ (planning .dissent 3399).clock.timer < 3400 ∧ 3499 ≤ (planning .dissent 3399).horizon
      ∧ (planning .accept 2000).clock.timer = 2000 ∧ (planning .rollCall 2000).notices.plan = some .rollCall)
    ∧ (3500 ≤ queuedResend.clock.timer ∧ queuedResend.clock.timer < 3600 ∧ 4999 ≤ queuedResend.horizon
      ∧ queuedResend.repair.queue = [⟨8, 4, 3⟩] ∧ queuedResend.ctrl.mode = .joined ∧ queuedResend.lanes.a.transmitUsable = true
      ∧ (before 3 base).repair.queue = [] ∧ (inMode .resync queuedResend).ctrl.mode ≠ .joined)
    ∧ ((handing (ownBlock 5)).drive.handed = some (0, ownBlock 5) ∧ 3600 ≤ (handing (ownBlock 5)).clock.timer
      ∧ (handing (ownBlock 5)).clock.timer < 5100 ∧ 5100 ≤ (handing (ownBlock 5)).horizon ∧ (ownBlock 5).header.resend = false
      ∧ (resentBlock 0).header.resend = true ∧ (handing (resentBlock 0)).repair.turn = false)
    ∧ ((base.lanes.get .a).admitted = true ∧ (base.lanes.get .a).transmitUsable = true
      ∧ (unadmitted.lanes.get .a).admitted = false ∧ (unadmitted.lanes.get .a).transmitUsable = true)
    ∧ (1800 ≤ drivingBody.horizon ∧ (withStation 0 (planning .accept 1999)).notices.plan = some .accept ∧ 5000 ≤ queuedResend.horizon
      ∧ 2100 ≤ (planning .accept 1999).horizon)
    ∧ (base.notices.plan = none ∧ base.drive.handed = none ∧ 851 < 1518) := by decide +kernel
theorem witness_FieldEventsOccurInOrder : base.holding = false ∧ (before 0 base).due 0 = true ∧ base.due 0 = false
    ∧ base.due 1 = true ∧ closeOrder.admissible = true ∧ (before 2 base).due 2 = true ∧ (before 3 base).due 3 = true
    ∧ (before 4 base).due 4 = true ∧ (before 27 base).due 27 = true ∧ passAdmissible PassStep.all = true ∧ order.admissible = true
    ∧ (before 27 base).due 28 = false ∧ ¬ ((atReading 5001 (before 4 base)).clock.closed = 4
      ∧ (atReading 5001 (before 4 base)).clock.timer = 5000) ∧ (atReading 1501 base).reaches 1500 = false
    ∧ (atReading 4301 (before 3 base)).reaches 4300 = false ∧ base.reaches 849 = false ∧ base.reaches 850 = true
    ∧ base.reaches 1800 = true ∧ base.reaches 1801 = false := by decide +kernel
theorem witness_CommandsCompleteWhenTaken : (Instr.readLanes).wellFormed = true ∧ (Instr.unknownRequestKind 11).wellFormed = false
    ∧ State.reset.holding = true ∧ (Instr.markClose .other .other true).wellFormed = true
    ∧ (Instr.markClose .other .other true).actsInReset = false ∧ base.holding = false
    ∧ (reply .done .none base).mgmt.reply ≠ none ∧ (Instr.readLanes).isRequest = true ∧ base.TakesRequests
    ∧ (0 : Byte).toNat = 0 ∧ 11 < (12 : Byte).toNat := by unfold State.TakesRequests; decide +kernel
theorem witness_OpenSendTestedInOrder : base.TakesRequests ∧ (inMode .resync base).ctrl.mode ≠ .joined ∧ base.ctrl.mode = .joined
    ∧ ¬ ((4 : Byte).toNat ≤ 3) ∧ ¬ ((13 : Byte).toNat ≤ 12) ∧ portOf 3 = some .p3 ∧ retClassOf 3 = some .r1024
    ∧ (base.send.get .p0).state ≠ .closed ∧ (base.send.get .p0).state ≠ .held ∧ (base.send.get .p3).state = .closed
    ∧ (base.send.get .p1).state = .held ∧ base.reserved + RetClass.r1024.size ≤ 4096
    ∧ 4096 < ({ base with recv := { base.recv with
        p1 := { RecvEntry.reset with stream := some { stream with cls := .w2048 } }
        p2 := { RecvEntry.reset with stream := some { stream with cls := .w1024 } } } } : State).reserved + RetClass.r1024.size
    ∧ (∀ f : Fin 24, f.val + 7 ≤ 24 → runOpen base.table.live ⟨f.val, 7⟩ = false) ∧ runOpen base.table.live ⟨4, 6⟩ = true
    ∧ 8 ≤ (withQueue fullQueue base).notices.queue.length ∧ base.tagOf .p3 = 11 := by unfold State.TakesRequests; decide +kernel
theorem witness_OpenSendTakesEntry : base.TakesRequests ∧ base.ctrl.mode = .joined ∧ portOf 3 = some .p3 ∧ retClassOf 0 = some .r128
    ∧ 1 ≤ (6 : Byte).toNat ∧ (12 : Byte).toNat ≤ 12 ∧ 2 ≤ (2 : Byte).toNat ∧ (5 : Byte).toNat ≤ 5
    ∧ base.reserved + RetClass.r128.size ≤ 4096 ∧ (base.send.get .p3).state = .closed ∧ 4 + 6 ≤ 24
    ∧ runOpen base.table.live ⟨4, 6⟩ = true ∧ (∀ f : Fin 24, f < 4 → runOpen base.table.live ⟨f.val, 6⟩ = false)
    ∧ (∀ q ∈ base.notices.queue, q.kind = .claim → q.tag ≠ base.tagOf .p3) ∧ base.notices.queue.length < 8
    ∧ (base.send.get .p1).slotRun = some ⟨2, 1⟩ ∧ (base.send.get .p1).state = .held := by unfold State.TakesRequests; decide +kernel
theorem witness_OpenReceiveTestedAndOpened : base.TakesRequests ∧ (inMode .resync base).ctrl.mode ≠ .joined ∧ base.ctrl.mode = .joined
    ∧ (8 : Byte).toNat / 4 = base.ctrl.option.station.toNat ∧ ¬ (16 ≤ (15 : BitVec 16).toNat) ∧ portOf 1 = some .p1
    ∧ winClassOf 0 = some .w256 ∧ (base.recv.get .p0).stream ≠ none ∧ (base.recv.get .p1).stream = none
    ∧ (base.table.live.filter (fun e => e.use.hasTag 24)).length = 0 ∧ WinClass.w256.size < (21 + 1) * 12 ∧ (20 + 1) * 12 ≤ WinClass.w256.size
    ∧ (base.table.live.filter (fun e => e.use.hasTag 20)).length = 1 ∧ base.reserved + WinClass.w256.size ≤ 4096
    ∧ 4096 < ({ base with recv := { base.recv with
        p2 := { RecvEntry.reset with stream := some { stream with cls := .w2048 } } } } : State).reserved + WinClass.w2048.size := by
  unfold State.TakesRequests; decide +kernel
theorem witness_CloseEndsEntry : base.TakesRequests ∧ 7 < (8 : Byte).toNat ∧ entryOf 4 = some (.recv .p0) ∧ entryOf 7 = some (.recv .p3)
    ∧ (base.recv.get .p3).stream = none ∧ (base.recv.get .p0).stream ≠ none ∧ entryOf 0 = some (.send .p0)
    ∧ (base.send.get .p3).state = .closed ∧ ((withSend releasingEntry base).send.get .p0).state = .releasing
    ∧ (base.send.get .p2).state = .claiming ∧ (∀ q ∈ base.notices.queue, q.inFlight = false)
    ∧ (contending.send.get .p2).state = .claiming ∧ (∃ q ∈ contending.notices.queue, q.kind = .claim ∧ q.origin = .send .p2 ∧ q.inFlight = true)
    ∧ (base.send.get .p0).state = .live ∧ (base.send.get .p1).state = .held ∧ (base.send.get .p0).slotRun = some ⟨0, 2⟩
    ∧ ((withSend { liveEntry with slotRun := none } base).send.get .p0).slotRun = none
    ∧ ownRelease ∈ (withQueue [ownRelease] base).notices.queue ∧ 8 ≤ (withQueue fullQueue base).notices.queue.length
    ∧ base.notices.queue.length < 8 ∧ (∀ x ∈ base.notices.queue, x.kind ≠ .release) := by unfold State.TakesRequests; decide +kernel
theorem witness_ReadRequestsReportState : base.TakesRequests ∧ base.table.live[(23 : Byte).toNat]? = some (SlotEntry.fresh .unknown)
    ∧ base.table.live.length ≤ (24 : Byte).toNat ∧ entryOf 3 = some (.send .p3) ∧ entryOf 4 = some (.recv .p0)
    ∧ 7 < (8 : Byte).toNat := by unfold State.TakesRequests; decide +kernel
theorem witness_EventAndAlertRequestsServed : base.TakesRequests ∧ 1 ≤ (1 : Byte).toNat ∧ (8 : Byte).toNat ≤ 8 ∧ (0 : Byte).toNat = 0
    ∧ 8 < (9 : Byte).toNat := by unfold State.TakesRequests; decide +kernel
theorem witness_HoldLaneSetsHold : resending.TakesRequests ∧ 1 < (2 : Byte).toNat ∧ laneOf 0 = some .a ∧ laneOf 1 = some .b
    ∧ (0 : Byte).toNat = 0 ∧ (1 : Byte).toNat = 1 ∧ base.repair.turn = false ∧ resending.repair.turn = true
    ∧ resending.lanes.b.transmitUsable = true ∧ ({ lane with hold := true } : Lane).transmitUsable = false
    ∧ surged.transmitUsable = false := by unfold State.TakesRequests; decide +kernel
theorem witness_GivenEventsDriveAlertLine : State.reset.holding = true := by decide
theorem witness_ResetsReleaseAndSupply : base.hold.supply = false
    ∧ (after (exec .supplyReset base)).map (fun t => t.hold.supply) = some true ∧ base.holding = false ∧ base.ctrl.supply = .ok
    ∧ State.reset.holding = true ∧ ({ base with ctrl := { base.ctrl with supply := .warn } } : State).ctrl.supply = .warn
    ∧ base.hold.backupLow = false ∧ (after (exec .backupSupplyLow base)).map (fun t => (t.hold.backupLow, t.holding)) = some (true, false) := by
  decide +kernel
/-- Whether the retained context of the sample station is valid after commands. -/
def validAfter (cs : List Instr) : Option Bool :=
  (cs.foldl (fun s c => s.bind (fun s => after (exec c s)))
    (some { base with ctrl := { base.ctrl with context := { base.ctrl.context with valid := true, station := 2 } } })).map
    (fun t => t.ctrl.context.valid)
theorem test_backup_supply_fell_first_or_second : validAfter [.supplyReset] = some true
    ∧ validAfter [.backupSupplyLow] = some true ∧ validAfter [.backupSupplyLow, .supplyReset] = some false
    ∧ validAfter [.supplyReset, .backupSupplyLow] = some false := by decide +kernel
theorem witness_BlockPortsTakeAndGive : base.holding = false ∧ base.ready .p1 = false ∧ base.ready .p0 = true ∧ 256 < 257 ∧ 256 ≤ 256
    ∧ (base.send.get .p0).assembly = none ∧ ((withSend { liveEntry with assembly := some ⟨4, []⟩ } base).send.get .p0).assembly ≠ none
    ∧ (withSend { liveEntry with assembly := some ⟨4, []⟩ } base).ready .p0 = true
    ∧ ¬ ((base.send.get .p1).state = .claiming ∨ (base.send.get .p1).state = .live) ∧ (base.send.get .p0).state = .live
    ∧ (base.send.get .p0).overrun = false ∧ ((withSend { liveEntry with overrun := true } base).send.get .p0).overrun = true
    ∧ [(1 : Byte)].length + 1 < 3 ∧ 2 ≤ [(1 : Byte)].length + 1 := by decide +kernel
theorem witness_RoundStartsAtExpiryOrEdge : base.holding = false ∧ order.admissible = true ∧ (before 28 base).due 28 = true
    ∧ (before 28 base).ctrl.mode ≠ .starting ∧ ((before 28 base).lanes.get .a).receiveUsable = true
    ∧ (before 28 base).reaches 24800 = true ∧ (before 28 base).reaches 24999 = true ∧ ¬ (24800 ≤ 24799) ∧ ¬ (25000 ≤ 24999) := by
  decide +kernel
theorem witness_LateWindowRealignsTimer : inLateWindow.holding = false ∧ inLateWindow.clock.lateWindow = true
    ∧ inLateWindow.ctrl.mode ≠ .starting ∧ (inLateWindow.lanes.get .a).receiveUsable = true
    ∧ 272 ≤ 200 + 36 * inLateWindow.ctrl.option.station.toNat ∧ inLateWindow.reaches 0 = true ∧ inLateWindow.reaches 272 = true
    ∧ ¬ (273 ≤ 200 + 36 * inLateWindow.ctrl.option.station.toNat) ∧ base.clock.lateWindow = false
    ∧ inLateWindow.ctrl.option.pacing = true ∧ inLateWindow.lanes.a.drivable = true
    ∧ (inMode .listening inLateWindow).ctrl.mode ≠ .joined := by decide +kernel
/-- Readings open on both lanes, lane B in SETTLING and entered into it after its own mark field began. -/
def bothSearching : State :=
  before 0 (withLanes { lane with search := some ⟨24700, 300, true⟩ }
    { lane with state := .settling, contributing := false, marks := 3, search := some ⟨24800, 200, true⟩ } base)
theorem witness_OpenSearchReadsAndAdopts : inLateWindow.holding = false ∧ order.admissible = true ∧ inLateWindow.clock.validCount = 0
    ∧ (inLateWindow.lanes.get .a).receiveUsable = true ∧ inLateWindow.reaches 273 = true ∧ (inLateWindow.lanes.get .a).search = none
    ∧ ¬ (273 ≤ 200 + 36 * inLateWindow.ctrl.option.station.toNat) ∧ ¬ (800 ≤ 799)
    ∧ ((searching ⟨900, 0, false⟩).lanes.get .a).search = some ⟨900, 0, false⟩ ∧ (searching ⟨900, 0, false⟩).reaches 1700 = true
    ∧ (searching ⟨24700, 300, true⟩).reaches 500 = false
    ∧ (searching ⟨900, 0, false⟩).reaches 1701 = true ∧ ((reach 1701 (searching ⟨900, 0, false⟩)).lanes.get .a).search = none
    ∧ ((reach 1700 (searching ⟨900, 0, false⟩)).lanes.get .a).search ≠ none
    ∧ (before 0 (searching ⟨24700, 300, true⟩)).reaches 500 = true
    ∧ bothSearching.reaches 500 = true ∧ (bothSearching.lanes.get .a).search = some ⟨24700, 300, true⟩
    ∧ ((reach 500 bothSearching).lanes.get .b).search ≠ none ∧ ((reach 500 bothSearching).lanes.get .b).state = .settling
    ∧ ((reach 500 bothSearching).lanes.get .b).marks = 3 ∧ ((reach 500 bothSearching).lanes.get .b).echoOwed = false := by decide +kernel
/-- The reading on lane A after a second edge there, the first at 900. -/
def afterSecondEdge (reading : Nat) : Option (Option Search) :=
  let s := searching ⟨900, 0, false⟩
  (after (exec (.openSearchEdge .a reading 800) { s with clock := { s.clock with validCount := 0 } })).map (fun t => t.lanes.a.search)
theorem test_open_search_edge_after_ended_reading : afterSecondEdge 1701 = some (some ⟨1701, 0, false⟩)
    ∧ afterSecondEdge 1700 = some (some ⟨900, 0, false⟩) := by decide +kernel
def marked (count : Nat) (s : State) : State := { before 0 s with clock := { (before 0 s).clock with edgeTaken := true, validCount := count } }
def settling (marks quiet : Nat) (owed : Bool) : State :=
  marked 5 (withLanes { lane with state := .settling, marks := marks, quiet := quiet, echoOwed := owed } lane base)
/-- The state of a lane and its count of valid marks. -/
structure LaneSummary where
  state : LaneState
  marks : Nat
deriving DecidableEq, Repr
/-- Lane A after a command. -/
def laneA (s : State) (c : Instr) : Option LaneSummary := (after (exec c s)).map (fun t => ⟨t.lanes.a.state, t.lanes.a.marks⟩)
theorem witness_MarkCloseCountsMarks : (markCopy lane true mark).isValid = true ∧ (before 0 base).holding = false
    ∧ (before 0 base).due 0 = true ∧ base.ctrl.mode ≠ .listening ∧ listening.ctrl.mode = .listening
    ∧ (marked 2 listening).due 0 = true ∧ (marked 3 listening).due 0 = true ∧ listening.ctrl.lockTaken = some false
    ∧ (after (exec (.markClose mark mark true) (marked 2 listening))).map (fun t => (t.clock.validCount, t.ctrl.lockTaken))
      = some (3, some false)
    ∧ (after (exec (.markClose mark mark true) (marked 3 listening))).map (fun t => (t.clock.validCount, t.ctrl.lockTaken))
      = some (4, some true)
    ∧ (∀ l : Fin 2, ((atEvent 0 (settling 4 32 true)).lanes.get (if l = 0 then .a else .b)).marks ≤ 4)
    ∧ laneA (settling 2 31 false) (.markClose mark mark true) = some ⟨.settling, 3⟩
    ∧ laneA (settling 3 31 false) (.markClose mark mark true) = some ⟨.clear, 0⟩
    ∧ laneA (settling 3 31 false) (.markClose .passiveThroughout mark true) = some ⟨.settling, 0⟩
    ∧ laneA (settling 0 32 false) (.markClose .other mark true) = some ⟨.clear, 0⟩
    ∧ laneA (settling 4 32 true) (.markClose .other mark true) = some ⟨.settling, 4⟩
    ∧ laneA (marked 5 base) (.markClose mark mark true) = some ⟨.clear, 0⟩ := by decide +kernel
theorem witness_LeadInOutcome : base.holding = false ∧ base.reaches 1500 = true ∧ (reach 1500 base).notices.flight = none
    ∧ (reach 1500 contending).notices.flight ≠ none ∧ (reach 1500 contending).drive.content = .leadIn .noticeWindow
    ∧ (reach 1500 contending).lanes.a.drive = .contending ∧ contending.notices.queue.find? (fun x => x.inFlight) = some { claim with inFlight := true }
    ∧ (reach 1500 (withdrawAll contending)).lanes.a.drive ≠ .contending ∧ (reach 1500 (withdrawAll contending)).lanes.b.drive ≠ .contending
    ∧ (contendingWith { claim with withdrawn := true }).notices.queue.map (fun q => (q.inFlight, q.withdrawn)) = [(true, true)]
    ∧ claim.kind = .claim ∧ claim.origin = .send .p2 ∧ ({ claimingEntry with state := .releasing } : SendEntry).state = .releasing
    ∧ claimingEntry.state ≠ .releasing ∧ ask.kind ≠ .claim
    ∧ (before 3 base).reaches 4300 = true ∧ (reach 4300 (before 3 base)).drive.content ≠ .leadIn .repairWindow
    ∧ repairing.reaches 4300 = true ∧ (reach 4300 repairing).drive.content = .leadIn .repairWindow
    ∧ (reach 4300 repairing).lanes.a.drive = .contending ∧ (reach 4300 (withdrawAll repairing)).lanes.a.drive ≠ .contending
    ∧ (repairing.send.get (portOfNumber 8)).ring.find? (fun x => x.seq == 4) = some kept := by decide +kernel
theorem witness_LeadInReadBackWithdraws : contending.holding = false ∧ (atReading 861 contending).reaches 860 = false
    ∧ contending.reaches 860 = true ∧ (reach 860 base).drive.content ≠ .leadIn .noticeWindow
    ∧ (reach 860 contending).drive.content = .leadIn .noticeWindow ∧ ((reach 860 contending).lanes.get .a).drive = .contending
    ∧ (reach 860 contending).drive.leadIn = some (leadInValue 3 2) ∧ (leadInValue 3 2).getLsbD (6 - 0) = false
    ∧ (leadInValue 3 2).getLsbD (6 - 1) = true ∧ contending.ctrl.option.policy = .fault
    ∧ ((reach 860 contending).lanes.get .a).state = .clear ∧ contending.reaches 1460 = true
    ∧ (after (exec (.driveFault .noticeWindow 0 .a) contending)).map
        (fun t => (t.lanes.a.state, t.lanes.a.violations, t.lanes.a.drive, t.lanes.b.state, t.lanes.b.drive))
      = some (.surge, 1, .withdrawn, .clear, .withdrawn) := by decide +kernel
def answeringAt (r : Nat) : State :=
  withLanes { lane with drive := .driving } lane { planning .accept r with drive := { FieldDrive.idle with content := .accept } }
theorem witness_EchoMismatchCutsDrive : drivingBody.holding = false ∧ drivingBody.reaches 1518 = true
    ∧ ((reach 1518 drivingBody).lanes.get .a).drive = .driving ∧ (reach 1518 drivingBody).drive.content = .noticeBody
    ∧ ((reach 4330 resending).lanes.get .a).drive = .driving ∧ (reach 4330 resending).drive.content = .block (resentBlock 31)
    ∧ ((reach 560 drivingMark).lanes.get .a).drive = .driving ∧ (reach 560 drivingMark).drive.content = .mark
    ∧ ((reach 2040 (answeringAt 2000)).lanes.get .a).drive = .driving ∧ (reach 2040 (answeringAt 2000)).drive.content = .accept
    ∧ ((reach 1500 base).lanes.get .a).drive ≠ .driving ∧ (reach 1519 drivingBody).clock.timer = 1519 := by decide +kernel
def lateLane : State := withLanes { surged with drive := .cut, cutAt := some 850 } lane contending
def cutMark : State := withLanes { lane with drive := .cut, cutAt := some 45, markSpoiled := true, violations := 1 } lane (atReading 45 drivingMark)
def owing : State := withLanes { lane with state := .settling, drive := .contending, marks := 4, echoOwed := true } lane contending
theorem witness_EchoDelayMeasured : contending.holding = false ∧ contending.reaches 860 = true ∧ contending.reaches 861 = true
    ∧ (60 : BitVec 8).toNat ≤ 60 ∧ 60 < (61 : BitVec 8).toNat ∧ (reach 860 contending).measures .a 60 860 = true
    ∧ (reach 860 contending).measures .a 59 860 = false ∧ ((reach 860 contending).lanes.get .a).state ≠ .settling
    ∧ (reach 860 owing).measures .a 60 860 = true ∧ ((reach 860 owing).lanes.get .a).state = .settling
    ∧ (reach 861 contending).measures .a 61 861 = true ∧ ((reach 861 contending).lanes.get .a).state ≠ .surge
    ∧ (reach 861 lateLane).measures .a 61 861 = true ∧ ((reach 861 lateLane).lanes.get .a).state = .surge
    ∧ (reach 861 base).measures .a 61 861 = false ∧ (reach 61 cutMark).measures .a 61 61 = true ∧ ((reach 61 cutMark).lanes.get .a).drive = .cut
    ∧ (reach 50 cutMark).measures .a 50 50 = true ∧ cutMark.reaches 61 = true
    ∧ (after (exec (.echoLate .a 861) contending)).map (fun t => (t.lanes.a.state, t.lanes.a.cause, t.lanes.a.violations, t.lanes.a.drive))
      = some (.surge, some .echoLate, 1, .cut) := by decide +kernel
theorem witness_NoticeOfAnotherStationJudged : base.holding = false ∧ closeOrder.admissible = true ∧ base.due 1 = true
    ∧ base.ctrl.mode = .joined ∧ base.notices.flight = none ∧ (∀ q ∈ base.notices.queue, q.inFlight = false)
    ∧ (atEvent 1 base).mergedNotice farClaim.asRead .passiveThroughout = .valid (notice farClaim)
    ∧ leadInSender farClaim.leadIn ≠ base.ctrl.option.station ∧ farClaim.body.kind ≠ .repairAsk
    ∧ serialAhead base.table.epoch farClaim.body.epoch = false := by decide +kernel
def ringed : State := withSend { liveEntry with ring := [kept] } base
theorem witness_RepairAskServedByOwner : base.holding = false ∧ closeOrder.admissible = true ∧ base.due 1 = true ∧ base.ctrl.mode = .joined
    ∧ base.notices.flight = none ∧ (∀ q ∈ base.notices.queue, q.inFlight = false)
    ∧ (atEvent 1 base).mergedNotice (farAsk 4 16).asRead .passiveThroughout = .valid (notice (farAsk 4 16))
    ∧ leadInSender (farAsk 4 16).leadIn ≠ base.ctrl.option.station ∧ (farAsk 4 16).body.kind = .repairAsk
    ∧ ¬ ((17 : BitVec 5).toNat ≤ 16) ∧ leadInPriority (farAsk 4 16).leadIn = 6 ∧ (16 : BitVec 5).toNat ≤ 16
    ∧ tagStation 8 = base.ctrl.option.station ∧ (farAsk 4 16).body.epoch = base.table.epoch
    ∧ ((withSend heldEntry base).send.get .p0).state = .held ∧ (ringed.send.get (portOfNumber 8)).state = .live
    ∧ (ringed.send.get .p0).ring.any (fun r => r.seq == 4) = true ∧ (ringed.send.get .p0).ring.any (fun r => r.seq == 5) = false
    ∧ ringed.repair.queue = [] ∧ 64 - (List.replicate 64 (⟨8, 9, 3⟩ : Resend)).length < 1 := by decide +kernel
def aheadClaim : Flight := farNotice 5 { claim with tag := 21 } 8
def sentClaim : State := before 1 (sentNotice claim)
def wonUnsent (withdrawn : Bool) : State :=
  let s := sentNotice { claim with withdrawn := withdrawn }
  { s with notices := { s.notices with flight := s.notices.flight.map (fun f => { f with sent := ⟨false, false⟩ }) } }
theorem witness_OtherNoticeWindowsAnswered : base.holding = false ∧ closeOrder.admissible = true ∧ base.due 1 = true
    ∧ (atEvent 1 base).mergedNotice .passiveThroughout .passiveThroughout = .idle ∧ (atEvent 1 base).notices.flight = none
    ∧ (∀ q ∈ (atEvent 1 base).notices.queue, q.inFlight = false) ∧ base.ctrl.mode = .joined
    ∧ (atEvent 1 base).mergedNotice aheadClaim.asRead .passiveThroughout = .valid (notice aheadClaim)
    ∧ serialAhead base.table.epoch aheadClaim.body.epoch = true ∧ leadInSender aheadClaim.leadIn ≠ base.ctrl.option.station
    ∧ sentClaim.due 1 = true ∧ ((atEvent 1 sentClaim).notices.flight.map (fun f => f.sent.a)) = some true
    ∧ (atEvent 1 sentClaim).mergedNotice .other .other = .erased
    ∧ (atEvent 1 sentClaim).mergedNotice farClaim.asRead .other = .valid (notice farClaim)
    ∧ (atEvent 1 base).mergedNotice farClaim.asRead (farAsk 4 1).asRead = .divergent (notice farClaim) (notice (farAsk 4 1))
    ∧ (atEvent 1 base).mergedNotice .other .passiveThroughout = .erased
    ∧ (inMode .resync base).due 1 = true ∧ (inMode .resync base).ctrl.mode ≠ .joined
    ∧ (atEvent 1 (inMode .resync sentClaim)).mergedNotice (farNotice 2 claim 7).asRead .other = .valid (notice (farNotice 2 claim 7))
    ∧ (sentClaim.notices.flight.map (fun f => (⟨f.leadIn, f.body⟩ : Notice))) = some (notice (farNotice 2 claim 7))
    ∧ (atEvent 1 sentClaim).mergedNotice (farNotice 2 claim 7).asRead farClaim.asRead
      = .divergent (notice (farNotice 2 claim 7)) (notice farClaim)
    ∧ (wonUnsent false).due 1 = true ∧ (atEvent 1 (wonUnsent false)).notices.flight.map (fun f => (f.sent.a, f.sent.b)) = some (false, false)
    ∧ ((atEvent 1 (wonUnsent false)).notices.queue.find? (fun x => x.inFlight)).map (fun q => q.withdrawn) = some false
    ∧ ((atEvent 1 (wonUnsent true)).notices.queue.find? (fun x => x.inFlight)).map (fun q => q.withdrawn) = some true := by decide +kernel
theorem witness_AnswerCloseCommitsOrDiscards : answering.holding = false ∧ answering.due 2 = true
    ∧ answering.notices.tentative = some { kind := .release, run := ⟨3, 1⟩, owner := 5, tag := 20 } ∧ answering.notices.flight = none
    ∧ (∀ q ∈ answering.notices.queue, q.inFlight = false) ∧ answering.ctrl.mode = .joined
    ∧ (mergeAnswers (atEvent 2 answering).lanes accepts silence).read = true
    ∧ (mergeAnswers (atEvent 2 answering).lanes accepts silence).dissent = false
    ∧ (mergeAnswers (atEvent 2 answering).lanes accepts dissents).dissent = true
    ∧ (deaf answering).due 2 = true ∧ (mergeAnswers (atEvent 2 (deaf answering)).lanes accepts accepts).read = false
    ∧ rollCallAt3500.holding = false ∧ rollCallAt3500.due 2 = true ∧ rollCallAt3500.notices.tentative = none
    ∧ rollCallAt3500.notices.flight = none ∧ rollCallAt3500.notices.rollCall = true
    ∧ (mergeAnswers (atEvent 2 rollCallAt3500).lanes accepts silence).read = true ∧ rollCallAt3500.notices.sentNotice = false
    ∧ (∀ q ∈ rollCallAt3500.notices.queue, q.inFlight = false) := by decide +kernel
/-- The sample station when slot 0 was released and the stream of port 0 is no longer listed; when its run is listed again. -/
def lostRun : State := withUse 0 .openSlot (withUse 3 .openSlot (withQueue [ask] base))
def waiting : State := withStream { stream with active := false } base
theorem witness_TableChangeChecksEntries : liveEntry.slotRun.or liveEntry.claimRun = some ⟨0, 2⟩ ∧ claimingEntry.state = .claiming
    ∧ runOwned base.table.live ⟨0, 2⟩ 2 (base.tagOf .p0) = true ∧ runOwned lostRun.table.live ⟨0, 2⟩ 2 (lostRun.tagOf .p0) = false
    ∧ ((withSend releasingEntry lostRun).send.get .p0).state = .releasing ∧ (base.recv.get .p1).stream = none
    ∧ (base.recv.get .p0).stream = some stream ∧ stream.active = true ∧ useAt base.table.live 3 = .owned 5 stream.tag
    ∧ (∀ n : Fin 24, (useAt lostRun.table.live n.val).hasTag stream.tag = false)
    ∧ (waiting.recv.get .p0).stream.map (fun x => x.active) = some false
    ∧ (checkSend .p0 lostRun).mgmt.events.map (·.event.kind) = [8] ∧ (checkRecv .p0 lostRun).notices.queue = []
    ∧ (checkRecv .p0 waiting).mgmt.events.map (·.event)
      = [.receiveActive .p0 20 ⟨3, 1⟩] := by decide +kernel
theorem witness_OwnClaimCommitsOrRejoins : claimed.holding = false ∧ claimed.due 2 = true
    ∧ (atEvent 2 claimed).notices.tentative = some { kind := .claim, run := ⟨4, 2⟩, owner := 2, tag := 10 }
    ∧ (atEvent 2 claimed).notices.flight = some { leadIn := leadInValue 3 2, body := claim.body 7, sent := ⟨true, true⟩ }
    ∧ (atEvent 2 claimed).notices.queue.find? (fun x => x.inFlight) = some { claim with inFlight := true, lastSent := some ⟨4, 2⟩ }
    ∧ claim.tag = claimed.tagOf .p2 ∧ (claimed.send.get .p2).state = .claiming ∧ 4 + 2 ≤ claimed.table.live.length
    ∧ (mergeAnswers (atEvent 2 claimed).lanes accepts silence).read = true
    ∧ (mergeAnswers (atEvent 2 claimed).lanes accepts silence).dissent = false
    ∧ (mergeAnswers (atEvent 2 claimed).lanes accepts dissents).dissent = true ∧ claim.attempt < 3
    ∧ (sentAt 2 { claim with attempt := 3 } (some .accept) (ownChange claim)).notices.queue.map (fun q => q.attempt) = [3]
    ∧ (sentAt 2 claim (some .dissent) none).due 2 = true ∧ (atEvent 2 (sentAt 2 claim (some .dissent) none)).notices.tentative = none
    ∧ (atEvent 2 (sentAt 2 claim (some .dissent) none)).notices.queue.map (fun q => (q.inFlight, q.attempt)) = [(true, 1)] := by
  decide +kernel
def released (attempt : Nat) : State := withSend releasingEntry (sentAt 2 { ownRelease with attempt := attempt } (some .accept) (ownChange ownRelease))
def withdrawnClaim : State :=
  withSend releasingEntry (sentAt 2 { claim with origin := .send .p0, withdrawn := true } (some .accept) (ownChange claim))
def reclaimed : State := sentAt 2 reclaim (some .accept) (ownChange reclaim)
def asked : State := sentAt 2 ask none none
/-- R159: the outcome of an ask reaches its entry in JOINED and not in RESYNC; it leaves the queue in both (log 64). -/
theorem test_ask_outcome_in_joined_only :
    let asks := fun (m : Mode) => (after (exec (.answerClose accepts silence true) (inMode m asked))).map
      (fun t => (t.notices.queue, t.recv.p0.stream.map (fun x => x.gaps.map (fun r => r.asksUsed))))
    let stands := asked.recv.p0.stream.map (fun x => x.gaps.map (fun r => r.asksUsed))
    asks .resync = some ([], stands) ∧ asks .joined = some ([], some [1]) ∧ stands = some [0] := by decide +kernel
def orphaned : State := let q := releaseNotice .controller 9 ⟨2, 1⟩; sentAt 2 q (some .accept) (ownChange q)
theorem witness_OwnNoticesAtAnswerClose : (released 1).holding = false ∧ (released 1).due 2 = true
    ∧ (atEvent 2 (released 1)).notices.flight.map (fun f => f.sent.a) = some true
    ∧ ((atEvent 2 (released 1)).notices.queue.find? (fun x => x.inFlight)).map (fun q => (q.kind, q.origin, q.withdrawn, q.attempt))
      = some (.release, .send .p0, false, 1)
    ∧ ((released 1).send.get .p0).state = .releasing ∧ (atEvent 2 (released 1)).notices.tentative.isSome = true
    ∧ (mergeAnswers (atEvent 2 (released 1)).lanes accepts silence).read = true
    ∧ (mergeAnswers (atEvent 2 (released 1)).lanes accepts silence).dissent = false
    ∧ (mergeAnswers (atEvent 2 (released 1)).lanes accepts dissents).dissent = true
    ∧ (released 2).notices.queue.map (fun q => q.attempt) = [2] ∧ (released 3).notices.queue.map (fun q => q.attempt) = [3]
    ∧ reclaimed.due 2 = true ∧ reclaimed.notices.queue.map (fun q => (q.kind, q.withdrawn)) = [(.reclaim, false)]
    ∧ withdrawnClaim.notices.queue.map (fun q => (q.kind, q.origin, q.withdrawn)) = [(.claim, .send .p0, true)]
    ∧ (withdrawnClaim.send.get .p0).state = .releasing ∧ asked.due 2 = true
    ∧ orphaned.due 2 = true ∧ orphaned.notices.queue.map (fun q => (q.kind, q.origin)) = [(.release, .controller)]
    ∧ (after (exec (.answerClose accepts silence true) (released 1))).map (fun t => t.mgmt.events.map (·.event.kind)) = some [7]
    ∧ (after (exec (.answerClose accepts silence true) reclaimed)).map (fun t => (t.notices.queue, useAt t.table.live 3))
      = some ([], .openSlot)
    ∧ asked.ctrl.mode = .joined ∧ (inMode .resync asked).ctrl.mode ≠ .joined ∧ (inMode .resync asked).due 2 = true
    ∧ asked.notices.queue.map (fun q => (q.kind, q.origin)) = [(.repairAsk, .recv .p0)] ∧ (atEvent 2 asked).notices.tentative = none
    ∧ (mergeAnswers (atEvent 2 asked).lanes accepts silence).accepts.getLsbD 5 = true
    ∧ (mergeAnswers (atEvent 2 asked).lanes dissents silence).accepts.getLsbD 5 = false
    ∧ (mergeAnswers (atEvent 2 asked).lanes dissents silence).dissent = true := by decide +kernel
theorem witness_UnreadAnswersAreLost : (deaf claimed).holding = false ∧ (deaf claimed).due 2 = true
    ∧ (mergeAnswers (atEvent 2 (deaf claimed)).lanes accepts silence).read = false ∧ (atEvent 2 (deaf claimed)).notices.sentNotice = true
    ∧ (deaf claimed).ctrl.mode = .joined ∧ (inMode .resync (deaf claimed)).ctrl.mode ≠ .joined
    ∧ ((atEvent 2 (deaf claimed)).notices.queue.find? (fun x => x.inFlight)).map (fun q => q.kind) = some .claim
    ∧ (deaf (released 1)).notices.queue.map (fun q => (q.inFlight, q.kind)) = [(true, .release)]
    ∧ (deaf asked).notices.queue.map (fun q => (q.inFlight, q.kind)) = [(true, .repairAsk)]
    ∧ base.clock.closed ≠ 2 ∧ base.notices.sentNotice = false ∧ base.notices.flight = none
    ∧ claimed.clock.closed = 2 ∧ claimed.notices.sentNotice = true ∧ claimed.ctrl.mode = .joined
    ∧ claimed.notices.flight.map (fun f => (f.sent.a, f.sent.b)) = some (true, true)
    ∧ contending.notices.queue.map (fun q => (q.inFlight, q.withdrawn, q.kind)) = [(true, false, .claim)]
    ∧ contending.notices.flight.map (fun f => (f.sent.a, f.sent.b)) = some (false, false)
    ∧ (contendingWith { claim with withdrawn := true }).notices.queue.map (fun q => (q.inFlight, q.withdrawn)) = [(true, true)] := by
  decide +kernel
/-- Which places of a stream are HELD after a re-sent block in the repair window or at a slot pass. -/
def resentAt (k : Nat) (x : Block) (st : RecvStream) : Option (List Bool) :=
  let c := if k = 3 then Instr.repairWindowClose x.asRead .passiveThroughout
    else .slotPass (Fin.ofNat 24 (k - 4)) x.asRead .passiveThroughout PassStep.all
  (after (exec c (before k (withStream st base)))).bind
    (fun t => t.recv.p0.stream.map (fun y => y.window.map (fun pl => pl.block.isSome)))
theorem witness_ResentBlocksFillPlaces : (before 3 base).holding = false ∧ (before 3 base).due 3 = true
    ∧ ((atEvent 3 (before 3 base)).mergedBlock false (resent 41).asRead .passiveThroughout).copy = .valid (resent 41)
    ∧ ((atEvent 3 (before 3 base)).mergedBlock false .other .passiveThroughout).copy.isValid = false
    ∧ ((before 3 base).recv.get .p0).stream = some stream ∧ ((before 3 base).recv.get .p1).stream = none
    ∧ stream.window[((41 : Seq) - anchor.nextPlayout).toNat]? = some missingPlace ∧ (resent 41).header.resend = true
    ∧ serialAhead base.table.epoch (resent 41).header.epoch = false ∧ serialAhead base.table.epoch 8 = true := by decide +kernel
theorem witness_ResentBlocksFillPlaces_window : resentAt 3 (resent 41) stream = some [true, true]
    ∧ resentAt 3 (resent 40) stream = some [true, false]
    ∧ resentAt 3 (resent 39) stream = some [true, false]
    ∧ resentAt 3 (resent 42) stream = some [true, false]
    ∧ resentAt 3 (withHeader (fun h => { h with gen := 2 }) (resent 41)) stream = some [true, false]
    ∧ resentAt 3 (resent 41) { stream with active := false } = some [true, false]
    ∧ resentAt 3 (resent 41) { stream with anchor := none, window := [] } = some [] := by decide +kernel
theorem witness_ResentBlocksFillPlaces_slot : (before 8 base).due 8 = true ∧ passAdmissible PassStep.all = true
    ∧ ((atEvent 8 (before 8 base)).mergedBlock true (resent 41).asRead .passiveThroughout).copy = .valid (resent 41)
    ∧ resentAt 8 (resent 41) stream = some [true, true]
    ∧ resentAt 7 (resent 41) stream = some [true, true, false]
    ∧ resentAt 7 (resent 42) stream = some [true, false, true] := by decide +kernel
def prepared : SendEntry := { liveEntry with ring := [{ kept with seq := 5 }] }
def filled : SendEntry := { liveEntry with fifo := [⟨[1], 0⟩] }
theorem witness_SlotStartHandsBlock : (before 4 base).holding = false ∧ (before 4 base).clock.closed = 0 + 4
    ∧ (before 4 base).clock.timer = 5000 + 800 * 0 ∧ (before 27 base).clock.timer = 5000 + 800 * 23
    ∧ (base.send.get .p0).slotRun = some ⟨0, 2⟩ ∧ 0 ≤ 0 ∧ 1 < 0 + 2 ∧ base.ctrl.mode = .joined
    ∧ useAt base.table.live 0 = .owned base.ctrl.option.station (base.tagOf .p0)
    ∧ prepared.ring.find? (fun r => r.seq.toNat % prepared.size == prepared.nextSeq.toNat % prepared.size) = some { kept with seq := 5 }
    ∧ liveEntry.fifo = [] ∧ liveEntry.ring = [] ∧ liveEntry.state = .live ∧ filled.fifo = ⟨[1], 0⟩ :: []
    ∧ releasingEntry.state = .releasing ∧ releasingEntry.releasePath = some .fromLive ∧ (base.send.get .p1).slotRun = some ⟨2, 1⟩
    ∧ heldEntry.state = .held ∧ useAt base.table.live 2 = .owned base.ctrl.option.station (base.tagOf .p1)
    ∧ useAt base.table.live 4 = .openSlot ∧ queuedResend.repair.queue.head? = some ⟨8, 4, 3⟩
    ∧ (queuedResend.send.get (portOfNumber 8)).ring.find? (fun x => x.seq == 4) = some kept
    ∧ queuedResend.lanes.a.transmitUsable = true ∧ base.repair.queue.head? = none
    ∧ useAt base.table.live 10 = .unknown ∧ (before 14 base).clock.closed = 10 + 4 ∧ (before 14 base).clock.timer = 5000 + 800 * 10
    ∧ useAt base.table.live 3 = .owned 5 20 ∧ (5 : StationNo) ≠ base.ctrl.option.station
    ∧ (inMode .faulted base).ctrl.mode = .faulted ∧ (base.send.get .p2).slotRun = none ∧ (base.send.get .p3).slotRun = none
    ∧ (8 : Tag) ≠ base.tagOf .p1 ∧ (withSend SendEntry.reset base).send.p0.slotRun = none := by decide +kernel
theorem witness_ResendSentLeavesQueue : resending.holding = false ∧ resending.drive.content = .block (resentBlock 31)
    ∧ (resentBlock 31).header.resend = true ∧ resending.reaches 4330 = true ∧ (reach 4330 resending).lanes.a.drive = .driving
    ∧ (atReading 4331 resending).reaches 4330 = false ∧ (reach 4330 (withLanes lane lane resending)).lanes.a.drive ≠ .driving
    ∧ (reach 4330 (withLanes lane lane resending)).lanes.b.drive ≠ .driving
    ∧ (handing (ownBlock 5)).drive.handed = some (0, ownBlock 5) ∧ (ownBlock 5).header.resend = false
    ∧ base.drive.content = .none ∧ base.drive.handed = none := by decide +kernel
def inOpenSlot (f : BlockHeader → BlockHeader) : Block := withHeader (fun h => f { h with index := 4 }) (farBlock 42)
def silentFor (n : Nat) : State := { base with table := { base.table with live := base.table.live.map (fun e => { e with silent := n }) } }
theorem witness_SlotPassMaintainsEntry : (before 7 base).holding = false ∧ passAdmissible PassStep.all = true
    ∧ (before 4 base).due 4 = true ∧ (before 7 base).due 7 = true ∧ (before 27 base).due 27 = true ∧ base.ctrl.mode = .joined
    ∧ (inMode .faulted base).ctrl.mode = .faulted ∧ (inMode .dark base).ctrl.mode = .dark
    ∧ base.table.live[23]? = some (SlotEntry.fresh .unknown) ∧ base.table.live[4]? = some (SlotEntry.fresh .openSlot)
    ∧ base.table.live[3]? = some (SlotEntry.fresh (.owned 5 20)) ∧ (silentFor 511).table.live[3]?.map (fun e => e.silent) = some 511
    ∧ ((atEvent 7 (before 7 base)).mergedBlock true .other .other).copy = .erased ∧ (atEvent 7 (before 7 base)).lanes.a.contributing = true
    ∧ (atEvent 7 (deaf (before 7 base))).lanes.a.contributing = false ∧ (atEvent 7 (deaf (before 7 base))).lanes.b.contributing = false
    ∧ ((atEvent 7 (before 7 base)).mergedBlock true (farBlock 42).asRead .other).copy = .valid (farBlock 42)
    ∧ ((atEvent 7 (before 7 base)).mergedBlock true (resent 42).asRead .other).copy = .valid (resent 42)
    ∧ ((atEvent 8 (before 8 base)).mergedBlock true (inOpenSlot id).asRead .other).copy = .valid (inOpenSlot id)
    ∧ (inOpenSlot id).header.resend = false ∧ (inOpenSlot id).header.index.toNat = 4
    ∧ (farBlock 42).header.owner ≠ base.ctrl.option.station ∧ serialAhead base.table.epoch (8 : Epoch) = true
    ∧ serialAhead base.table.epoch (farBlock 42).header.epoch = false
    ∧ (inMode .listening (before 7 base)).due 7 = true ∧ (inMode .starting (before 7 base)).due 7 = true
    ∧ (inMode .dark (before 4 base)).due 4 = true ∧ (ownBlock 5).header.owner = base.ctrl.option.station := by decide +kernel
theorem witness_DuplicateNumberFound : (before 4 base).holding = false ∧ base.ctrl.mode = .joined ∧ listening.ctrl.mode = .listening
    ∧ passAdmissible PassStep.all = true ∧ (before 4 base).due 4 = true
    ∧ ((atEvent 4 (before 4 base)).mergedBlock true (ownBlock 5).asRead .other).copy = .valid (ownBlock 5)
    ∧ (ownBlock 5).header.resend = false ∧ (ownBlock 5).header.index.toNat = 0 ∧ (ownBlock 5).header.owner = base.ctrl.option.station
    ∧ (atEvent 4 (before 4 base)).drive.drove = none ∧ closeOrder.admissible = true ∧ base.due 1 = true
    ∧ (atEvent 1 base).mergedNotice (farNotice 2 claim 7).asRead .other = .valid (notice (farNotice 2 claim 7))
    ∧ leadInSender (farNotice 2 claim 7).leadIn = base.ctrl.option.station ∧ (atEvent 1 base).notices.flight = none
    ∧ (atEvent 1 base).mergedNotice (farNotice 2 claim 7).asRead farClaim.asRead
      = .divergent (notice (farNotice 2 claim 7)) (notice farClaim) := by decide +kernel
def unlearned : Learning :=
  { learned (some 7) 3 [] with table := List.replicate 24 { use := .unknown, carried := false } }
def carrying : Learning :=
  { learned none 3 [⟨⟨0, 2⟩, 8, true, false⟩] with table := List.replicate 24 { use := .owned 2 8, carried := true } }
def learning (L : Learning) : State := withLearning L (inMode .resync (before 7 base))
def newer : Block := withHeader (fun h => { h with epoch := 8 }) (farBlock 42)
theorem witness_LearnedTableFollowsSlots : (learning unlearned).holding = false ∧ (learning unlearned).due 7 = true
    ∧ (learning unlearned).table.learning = some unlearned ∧ (before 7 base).table.learning = none
    ∧ unlearned.table[3]? = some { use := .unknown, carried := false } ∧ carrying.table[3]? = some { use := .owned 2 8, carried := true }
    ∧ ((atEvent 7 (learning carrying)).mergedBlock true .other .other).copy = .erased
    ∧ ((atEvent 7 (learning carrying)).mergedBlock true .passiveThroughout .passiveThroughout).copy = .idle
    ∧ ((atEvent 7 (learning carrying)).mergedBlock true (farBlock 42).asRead .other).copy = .valid (farBlock 42)
    ∧ (farBlock 42).header.index.toNat = 3 ∧ (farBlock 42).header.resend = false ∧ (resent 42).header.resend = true
    ∧ (inOpenSlot id).header.index.toNat ≠ 3 ∧ (ownBlock 5).header.owner = base.ctrl.option.station ∧ (ownBlock 5).header.tag = 8
    ∧ (inMode .resync base).ctrl.mode ≠ .joined ∧ base.ctrl.mode = .joined ∧ serialAhead base.table.epoch newer.header.epoch = true
    ∧ ((atEvent 7 (before 7 base)).mergedBlock true newer.asRead .other).copy = .valid newer
    ∧ (base.send.get .p0).state = .live ∧ useAt base.table.live 0 = .owned base.ctrl.option.station (base.tagOf .p0)
    ∧ (withQueue [{ claim with pending := true }] base).notices.queue.find? (fun x => x.pending) = some { claim with pending := true }
    ∧ claim.first.toNat ≤ 4 ∧ 5 < claim.first.toNat + claim.count.toNat := by decide +kernel
def serving : State := before 4 (withSend { liveEntry with served := some 0 } base)
theorem witness_SlotPassAdvancesSequence : serving.holding = false ∧ passAdmissible PassStep.all = true ∧ serving.due 4 = true
    ∧ (serving.send.get .p0).served = some 0 ∧ serving.ctrl.mode = .joined ∧ (inMode .faulted serving).ctrl.mode = .faulted
    ∧ ((atEvent 4 serving).mergedBlock true .other .other).copy = .erased := by decide +kernel
def unanchored : State := before 7 (withStream { stream with anchor := none, window := [], gaps := [] } base)
def fullWindow : RecvStream := { stream with window := List.replicate 256 missingPlace }
theorem witness_SlotPassReceivesBlock : (before 7 base).holding = false ∧ passAdmissible PassStep.all = true ∧ (before 7 base).due 7 = true
    ∧ useAt base.table.live 3 = .owned 5 20 ∧ ((before 7 base).recv.get .p0).stream = some stream ∧ stream.active = true ∧ stream.tag = 20
    ∧ ((atEvent 7 unanchored).mergedBlock true .other .other).copy = .erased ∧ stream.anchor = some anchor
    ∧ ((atEvent 7 (before 7 base)).mergedBlock true (farBlock 42).asRead .other).copy = .valid (farBlock 42)
    ∧ (farBlock 42).header.gen = anchor.gen ∧ (farBlock 42).header.seq = anchor.nextPlayout + BitVec.ofNat 16 stream.window.length
    ∧ stream.window.length < stream.cls.size ∧ fullWindow.window.length = fullWindow.cls.size
    ∧ (farBlock 296).header.seq = anchor.nextPlayout + BitVec.ofNat 16 fullWindow.window.length := by decide +kernel
theorem witness_SlotPassReceivesOutOfOrder : (before 7 base).due 7 = true ∧ (unanchored.recv.get .p0).stream.map (fun x => x.anchor) = some none
    ∧ useAt base.table.live 3 = .owned (farBlock 300).header.owner (farBlock 300).header.tag ∧ (farBlock 300).header.index.toNat = 3
    ∧ (farBlock 295).header.gen = anchor.gen ∧ serialAhead (42 : Seq) (295 : Seq) = true
    ∧ stream.window.length + ((295 : Seq) - 42).toNat < stream.cls.size ∧ stream.cls.size ≤ stream.window.length + ((296 : Seq) - 42).toNat
    ∧ stream.window ≠ [] ∧ serialAhead (40 : Seq) (296 : Seq) = true ∧ stream.cls.size ≤ ((296 : Seq) - 40).toNat
    ∧ serialAhead (41 : Seq) (42 : Seq) = true ∧ stream.window[((41 : Seq) - 40).toNat]? = some missingPlace ∧ missingPlace.block = none
    ∧ stream.window[((40 : Seq) - 40).toNat]? = some heldPlace ∧ heldPlace.block ≠ none ∧ stream.window[((39 : Seq) - 40).toNat]? = none
    ∧ (farBlock 7).header.gen ≠ ({ anchor with gen := 0 } : Anchor).gen ∧ stream.window.length < stream.cls.size
    ∧ ((32810 : Seq) - 42).toNat = 32768 ∧ serialAhead (42 : Seq) (32810 : Seq) = false ∧ serialAhead (32810 : Seq) (42 : Seq) = false
    ∧ (List.replicate 256 heldPlace).length = stream.cls.size ∧ (farBlock 32810).header.gen = anchor.gen
    ∧ (takeBlock .p0 (farBlock 296) (withStream { stream with window := [], gaps := [] } base)).mgmt.events.map (·.event)
      = [.blocksLost .p0 40 256 1]
    ∧ (let t := takeBlock .p0 (farBlock 7) (withQueue [ask] (withStream { stream with anchor := some { anchor with gen := 0 } } base))
      t.mgmt.events.map (·.event) = [.rebased .p0 0 1 7] ∧ t.notices.queue = []) := by decide +kernel
def gapOf (first : Seq) (count : Nat) : GapRun := { first := first, count := count, asksUsed := 0, ask := none }
theorem witness_GapListJoinsAndLeaves : ([gap] : List GapRun) = [] ++ [gap] ∧ gap.first + BitVec.ofNat 16 gap.count = 42
    ∧ gap.first + BitVec.ofNat 16 gap.count ≠ 43 ∧ ([gap] : List GapRun).length < 16 ∧ 16 ≤ (List.replicate 16 gap).length
    ∧ ¬ ((42 : Seq) - gap.first).toNat < gap.count ∧ ((41 : Seq) - gap.first).toNat < gap.count ∧ gap.count = 1
    ∧ ((41 : Seq) - (gapOf 41 3).first).toNat = 0 ∧ ((43 : Seq) - (gapOf 41 3).first).toNat + 1 = (gapOf 41 3).count
    ∧ 0 < ((42 : Seq) - (gapOf 41 3).first).toNat ∧ ((42 : Seq) - (gapOf 41 3).first).toNat + 1 < (gapOf 41 3).count := by decide +kernel
theorem witness_RoundStartRunsItsSteps : (before 28 base).holding = false ∧ order.admissible = true ∧ (before 28 base).due 28 = true
    ∧ (before 28 base).acceptsEdge .a 24800 24800 24999 = true ∧ (before 28 base).acceptsEdge .b 24999 24800 24999 = true
    ∧ ((searching ⟨900, 0, false⟩).lanes.get .a).search = some ⟨900, 0, false⟩ ∧ (searching ⟨900, 0, false⟩).reaches 1700 = true := by
  decide +kernel
/-- Round 109, in which both places of the stream of port 0 are due, with items already in its out half. -/
def playingTo (items : Nat) : State :=
  { base with
    clock := { base.clock with round := 109 }
    recv := { base.recv with p0 := { base.recv.p0 with out := List.replicate items (.block [1]) } } }
/-- A window with a HELD place between MISSING ones, the last of them of another generation. -/
def mixedWindow : List Place :=
  [missingPlace, { heldPlace with seq := 42 }, { missingPlace with seq := 43 }, { missingPlace with seq := 44 },
    { missingPlace with seq := 45, gen := 2 }]
theorem witness_PlayoutHandsDueBlocks : (base.recv.get .p0).stream = some stream ∧ stream.anchor = some anchor
    ∧ (base.recv.get .p0).out.length + 2 ≤ 8 ∧ stream.window.takeWhile (fun pl => serialAtOrBehind pl.due 100) = []
    ∧ stream.window.takeWhile (fun pl => serialAtOrBehind pl.due 101) = [heldPlace] ∧ heldPlace.block ≠ none
    ∧ [missingPlace].takeWhile (fun pl => serialAtOrBehind pl.due 109) = missingPlace :: [] ∧ missingPlace.block = none
    ∧ (playingTo 8).recv.p0.out.length = 8 ∧ (playingTo 7).recv.p0.out.length = 7 ∧ (playingTo 8).recv.p0.overflow = false
    ∧ stream.window.takeWhile (fun pl => serialAtOrBehind pl.due 109) = [heldPlace, missingPlace]
    ∧ [heldPlace, missingPlace].length ≤ 8 - 6 ∧ 8 - 7 < [heldPlace, missingPlace].length
    ∧ (playout .p0 (playingTo 7)).mgmt.events.map (·.event.kind) = [15, 13]
    ∧ (playout .p0 (playingTo 7)).recv.p0.overflow = true
    ∧ (mixedWindow.takeWhile (fun pl => serialAtOrBehind pl.due 109)).length = 5
    ∧ (playout .p0 (withStream { stream with window := mixedWindow } (playingTo 0))).mgmt.events.map (·.event)
      = [.blocksLost .p0 41 1 1, .blocksLost .p0 43 2 1, .blocksLost .p0 45 1 2] := by decide +kernel
def starting (count : Nat) (s : State) : State := { s with ctrl := { s.ctrl with mode := .starting, startCount := some count } }
def aloneFor (count : Nat) : State := { listening with ctrl := { listening.ctrl with alone := some count } }
theorem witness_ControllerCountsRounds : (starting 14 base).ctrl.startCount = some 14 ∧ 14 + 1 < 16 ∧ (starting 15 base).ctrl.startCount = some 15
    ∧ (starting 15 (withLanes laneOff laneOff base)).lanes.a.state = .off ∧ (starting 15 (withLanes laneOff surged base)).lanes.b.state = .surge
    ∧ (starting 15 base).lanes.a.state = .clear ∧ (aloneFor 62).ctrl.alone = some 62 ∧ 62 + 1 < 64 ∧ (aloneFor 63).ctrl.alone = some 63
    ∧ 64 ≤ 63 + 1 ∧ (aloneFor 63).ctrl.lockTaken = some false ∧ (dark .joined 63).ctrl.darkRounds = some 63 := by decide +kernel
def unknownTable (rounds : Nat) : Learning := { learned none rounds [] with table := List.replicate 24 { use := .unknown, carried := false } }
/-- The claim of port 2 waits for the table, which lists its run with tag `t`, and the send entry of port 2 is `e`. -/
def unsettled (t : Tag) (e : SendEntry) : State :=
  let s := withUse 4 (.owned 2 t) (withUse 5 (.owned 2 t) (withQueue [{ claim with pending := true }] base))
  { s with send := { s.send with p2 := e } }
theorem witness_LearningReplacesTable : (withLearning (unknownTable 6) base).table.learning = some (unknownTable 6)
    ∧ (∃ e ∈ (unknownTable 6).table, e.use = .unknown) ∧ (unknownTable 6).rounds + 1 < 8 ∧ 8 ≤ (unknownTable 7).rounds + 1
    ∧ ¬ (∃ e ∈ (learned (some 8) 0 []).table, e.use = .unknown) ∧ serialAhead base.table.epoch (8 : Epoch) = true
    ∧ base.notices.queue.find? (fun x => x.pending) = none
    ∧ (unsettled 10 claimingEntry).notices.queue.find? (fun x => x.pending) = some { claim with pending := true }
    ∧ runOwned (unsettled 10 claimingEntry).table.live ⟨4, 2⟩ base.ctrl.option.station claim.tag = true
    ∧ runOwned (unsettled 9 claimingEntry).table.live ⟨4, 2⟩ base.ctrl.option.station claim.tag = false
    ∧ ((unsettled 10 releasingEntry).send.get .p2).state = .releasing ∧ ((unsettled 10 heldEntry).send.get .p2).state = .held
    ∧ (settlePending (unsettled 10 claimingEntry)).mgmt.events.map (·.event.kind) = [5] := by decide +kernel
theorem witness_NoticesPreparedAtRoundStart : (withQueue [] base).notices.queue = [] ∧ base.notices.queue = claim :: []
    ∧ runOpen base.table.live ⟨4, 2⟩ = true ∧ runOpen base.table.live ⟨3, 2⟩ = false ∧ firstOpenRun base.table.live 2 = some ⟨4, 2⟩
    ∧ firstOpenRun base.table.live 7 = none ∧ runOwned base.table.live ⟨0, 2⟩ 2 8 = true ∧ runOwned base.table.live ⟨1, 2⟩ 2 8 = false
    ∧ reclaim.kind = .reclaim ∧ runSilent base.table.live ⟨3, 1⟩ = false ∧ runSilent (silentFor 512).table.live ⟨3, 1⟩ = true
    ∧ runSilent (silentFor 511).table.live ⟨3, 1⟩ = false ∧ ask.origin = .recv .p0 ∧ ask.kind = .repairAsk
    ∧ stream.askable 101 41 = true ∧ stream.askable 102 41 = false ∧ claim.overdue 153 = false ∧ claim.overdue 154 = true
    ∧ claim.origin = .send .p2 ∧ (base.send.get .p2).state = .claiming ∧ ((withSend releasingEntry base).send.get .p0).state = .releasing
    ∧ (limitClaims { base with clock := { base.clock with round := 154 } }).mgmt.events.map (·.event.kind) = [6]
    ∧ (limitClaims { base with clock := { base.clock with round := 153 } }).mgmt.events = [] := by decide +kernel
/-- The stream of port 0 with the gap runs given; that of port 1 stands alike. -/
def bothAsking (gaps : List GapRun) : State :=
  let s := withStream { stream with window := stream.window ++ [{ missingPlace with seq := 42 }], gaps := gaps } base
  { s with recv := { s.recv with p1 := s.recv.p0 } }
theorem witness_AsksOfferedAndAwaited : (∃ q ∈ (withQueue [ask] base).notices.queue, q.kind = .repairAsk)
    ∧ (∀ q ∈ base.notices.queue, q.kind ≠ .repairAsk) ∧ (base.recv.get .p0).stream = some stream ∧ stream.active = true
    ∧ stream.anchor = some anchor ∧ stream.gaps[0]? = some gap ∧ gap.ask = none ∧ stream.window[(gap.first - anchor.nextPlayout).toNat]? = some missingPlace
    ∧ serialAhead (101 : Round) missingPlace.due = true ∧ 8 ≤ (missingPlace.due - (101 : Round)).toNat
    ∧ (GapRun.mk 41 1 3 (some ⟨68, 41⟩)).waitedOut 100 = true ∧ (GapRun.mk 41 1 3 (some ⟨69, 41⟩)).waitedOut 100 = false
    ∧ (askRepairs (bothAsking [gapOf 42 1, gapOf 41 1])).notices.queue.map (fun q => (q.origin, q.first)) = [(.send .p2, 4), (.recv .p0, 42)]
    ∧ (endWaits .p0 (bothAsking [⟨42, 1, 3, some ⟨68, 42⟩⟩, ⟨41, 1, 3, some ⟨68, 41⟩⟩])).mgmt.events.map (·.event)
      = [.repairGone .p0 42 1 .limit, .repairGone .p0 41 1 .limit]
    ∧ (base.recv.get .p1).stream = none := by decide +kernel
def owed (e : SendEntry) (q : List Queued) : State := withQueue q (withSend { e with releaseDue := true } base)
def heldFor (n : Nat) : State := withSend { heldEntry with heldRounds := some n } base
theorem witness_SlotRunsAtRoundStart : (base.send.get .p0).state = .live ∧ (base.send.get .p1).state ≠ .live
    ∧ (base.send.get .p1).state = .held ∧ ((owed releasingEntry []).send.get .p0).releaseDue = true
    ∧ ((owed releasingEntry []).send.get .p0).claimRun.or ((owed releasingEntry []).send.get .p0).slotRun = some ⟨0, 2⟩
    ∧ ((owed { releasingEntry with slotRun := none } []).send.get .p0).slotRun = none ∧ 8 ≤ (owed releasingEntry fullQueue).notices.queue.length
    ∧ ownRelease ∈ (owed releasingEntry (fullQueue.tail ++ [ownRelease])).notices.queue
    ∧ ((heldFor 4094).send.get .p0).heldRounds = some 4094 ∧ ((heldFor 4095).send.get .p0).slotRun = some ⟨2, 1⟩
    ∧ 4094 + 1 < 4096 ∧ 4096 ≤ 4095 + 1 ∧ base.table.live.length = 24
    ∧ reclaimRuns (silentFor 511).table.live = [] ∧ (silentFor 512).table.live[3]?.map (fun e => e.reclaim) = some false
    ∧ reclaimRuns ((silentFor 512).table.live.map (fun e => { e with reclaim := true })) = [(⟨0, 2⟩, 2, 8), (⟨2, 1⟩, 2, 9), (⟨3, 1⟩, 5, 20)]
    ∧ runOwned base.table.live ⟨0, 2⟩ base.ctrl.option.station 8 = true
    ∧ runOwned base.table.live ⟨0, 3⟩ base.ctrl.option.station 8 = false := by decide +kernel
def record0 : ContextRecord := { port := .p0, tag := 8, run := ⟨0, 2⟩, priority := 3, gen := 1, cls := .r128 }
def remembering : State := { base with ctrl := { base.ctrl with context := { station := 2, records := [record0], valid := true, frozen := false } } }
theorem witness_WarmRejoinAndContext : base.ctrl.context.valid = false ∧ remembering.ctrl.context.valid = true
    ∧ remembering.ctrl.context.records.filter (fun r => runOwned remembering.table.live r.run 2 r.tag) = [record0]
    ∧ (∀ r ∈ [record0], r.port ≠ .p1) ∧ base.table.live.length = 24
    ∧ (formOrphans base).ctrl.orphans = [⟨⟨0, 2⟩, 8⟩] ∧ base.heldHas 2 = true := by decide +kernel
def closing (a : Lane) (s : State) : State :=
  { withLanes { a with windowCounter := 255 } { laneOff with windowCounter := 255 } s with clock := { s.clock with phase := 100 } }
theorem witness_WindowCloseJudgesLanes : base.holding = false ∧ base.reaches 850 = true ∧ (reach 850 base).clock.phase ≠ 100
    ∧ (closing lane base).holding = false ∧ (closing lane base).reaches 850 = true ∧ (closing lane base).clock.phase = 100
    ∧ ((closing lane base).lanes.get .a).state = .clear ∧ ((closing lane base).lanes.get .b).state = .off
    ∧ 4 * 2 ^ base.ctrl.option.chatter.toNat = 8 ∧ ((closing { lane with violations := 8 } base).lanes.get .a).violations = 8
    ∧ ((closing { lane with violations := 7 } base).lanes.get .a).violations = 7
    ∧ ((closing { lane with state := .suspect } base).lanes.get .a).state = .suspect ∧ ((closing surged base).lanes.get .a).state = .surge
    ∧ ((closing { lane with state := .settling, quiet := 30 } base).lanes.get .a).quiet = 30
    ∧ ((closing { lane with state := .settling, quiet := 31 } base).lanes.get .a).quiet = 31
    ∧ ((closing { lane with run := 1200, dominant := true } base).lanes.get .a).run = 1200
    ∧ ((closing surged base).lanes.get .a).windowHeld = false ∧ ((closing surged base).lanes.get .a).run ≠ 1200
    ∧ ((closing surged base).lanes.get .a).run ≠ 1201 ∧ 1200 < 1201 ∧ ¬ 1200 < 1200
    ∧ ((closing { surged with windowHeld := true } base).lanes.get .a).windowHeld = true
    ∧ (after (exec (.windowClose .a 0 0 850) (closing { lane with state := .suspect, violations := 8, drive := .driving, rounds := 5 } base))).map
        (fun t => (t.lanes.a.state, t.lanes.a.cause, t.lanes.a.rounds, t.lanes.a.drive, t.lanes.a.violations))
      = some (.surge, some .chatter, 0, .cut, 0)
    ∧ (after (exec (.windowClose .a 0 0 850) (closing { surged with echoOwed := true, cause := some .echoLate, rounds := 5 } base))).map
        (fun t => (t.lanes.a.state, t.lanes.a.cause, t.lanes.a.rounds)) = some (.settling, some .echoLate, 0) := by decide +kernel
def longRun (l : Lane) : State := withLanes { l with reported := .long, run := 50000, dominant := true } lane base
/-- A spike of 20 ns between steady passive levels. -/
def spike : List LevelRun := [⟨false, 300⟩, ⟨true, 20⟩, ⟨false, 300⟩]
theorem witness_MonitorsTakeRunsAndViolations : base.holding = false ∧ base.reaches 850 = true ∧ ((reach 850 base).lanes.get .a).state = .clear
    ∧ ((reach 850 base).lanes.get .a).reported = .none ∧ (withLanes laneOff lane base).lanes.a.state = .off
    ∧ (withLanes { surged with cause := some .chatter } lane base).lanes.a.cause = some .chatter
    ∧ (withLanes surged lane base).lanes.a.cause = some .long ∧ (withLanes surged lane base).lanes.a.state = .surge
    ∧ ((reach 850 (longRun surged)).lanes.get .a).reported = .long ∧ ((reach 850 (longRun surged)).lanes.get .a).run = 50000
    ∧ ((reach 850 (longRun lane)).lanes.get .a).state = .clear
    ∧ (reach 850 (withLanes { lane with reported := .long, dominant := true, run := 2349 } lane base)).lanes.a.run = 2349
    ∧ (atReading 851 base).reaches 2400 = false ∧ 2400 ≤ (reach 850 (longRun surged)).lanes.a.run
    ∧ runShown spike = .passiveWithin 0 ∧ runShown [⟨false, 300⟩, ⟨true, 12010⟩] = .risen 1201
    ∧ runShown [⟨true, 12010⟩] = .dominantFor 1201
    ∧ (after (exec (.longRun .a 850) (withLanes { lane with drive := .driving, violations := 255, rounds := 9 } lane base))).map
        (fun t => (t.lanes.a.drive, t.lanes.a.violations, t.lanes.a.rounds)) = some (.cut, 255, 0)
    ∧ inLateWindow.clock.validCount = 0 ∧ 1 ≤ base.clock.validCount
    ∧ (risen 0 5).due 0 = true ∧ (risen 1 805).due 1 = true ∧ (risen 2 3000).due 2 = true ∧ (before 3 base).due 3 = true
    ∧ (risen 7 7450).due (3 + 4) = true ∧ (atEvent 0 (risen 0 5)).lanes.a.run = 795 ∧ (atEvent 1 (risen 1 805)).lanes.a.run = 995
    ∧ [TickLevel.dominant, .dominant, .dominant, .dominant, .passive, .dominant].length + 1 + 1 = 8
    ∧ (0xFFFE : BitVec 16).getLsbD 0 = false ∧ (∀ i : Fin 16, 0 < i → (0xFFFE : BitVec 16).getLsbD i.val = true)
    ∧ [(0 : Byte)].length ≤ 256 := by decide +kernel
def bothSurged (spell : Nat) : State :=
  let s := withLanes { surged with windowCounter := 255 } { surged with windowCounter := 255 } (dark .joined spell)
  { s with clock := { s.clock with phase := 100 } }
/-- Lane A is the last enabled one out of SURGE: contending, and at a noisy window. -/
def lastLane : State := withLanes { lane with drive := .contending } surged contending
def lastWindow : State := closing { lane with state := .suspect, violations := 8 } base
/-- What the entry into DARK leaves. -/
structure ModeSummary where
  mode       : Mode
  returnMode : Option Mode
  flight     : Option Flight
deriving DecidableEq, Repr
def modeAfter (s : State) (c : Instr) : Option ModeSummary :=
  (after (exec c s)).map (fun t => ⟨t.ctrl.mode, t.ctrl.returnMode, t.notices.flight⟩)
theorem witness_DarkBeginsAndEnds : base.holding = false ∧ base.reaches 850 = true
    ∧ (reach 850 (withLanes lane laneOff base)).lanes.a.state = .clear ∧ (reach 850 (withLanes lane laneOff base)).lanes.a.reported = .none
    ∧ (reach 850 (withLanes lane laneOff base)).lanes.b.state = .off ∧ base.ctrl.mode = .joined
    ∧ (closing surged (dark .joined 63)).clock.phase = 100 ∧ (closing surged (dark .joined 63)).lanes.a.state = .surge
    ∧ (closing surged (dark .joined 63)).lanes.b.state = .off ∧ surged.violations < 4 * 2 ^ base.ctrl.option.chatter.toNat
    ∧ surged.windowHeld = false ∧ (dark .joined 63).ctrl.mode = .dark ∧ (dark .joined 63).ctrl.returnMode = some .joined
    ∧ (dark .joined 63).ctrl.darkRounds = some 63 ∧ (dark .joined 63).notices.queue = []
    ∧ (reach 850 (withLanes lane surged base)).lanes.b.state = .surge
    ∧ (bothSurged 63).lanes.b.state = .surge ∧ (bothSurged 63).clock.phase = 100 ∧ (bothSurged 63).lanes.a.state = .surge
    ∧ (bothSurged 63).lanes.a.run ≠ 1200 ∧ (1200 : Nat) ≤ 1200
    ∧ (dark .resync 64).ctrl.darkRounds = some 64 ∧ (dark .listening 0).ctrl.returnMode = some .listening := by decide +kernel
theorem witness_DarkBeginsAndEnds_causes : lastLane.lanes.a.state = .clear ∧ lastLane.ctrl.mode = .joined
    ∧ modeAfter lastLane (.longRun .a 861) = some ⟨.dark, some .joined, none⟩
    ∧ modeAfter lastLane (.echoLate .a 861) = some ⟨.dark, some .joined, none⟩
    ∧ modeAfter lastLane (.driveFault .noticeWindow 0 .a) = some ⟨.dark, some .joined, none⟩
    ∧ modeAfter lastWindow (.windowClose .a 0 0 850) = some ⟨.dark, some .joined, none⟩ := by decide +kernel
theorem witness_MergedResults : lane.contributing = true ∧ lane.lostAt = none ∧ lane.fieldFlaw = false
    ∧ noticeCopy lane farClaim.asRead = .valid (notice farClaim) ∧ noticeCopy lane .other = .erased
    ∧ noticeCopy lane .passiveThroughout = .idle ∧ blockCopy true lane (farBlock 42).asRead = .valid (farBlock 42)
    ∧ blockCopy true lane .other = .erased ∧ blockCopy true { lane with guardFlaw := true } .passiveThroughout = .erased
    ∧ (farBlock 42).header.length.toNat = (farBlock 42).payload.length
    ∧ (mergeAnswers ⟨{ lane with lostAt := some 3500 }, laneOff⟩ accepts accepts).read = true
    ∧ (mergeAnswers ⟨{ lane with lostAt := some 3499 }, laneOff⟩ accepts accepts).read = false := by decide +kernel
theorem witness_StretchesCountFreeViolations : (∀ r ∈ [(⟨false, 300⟩ : LevelRun), ⟨true, 500⟩], 300 ≤ r.length)
    ∧ (300 ≤ (⟨false, 300⟩ : LevelRun).length ∧ ([⟨true, 20⟩] : List LevelRun) ≠ [] ∧ 0 < 20 ∧ 20 < 300)
    ∧ List.IsChain (fun (x y : LevelRun) => x.dominant ≠ y.dominant) spike ∧ freeViolations spike = 1
    ∧ (∀ r ∈ ([⟨true, 9⟩, ⟨false, 1⟩] : List LevelRun), 0 < r.length ∧ (r.dominant = false → r.length < 2))
    ∧ List.IsChain (fun (x y : LevelRun) => x.dominant ≠ y.dominant) [⟨true, 9⟩, ⟨false, 1⟩]
    ∧ runShown [⟨true, 90⟩, ⟨false, 2⟩, ⟨true, 9⟩, ⟨false, 1⟩] = .risen 1 ∧ runShown [⟨true, 90⟩, ⟨false, 2⟩] = .passiveWithin 0
    ∧ freeViolations ([⟨false, 300⟩] ++ levels (farBlock 3).bytes ++ [⟨false, 300⟩]) = 0
    ∧ freeViolations ([⟨true, 300⟩] ++ levels (farBlock 3).bytes ++ [⟨false, 300⟩]) = 0
    ∧ freeViolations [⟨false, 300⟩, ⟨true, 1000⟩, ⟨false, 500⟩, ⟨true, 500⟩, ⟨false, 300⟩] = 0
    ∧ freeViolations ([⟨false, 300⟩] ++ (List.replicate 10 [⟨true, 200⟩, ⟨false, 200⟩]).flatten ++ [⟨true, 300⟩]) = 4 := by
  decide +kernel
theorem witness_LaneLevelsReadAndDriven : (40 : Nat) ≤ 40 ∧ ¬ (41 : Nat) ≤ 40
    ∧ ({ dominant := true, length := 3 } : LevelRun).length % 2 = 1 ∧ (3 : Nat) < 20 * (10 + 1)
    ∧ ((symbolElements startSymbol).take 10).all (fun d => !d) = false ∧ byteOfSymbol (patternOf (symbolElements startSymbol)) = none
    ∧ (farBlock 42).header.length.toNat = (farBlock 42).payload.length ∧ (resentBlock 31).payload = []
    ∧ (contending.lanes.get .a).drive = .contending ∧ contending.drive.content = .leadIn .noticeWindow
    ∧ (drivingMark.lanes.get .a).drive = .driving ∧ drivingMark.drive.content = .mark ∧ (answeringAt 2000).answerAt = some 2000
    ∧ (answeringAt 2000).drive.content = .accept ∧ resending.drive.content = .block (resentBlock 31) ∧ blockStart (resentBlock 31) = 4300
    ∧ (base.lanes.get .a).drive = .notDriving := by decide +kernel
theorem witness_CleanNoticesAndBlocksReadBack : lane.contributing = true ∧ lane.lostAt = none ∧ lane.fieldFlaw = false ∧ lane.guardFlaw = false
    ∧ (farBlock 42).header.length.toNat = (farBlock 42).payload.length ∧ (farBlock 42).payload.length ≤ 256
    ∧ (farBlock 42).header.fill = false ∧ (farBlock 42).check = check32 (farBlock 42).payload := by decide +kernel
theorem witness_StepKeepsBounded : base.Bounded := by
  have h : ∀ e ∈ base.table.live, e.inRange := by
    intro e he
    have : e.silent = 0 ∧ e.mismatches = 0 := by revert e; decide +kernel
    exact ⟨by omega, by omega⟩
  refine ⟨by decide, by decide, by decide, by decide, by decide, by decide, by decide, by decide, ?_, ?_, ?_, ?_, ?_⟩
  · exact ⟨by decide, by decide, by decide, by decide, by decide, by decide, by decide, by intro x hx; cases hx⟩
  · exact ⟨by decide, by decide, by decide, by decide, by decide, by decide, by decide, by intro x hx; cases hx⟩
  · exact ⟨by decide, h, by decide, by decide, by intro L hL; cases hL⟩
  · exact ⟨by unfold SendEntry.inRange; decide, by unfold SendEntry.inRange; decide, by unfold SendEntry.inRange; decide,
      by unfold SendEntry.inRange; decide⟩
  · refine ⟨⟨by decide, ?_⟩, ⟨by decide, by intro x hx; cases hx⟩, ⟨by decide, by intro x hx; cases hx⟩,
      ⟨by decide, by intro x hx; cases hx⟩⟩
    intro x hx
    cases hx
    decide
theorem witness_StepKeepsModeFieldsAndStoreFits : base.ModeFields ∧ base.StoreFits ∧ (after (step base)).isSome = true := by
  refine ⟨?_, ?_, by decide +kernel⟩
  · unfold State.ModeFields; decide +kernel
  · unfold State.StoreFits; decide +kernel

end Sys2Proof.Tests
end

section
/-! PROOF LAYER. Capacities and ranges, block by block: what each update of a lane, of the gap list, of a port half and of the slot table
keeps within the manual's bounds. -/

namespace Sys2Proof.Machine

open Sys2Proof

/-! ### Every lane, every port -/

/-- The value of every lane satisfies a property. -/
def PerLane.Every {α : Type} (P : α → Prop) (x : PerLane α) : Prop := P x.a ∧ P x.b

theorem PerLane.Every.get {α : Type} {P : α → Prop} {x : PerLane α} (h : x.Every P) (l : LaneId) : P (x.get l) := by
  cases l
  · exact h.1
  · exact h.2

theorem PerLane.Every.set {α : Type} {P : α → Prop} {x : PerLane α} {v : α} (h : x.Every P) (l : LaneId) (hv : P v) :
    (x.set l v).Every P := by
  cases l
  · exact ⟨hv, h.2⟩
  · exact ⟨h.1, hv⟩

theorem PerLane.Every.map {α β : Type} {P : α → Prop} {Q : β → Prop} {f : α → β} {x : PerLane α} (h : x.Every P)
    (hf : ∀ y, P y → Q (f y)) : (x.map f).Every Q :=
  ⟨hf _ h.1, hf _ h.2⟩

theorem PerPort.Every.get {α : Type} {P : α → Prop} {x : PerPort α} (h : x.Every P) (p : Port) : P (x.get p) := by
  obtain ⟨h0, h1, h2, h3⟩ := h
  cases p <;> assumption

theorem PerPort.Every.set {α : Type} {P : α → Prop} {x : PerPort α} {v : α} (h : x.Every P) (p : Port) (hv : P v) :
    (x.set p v).Every P := by
  obtain ⟨h0, h1, h2, h3⟩ := h
  cases p <;> exact ⟨by assumption, by assumption, by assumption, by assumption⟩

theorem PerPort.Every.map {α β : Type} {P : α → Prop} {Q : β → Prop} {f : α → β} {x : PerPort α} (h : x.Every P)
    (hf : ∀ y, P y → Q (f y)) : (x.map f).Every Q := by
  obtain ⟨h0, h1, h2, h3⟩ := h
  exact ⟨hf _ h0, hf _ h1, hf _ h2, hf _ h3⟩

theorem PerPort.Every.all {α : Type} {P : α → Prop} {v : α} (h : P v) : (PerPort.all v).Every P := ⟨h, h, h, h⟩

/-! ### Lanes -/

theorem Lane.reset_inRange (enabled : Bool) : (Lane.reset enabled).inRange := by
  simp [Lane.inRange, Lane.reset]

theorem Lane.cutDrive_inRange {l : Lane} (h : l.inRange) : l.cutDrive.inRange := by
  unfold Lane.cutDrive; split <;> exact h

theorem Lane.withdraw_inRange {l : Lane} (h : l.inRange) : l.withdraw.inRange := by
  unfold Lane.withdraw; split <;> exact h

theorem Lane.countViolations_inRange {l : Lane} (n : Nat) (h : l.inRange) : (l.countViolations n).inRange := by
  obtain ⟨hw, -, rest⟩ := h
  exact ⟨hw, Nat.min_le_left _ _, rest⟩

theorem Lane.endRun_inRange {l : Lane} (h : l.inRange) : l.endRun.inRange := by
  obtain ⟨hw, hv, -, rest⟩ := h
  exact ⟨hw, hv, Nat.zero_le _, rest⟩

theorem Lane.beginRun_inRange {l : Lane} (h : l.inRange) : l.beginRun.inRange := by
  obtain ⟨hw, hv, -, rest⟩ := h
  exact ⟨hw, hv, Nat.zero_le _, rest⟩

/-- The four registers that reading the dominant-run timer changes; only the run is bounded (R41). -/
theorem Lane.inRange.withRun {l : Lane} {run : Nat} {dominant held : Bool} {reported : RunReport} (h : l.inRange)
    (hr : run ≤ 50000) :
    ({ l with run := run, dominant := dominant, reported := reported, windowHeld := held } : Lane).inRange := by
  obtain ⟨hw, hv, -, rest⟩ := h
  exact ⟨hw, hv, hr, rest⟩

theorem Lane.inRange.run_le {l : Lane} (h : l.inRange) : l.run ≤ Config.heldRun := by
  obtain ⟨-, -, hr, -⟩ := h
  exact hr

theorem Lane.readRun_inRange {l : Lane} (n : Nat) (h : l.inRange) : (l.readRun n).inRange := by
  obtain ⟨run, dominant, reported, held, e, hr⟩ := Lane.readRun_spec n l
  rw [e]
  exact h.withRun (hr h.run_le)

theorem Lane.tell_inRange {l : Lane} (shown : LevelShown) (h : l.inRange) : (l.tell shown).inRange := by
  obtain ⟨run, dominant, reported, held, e, hr⟩ := Lane.tell_spec shown l
  rw [e]
  exact h.withRun (hr h.run_le)

theorem Lane.passRun_inRange {l : Lane} (d : Nat) (h : l.inRange) : (l.passRun d).inRange := by
  unfold Lane.passRun
  split
  · split
    · exact Lane.endRun_inRange h
    · exact h.withRun (Nat.min_le_left _ _)
  · exact h

theorem Lane.countTicks_inRange {l : Lane} (n : Nat) (h : l.inRange) : (l.countTicks n).inRange := by
  unfold Lane.countTicks
  split
  · exact ⟨Nat.min_le_left _ _, h.2⟩
  · exact h

/-- An open reading that is kept or dropped keeps its edge (R14). -/
theorem Lane.inRange.withSearch {l : Lane} {x : Option Search} (h : l.inRange)
    (hx : ∀ y, x = some y → y.edge < 24800) : ({ l with search := x } : Lane).inRange := by
  obtain ⟨hw, hv, hr, hq, hm, ht, hp, -⟩ := h
  exact ⟨hw, hv, hr, hq, hm, ht, hp, hx⟩

theorem Lane.inRange.edge_lt {l : Lane} (h : l.inRange) {x : Search} (hx : l.search = some x) : x.edge < 24800 := by
  obtain ⟨-, -, -, -, -, -, -, hs⟩ := h
  exact hs x hx

theorem dropStale_inRange {l : Lane} (timer : Nat) (h : l.inRange) : (dropStale timer l).inRange := by
  refine h.withSearch (fun y hy => ?_)
  obtain ⟨hy, -⟩ := Option.filter_eq_some_iff.mp hy
  exact h.edge_lt hy

theorem Lane.crossRound_inRange {l : Lane} (t : Nat) (h : l.inRange) : (l.crossRound t).inRange := by
  refine h.withSearch (fun y hy => ?_)
  obtain ⟨x, hx, rfl⟩ := Option.map_eq_some_iff.mp hy
  exact h.edge_lt (x := x) hx

theorem Lane.changeLevel_inRange {l : Lane} (h : l.inRange) : l.changeLevel.inRange := by
  unfold Lane.changeLevel
  split
  · exact Lane.endRun_inRange h
  · split
    · exact Lane.beginRun_inRange h
    · exact h

theorem Lane.surge_inRange {l : Lane} (cause : SurgeCause) (t : Nat) (h : l.inRange) : (l.surge cause t).inRange := by
  have cut : (if l.drive == .contending || l.drive == .driving then
      { l.cutDrive.countViolations 1 with cutAt := some t } else l).inRange := by
    split
    · exact Lane.countViolations_inRange 1 (Lane.cutDrive_inRange h)
    · exact h
  obtain ⟨hw, hv, hr, -⟩ := cut
  exact ⟨hw, hv, hr, Nat.zero_le _, Nat.zero_le _, Nat.zero_le _, Nat.zero_lt_succ _, fun _ hx => nomatch hx⟩

theorem Lane.settle_inRange {l : Lane} (t : Nat) (h : l.inRange) : (l.settle t).inRange := by
  obtain ⟨hw, hv, hr, -, -, -, rest⟩ := h
  exact ⟨hw, hv, hr, Nat.zero_le _, Nat.zero_le _, Nat.zero_le _, rest⟩

theorem Lane.roundStart_inRange {l : Lane} (h : l.inRange) : l.roundStart.inRange := by
  obtain ⟨hw, hv, hr, hq, hm, ht, hp, hs⟩ := h
  unfold Lane.roundStart
  split
  · refine ⟨hw, hv, hr, hq, hm, Nat.min_le_left _ _, ?_, hs⟩
    dsimp only
    split
    · exact Nat.mod_lt _ (by decide)
    · exact hp
  · exact ⟨hw, hv, hr, hq, hm, ht, hp, hs⟩

theorem Lane.countMarkCopy_inRange {l : Lane} (copy : Copy Unit) (h : l.inRange) : (l.countMarkCopy copy).inRange := by
  obtain ⟨hw, hv, hr, hq, hm, ht, hp, hs⟩ := h
  refine ⟨hw, hv, hr, hq, ?_, ht, hp, hs⟩
  dsimp only [Lane.countMarkCopy]
  split
  · omega
  · split <;> omega

theorem Lane.countQuiet_inRange {l : Lane} (h : l.inRange) : ({ l with quiet := min 32 (l.quiet + 1) } : Lane).inRange := by
  obtain ⟨hw, hv, hr, -, rest⟩ := h
  exact ⟨hw, hv, hr, Nat.min_le_left _ _, rest⟩

theorem Lane.newWindow_inRange {l : Lane} (h : l.inRange) : l.newWindow.inRange := by
  obtain ⟨-, -, rest⟩ := h
  exact ⟨Nat.zero_le _, Nat.zero_le _, rest⟩

theorem countActivity_inRange {l : Lane} (aligned : Bool) (activity : List LevelRun) (h : l.inRange) :
    (countActivity aligned activity l).inRange := by
  unfold countActivity
  split
  · exact Lane.tell_inRange _ h
  · exact Lane.tell_inRange _ (Lane.countViolations_inRange _ h)

/-- Between field boundaries a lane is driven or not, and is read; what the monitor holds stands. -/
theorem Lane.inRange.of_agrees {x y : Lane} (h : y.agrees x) (hx : x.inRange) : y.inRange := by
  unfold Lane.agrees at h
  unfold Lane.inRange at hx ⊢
  simp only [h]
  exact hx

/-! ### The gap list (R151, R152) -/

theorem joinGap_length (q : Seq) (gaps : List GapRun) (h : gaps.length ≤ 16) : (joinGap q gaps).length ≤ 16 := by
  unfold joinGap
  split
  · next r hr =>
    have hpos : 0 < gaps.length := List.length_pos_iff.mpr (by rintro rfl; simp at hr)
    split
    · simp; omega
    · split
      · next hroom => simp [Config.gapListSize] at hroom ⊢; omega
      · exact h
  · simp

theorem GapRun.without_length (r : GapRun) (q : Seq) (room : Bool) :
    (r.without q room).length ≤ if room then 2 else 1 := by
  unfold GapRun.without
  dsimp only
  cases room <;> split_ifs <;> simp_all

theorem removeFrom_length (q : Seq) (room : Bool) (gaps : List GapRun) :
    (removeFrom q room gaps).length ≤ gaps.length + if room then 1 else 0 := by
  induction gaps with
  | nil => simp [removeFrom]
  | cons r rest ih =>
    unfold removeFrom
    split
    · have := r.without_length q room
      cases room <;> simp at this ⊢ <;> omega
    · simp; omega

theorem leaveGap_length (q : Seq) (gaps : List GapRun) (h : gaps.length ≤ 16) : (leaveGap q gaps).length ≤ 16 := by
  have hl := removeFrom_length q (gaps.length < Config.gapListSize) gaps
  unfold leaveGap
  by_cases hroom : gaps.length < Config.gapListSize
  · simp only [hroom, decide_true, if_true] at hl ⊢
    unfold Config.gapListSize at hroom
    omega
  · simp only [hroom, decide_false, Bool.false_eq_true, if_false] at hl ⊢
    omega

theorem gapsAfter_length (gen : Gen) (played : List Place) (gaps : List GapRun) (h : gaps.length ≤ 16) :
    (gapsAfter gen played gaps).length ≤ 16 := by
  unfold gapsAfter
  induction played generalizing gaps with
  | nil => exact h
  | cons pl rest ih =>
    refine ih _ ?_
    dsimp only
    split
    · exact leaveGap_length _ _ h
    · exact h

theorem RecvStream.addManyMissing_gaps (now : Round) (a : Anchor) (n : Nat) (st : RecvStream) (h : st.gaps.length ≤ 16) :
    (st.addManyMissing now a n).gaps.length ≤ 16 := by
  induction n generalizing st with
  | zero => exact h
  | succ n ih => exact ih _ (joinGap_length _ _ h)

theorem RecvStream.fill_gaps (a : Anchor) (b : Block) (st : RecvStream) (h : st.gaps.length ≤ 16) :
    (st.fill a b).gaps.length ≤ 16 := by
  unfold RecvStream.fill
  split
  · split
    · exact leaveGap_length _ _ h
    · exact h
  · exact h

/-! ### Port halves (R111, R150) -/

theorem SendEntry.reset_inRange : SendEntry.reset.inRange := Nat.zero_le _

theorem RecvEntry.reset_inRange : RecvEntry.reset.inRange := ⟨by decide, fun _ h => nomatch h⟩

/-- An entry with an empty FIFO and no block in assembly has every place free. -/
theorem SendEntry.inRange_of_empty {e : SendEntry} (hf : e.fifo = []) (ha : e.assembly = none) : e.inRange := by
  simp [SendEntry.inRange, SendEntry.places, hf, ha]

/-- Of an entry only the FIFO and the assembly take places. -/
theorem SendEntry.inRange.of_places {e e' : SendEntry} (h : e.inRange) (hf : e'.fifo = e.fifo)
    (ha : e'.assembly = e.assembly) : e'.inRange := by
  unfold SendEntry.inRange SendEntry.places at h ⊢
  rwa [hf, ha]

theorem SendEntry.inRange.of_fifoAfter {e e' : SendEntry} (h : e.inRange) (hf : e'.fifo = fifoAfter e)
    (ha : e'.assembly = e.assembly) : e'.inRange := by
  unfold SendEntry.inRange SendEntry.places at h ⊢
  have : (fifoAfter e).length ≤ e.fifo.length := by unfold fifoAfter; split <;> simp
  rw [hf, ha]
  omega

theorem SendEntry.takeSlotRun_inRange {e : SendEntry} (h : e.inRange) : e.takeSlotRun.inRange := by
  unfold SendEntry.takeSlotRun; split <;> exact h

/-- A length word opens a block where a place is free (R111). -/
theorem openAssembly_inRange {e : SendEntry} (value : Nat) (h : e.places < 8) : (openAssembly value e).inRange := by
  unfold SendEntry.places at h
  have : (openAssembly value e).places = e.fifo.length + 1 := rfl
  unfold SendEntry.inRange
  omega

/-- A byte keeps the place of the block being assembled, which the completed block then takes (R112). -/
theorem appendByte_inRange {e : SendEntry} {a : Assembly} (byte : Byte) (ha : e.assembly = some a) (h : e.inRange) :
    (appendByte a byte e).inRange := by
  unfold SendEntry.inRange SendEntry.places at h ⊢
  unfold appendByte
  simp only [ha] at h
  dsimp only
  split <;> simpa using h

theorem advanceSend_inRange {e : SendEntry} (mode : Mode) (n : Nat) (h : e.inRange) : (advanceSend mode n e).inRange := by
  unfold advanceSend; split <;> exact h

/-- A change of the open stream that keeps its gap list within 16 runs. -/
theorem RecvEntry.mapStream_inRange {e : RecvEntry} {f : RecvStream → RecvStream} (h : e.inRange)
    (hf : ∀ st, e.stream = some st → st.gaps.length ≤ 16 → (f st).gaps.length ≤ 16) :
    ({ e with stream := e.stream.map f } : RecvEntry).inRange := by
  refine ⟨h.1, fun st hst => ?_⟩
  obtain ⟨x, hx, rfl⟩ := Option.map_eq_some_iff.mp hst
  exact hf x hx (h.2 x hx)

/-! ### The slot table (section 4.1) -/

theorem SlotEntry.fresh_inRange (u : SlotUse) : (SlotEntry.fresh u).inRange := ⟨Nat.zero_le _, Nat.zero_le _⟩

theorem SlotTable.reset_inRange : SlotTable.reset.inRange := by
  refine ⟨rfl, fun e he => ?_, rfl, fun age ha => ?_, fun _ h => nomatch h⟩
  · rw [List.eq_of_mem_replicate he]
    exact SlotEntry.fresh_inRange _
  · rw [List.eq_of_mem_replicate ha]

theorem SlotTable.inRange.entry {t : SlotTable} (h : t.inRange) {e : SlotEntry} (he : e ∈ t.live) : e.inRange := by
  obtain ⟨-, hl, -⟩ := h
  exact hl e he

/-- The live table with other entries of the same number, each in range. -/
theorem SlotTable.inRange.withLive {t : SlotTable} {live : List SlotEntry} {epoch : Epoch} (h : t.inRange)
    (hl : live.length = 24) (he : ∀ e ∈ live, e.inRange) : ({ t with live := live, epoch := epoch } : SlotTable).inRange := by
  obtain ⟨-, -, rest⟩ := h
  exact ⟨hl, he, rest⟩

/-- A change of each entry by its slot that keeps the entries in range. -/
theorem SlotTable.inRange.withMapIdx {t : SlotTable} {f : Nat → SlotEntry → SlotEntry} {epoch : Epoch} (h : t.inRange)
    (hf : ∀ n e, e.inRange → (f n e).inRange) :
    ({ t with live := t.live.mapIdx f, epoch := epoch } : SlotTable).inRange := by
  refine h.withLive (by simpa using h.1) (fun e he => ?_)
  obtain ⟨n, hn, rfl⟩ := List.mem_mapIdx.mp he
  exact hf _ _ (h.entry (List.getElem_mem hn))

theorem SlotTable.inRange.withModify {t : SlotTable} {f : SlotEntry → SlotEntry} (n : Nat) (h : t.inRange)
    (hf : ∀ e, e.inRange → (f e).inRange) : ({ t with live := t.live.modify n f } : SlotTable).inRange := by
  refine h.withLive (epoch := t.epoch) (by simpa using h.1) (fun e he => ?_)
  obtain ⟨i, hi, rfl⟩ := List.mem_iff_getElem.mp he
  rw [List.getElem_modify]
  have hlen : i < t.live.length := by simpa using hi
  split
  · exact hf _ (h.entry (List.getElem_mem hlen))
  · exact h.entry (List.getElem_mem hlen)

theorem SlotTable.inRange.withLearning {t : SlotTable} {x : Option Learning} (h : t.inRange)
    (hx : ∀ L, x = some L → L.table.length = 24) : ({ t with learning := x } : SlotTable).inRange := by
  obtain ⟨hl, he, hn, ha, -⟩ := h
  exact ⟨hl, he, hn, ha, hx⟩

theorem SlotTable.inRange.withHeard {t : SlotTable} {heard : List Nat} (h : t.inRange) (hl : heard.length = 16)
    (ha : ∀ age ∈ heard, age ≤ 256) : ({ t with heard := heard } : SlotTable).inRange := by
  obtain ⟨hn, he, -, -, hx⟩ := h
  exact ⟨hn, he, hl, ha, hx⟩

theorem mismatchEntry_inRange (s : State) (head : BlockHeader) {e : SlotEntry} (h : e.inRange) :
    (mismatchEntry s head e).inRange := by
  unfold mismatchEntry
  split
  · exact h
  · exact ⟨h.1, Nat.min_le_left _ _⟩

theorem silentEntry_inRange (s : State) (owner : StationNo) (contributing : Bool) {e : SlotEntry} (h : e.inRange) :
    (silentEntry s owner contributing e).inRange := by
  unfold silentEntry
  split
  · exact ⟨Nat.min_le_left _ _, h.2⟩
  · exact h

theorem maintainEntry_inRange (s : State) (n : Nat) (m : Copy Block) (contributing : Bool) {e : SlotEntry} (h : e.inRange) :
    (maintainEntry s n m contributing e).inRange := by
  have cleared : ({ e with lastValid := false, silent := 0, reclaim := false } : SlotEntry).inRange := ⟨Nat.zero_le _, h.2⟩
  unfold maintainEntry
  split
  · exact h
  · dsimp only
    split
    · exact mismatchEntry_inRange _ _ cleared
    · exact cleared
  · exact cleared
  · split
    · exact ⟨Nat.zero_le _, h.2⟩
    · exact mismatchEntry_inRange (e := { e with lastValid := false }) _ _ h
  · exact silentEntry_inRange (e := { e with lastValid := false }) _ _ _ h

/-! ### Learning (R66, R68) -/

@[simp] theorem carryRuns_length (station : StationNo) (runs : List CarriedRun) (table : List LearnedEntry) :
    (carryRuns station runs table).length = table.length := by
  simp [carryRuns]

@[simp] theorem learnEpoch_table (head : BlockHeader) (L : Learning) : (learnEpoch head L).table = L.table := by
  unfold learnEpoch
  split
  · rfl
  · split <;> rfl

@[simp] theorem setLearned_table_length (n : Nat) (u : SlotUse) (L : Learning) :
    (setLearned n u L).table.length = L.table.length := by
  simp [setLearned]

@[simp] theorem learnPass_table_length (station : StationNo) (n : Nat) (m : Copy Block) (L : Learning) :
    (learnPass station n m L).table.length = L.table.length := by
  unfold learnPass
  (repeat' split) <;> simp

end Sys2Proof.Machine
end

section
/-! PROOF LAYER. Every operation of the station keeps every queue, count and table within its bounds: one lemma for each operation, composed
as the operation is. -/

namespace Sys2Proof.Machine

open Sys2Proof

/-- Every queue, count and table but the round clock's is within its bounds. -/
structure State.Fits (s : State) : Prop where
  events : s.mgmt.events.length ≤ 32
  queue : s.notices.queue.length ≤ 8
  resends : s.repair.queue.length ≤ 64
  lanes : s.lanes.Every Lane.inRange
  table : s.table.inRange
  send : s.send.Every SendEntry.inRange
  recv : s.recv.Every RecvEntry.inRange

/-! ### Changes of one block -/

/-- The queue of commands, the reset hold, the clock, the drive and the controller are not among the bounded parts. -/
theorem State.Fits.aside {s : State} {pending : List Instr} {hold : ResetHold} {clock : Clock} {drive : FieldDrive}
    {ctrl : Controller} (h : s.Fits) :
    ({ s with pending := pending, hold := hold, clock := clock, drive := drive, ctrl := ctrl } : State).Fits :=
  ⟨h.events, h.queue, h.resends, h.lanes, h.table, h.send, h.recv⟩

theorem State.Fits.withLanes {s : State} {lanes : PerLane Lane} (h : s.Fits) (hl : lanes.Every Lane.inRange) :
    ({ s with lanes := lanes } : State).Fits :=
  ⟨h.events, h.queue, h.resends, hl, h.table, h.send, h.recv⟩

theorem State.Fits.withTable {s : State} {table : SlotTable} (h : s.Fits) (ht : table.inRange) :
    ({ s with table := table } : State).Fits :=
  ⟨h.events, h.queue, h.resends, h.lanes, ht, h.send, h.recv⟩

theorem State.Fits.withNotices {s : State} {notices : NoticeEngine} (h : s.Fits) (hn : notices.queue.length ≤ 8) :
    ({ s with notices := notices } : State).Fits :=
  ⟨h.events, hn, h.resends, h.lanes, h.table, h.send, h.recv⟩

theorem State.Fits.withRepair {s : State} {repair : Repair} (h : s.Fits) (hr : repair.queue.length ≤ 64) :
    ({ s with repair := repair } : State).Fits :=
  ⟨h.events, h.queue, hr, h.lanes, h.table, h.send, h.recv⟩

theorem State.Fits.withMgmt {s : State} {mgmt : Management} (h : s.Fits) (hm : mgmt.events.length ≤ 32) :
    ({ s with mgmt := mgmt } : State).Fits :=
  ⟨hm, h.queue, h.resends, h.lanes, h.table, h.send, h.recv⟩

theorem State.Fits.withSend {s : State} {send : PerPort SendEntry} (h : s.Fits) (hs : send.Every SendEntry.inRange) :
    ({ s with send := send } : State).Fits :=
  ⟨h.events, h.queue, h.resends, h.lanes, h.table, hs, h.recv⟩

theorem State.Fits.withRecv {s : State} {recv : PerPort RecvEntry} (h : s.Fits) (hr : recv.Every RecvEntry.inRange) :
    ({ s with recv := recv } : State).Fits :=
  ⟨h.events, h.queue, h.resends, h.lanes, h.table, h.send, hr⟩

theorem State.Fits.lane {s : State} (h : s.Fits) (l : LaneId) : (s.lanes.get l).inRange := h.lanes.get l

theorem State.Fits.mapLane {s : State} {l : LaneId} {f : Lane → Lane} (h : s.Fits) (hf : ∀ x, x.inRange → (f x).inRange) :
    (s.mapLane l f).Fits :=
  h.withLanes (h.lanes.set l (hf _ (h.lane l)))

theorem State.Fits.mapEachLane {s : State} {f : Lane → Lane} (h : s.Fits) (hf : ∀ x, x.inRange → (f x).inRange) :
    ({ s with lanes := s.lanes.map f } : State).Fits :=
  h.withLanes (h.lanes.map hf)

theorem State.Fits.mapSend {s : State} {p : Port} {f : SendEntry → SendEntry} (h : s.Fits)
    (hf : (s.send.get p).inRange → (f (s.send.get p)).inRange) : (s.mapSend p f).Fits :=
  h.withSend (h.send.set p (hf (h.send.get p)))

theorem State.Fits.mapRecv {s : State} {p : Port} {f : RecvEntry → RecvEntry} (h : s.Fits)
    (hf : (s.recv.get p).inRange → (f (s.recv.get p)).inRange) : (s.mapRecv p f).Fits :=
  h.withRecv (h.recv.set p (hf (h.recv.get p)))

theorem State.Fits.mapStream {s : State} {p : Port} {f : RecvStream → RecvStream} (h : s.Fits)
    (hf : ∀ st, (s.recv.get p).stream = some st → st.gaps.length ≤ 16 → (f st).gaps.length ≤ 16) : (s.mapStream p f).Fits :=
  h.mapRecv (fun he => RecvEntry.mapStream_inRange he hf)

/-- The gap list of an open stream holds at most 16 runs. -/
theorem State.Fits.gaps {s : State} (h : s.Fits) {p : Port} {st : RecvStream} (hst : (s.recv.get p).stream = some st) :
    st.gaps.length ≤ 16 := by
  obtain ⟨-, hg⟩ := h.recv.get p
  exact hg st hst

theorem State.Fits.mapQueue {s : State} {f : List Queued → List Queued} (h : s.Fits)
    (hf : (f s.notices.queue).length ≤ s.notices.queue.length) : (s.mapQueue f).Fits :=
  h.withNotices (hf.trans h.queue)

/-- A list from which members left, each perhaps changed, is no longer than it was. -/
theorem length_map_filter_le {α : Type} (f : α → α) (p : α → Bool) (l : List α) :
    ((l.filter p).map f).length ≤ l.length := by
  simpa using List.length_filter_le p l

/-! ### Sequences of operations -/

theorem foldl_fits {α : Type} {f : State → α → State} {l : List α} {s : State} (h : s.Fits)
    (hf : ∀ t a, t.Fits → (f t a).Fits) : (l.foldl f s).Fits := by
  induction l generalizing s with
  | nil => exact h
  | cons a l ih => exact ih (hf s a h)

theorem forPorts_fits {f : Port → State → State} {s : State} (h : s.Fits) (hf : ∀ p t, t.Fits → (f p t).Fits) :
    (forPorts f s).Fits :=
  hf _ _ (hf _ _ (hf _ _ (hf _ _ h)))

theorem applyIf_fits {c : Bool} {f : State → State} {s : State} (h : s.Fits) (hf : ∀ t, t.Fits → (f t).Fits) :
    (applyIf c f s).Fits := by
  cases c
  · exact h
  · exact hf s h

theorem ite_fits {c : Prop} [Decidable c] {s t : State} (hs : c → s.Fits) (ht : ¬ c → t.Fits) : (if c then s else t).Fits := by
  split
  · exact hs (by assumption)
  · exact ht (by assumption)

/-! ### Events, lanes and drives -/

theorem giveEvent_fits {s : State} (e : Event) (h : s.Fits) : (giveEvent e s).Fits :=
  h.withMgmt (Management.push_events_length _ _ h.events)

theorem reply_fits {s : State} (code : ReplyCode) (content : ReplyContent) (h : s.Fits) : (reply code content s).Fits :=
  h.withMgmt h.events

theorem countFramed_fits {s : State} (l : LaneId) (h : s.Fits) : (countFramed l s).Fits := by
  unfold countFramed
  split
  · exact h.mapLane (fun _ => Lane.countViolations_inRange 1)
  · exact h

theorem beginField_fits {s : State} (t : Nat) (h : s.Fits) : (beginField t s).Fits :=
  (h.mapEachLane (f := Lane.beginField t) (fun _ hx => hx)).aside

theorem driveOn_fits {s : State} (test : Lane → Bool) (c : DriveContent) (h : s.Fits) : (driveOn test c s).Fits :=
  (h.mapEachLane (f := fun l => if test l then { l with drive := .driving, drove := true } else l)
    (fun _ hx => by split <;> exact hx)).aside

theorem contendOn_fits {s : State} (test : LaneId → Bool) (field : LeadInField) (v : BitVec 7) (h : s.Fits) :
    (contendOn test field v s).Fits := by
  have go : ∀ (c : Bool) (x : Lane), x.inRange → (if c then { x with drive := .contending, drove := true } else x).inRange := by
    intro c x hx
    cases c <;> exact hx
  unfold contendOn
  dsimp only
  split
  · exact (h.withLanes ⟨go _ _ h.lanes.1, go _ _ h.lanes.2⟩).aside
  · exact h

theorem driveMark_fits {s : State} (h : s.Fits) : (driveMark s).Fits := (driveOn_fits _ _ h).aside

theorem cutDrives_fits {s : State} (h : s.Fits) : ({ s with lanes := s.lanes.map Lane.cutDrive } : State).Fits :=
  h.mapEachLane (fun _ => Lane.cutDrive_inRange)

theorem dropTurn_fits {s : State} (h : s.Fits) : (dropTurn s).Fits := by
  unfold dropTurn
  split
  · have cut : (if s.drive.content.isResend then s.lanes.map Lane.cutDrive else s.lanes).Every Lane.inRange := by
      split
      · exact h.lanes.map (fun _ => Lane.cutDrive_inRange)
      · exact h.lanes
    exact (h.withRepair (repair := { s.repair with turn := false }) h.resends).withLanes cut
  · exact h

theorem dropTurnIfMute_fits {s : State} (h : s.Fits) : (dropTurnIfMute s).Fits :=
  ite_fits (fun _ => h) (fun _ => dropTurn_fits h)

/-! ### The outgoing notice queue and the send entries -/

theorem offer_fits {s : State} (q : Queued) (h : s.Fits) : (offer q s).Fits := by
  have hq := offer_queue_length q s h.queue
  unfold offer at hq ⊢
  split
  · next hc =>
    rw [if_pos hc] at hq
    exact h.withNotices hq
  · exact h

theorem withdrawAsk_fits {s : State} (p : Port) (h : s.Fits) : (withdrawAsk p s).Fits :=
  h.withNotices ((length_map_filter_le _ _ _).trans h.queue)

theorem dropResend_fits {s : State} (tag : Tag) (q : Seq) (h : s.Fits) : (dropResend tag q s).Fits :=
  h.withRepair ((List.length_filter_le _ _).trans h.resends)

theorem closeSend_fits {s : State} (p : Port) (h : s.Fits) : (closeSend p s).Fits := by
  unfold closeSend
  exact State.Fits.mapSend (h.withRepair ((List.length_filter_le _ _).trans h.resends))
    (fun _ => SendEntry.inRange_of_empty rfl rfl)

theorem offerRelease_fits {s : State} (p : Port) (h : s.Fits) : (offerRelease p s).Fits := by
  unfold offerRelease
  split
  · exact h
  · exact (offer_fits _ h).mapSend (fun he => he.of_places rfl rfl)

theorem claimCommitted_fits {s : State} (p : Port) (q : Queued) (outcome : OutcomeRecord) (atRoundStart : Bool) (h : s.Fits) :
    (claimCommitted p q outcome atRoundStart s).Fits := by
  unfold claimCommitted
  dsimp only
  split
  · exact giveEvent_fits _ (h.mapSend (fun he => he.of_places rfl rfl))
  · have taken : (s.mapSend p (fun e => { e with
        claimRun := if atRoundStart then none else some q.run, slotRun := if atRoundStart then some q.run else none,
        releaseDue := true })).Fits := h.mapSend (fun he => he.of_places rfl rfl)
    exact ite_fits (fun _ => offerRelease_fits p taken) (fun _ => taken)
  all_goals exact h

theorem claimRefused_fits {s : State} (p : Port) (reason : RefuseReason) (outcome : OutcomeRecord) (h : s.Fits) :
    (claimRefused p reason outcome s).Fits := by
  unfold claimRefused
  split
  · exact giveEvent_fits _ (closeSend_fits p h)
  · exact giveEvent_fits _ (closeSend_fits p h)
  all_goals exact h

theorem claimNotCommitted_fits {s : State} (p : Port) (outcome : OutcomeRecord) (h : s.Fits) :
    (claimNotCommitted p outcome s).Fits := by
  unfold claimNotCommitted
  split
  · exact giveEvent_fits _ (closeSend_fits p h)
  all_goals exact h

theorem withdrawnEnds_fits {s : State} (q : Queued) (outcome : OutcomeRecord) (h : s.Fits) :
    (withdrawnEnds q outcome s).Fits := by
  unfold withdrawnEnds
  split
  · exact claimNotCommitted_fits _ _ h
  · exact h

/-! ### The flight of a notice -/

theorem clearFlight_fits {s : State} (h : s.Fits) : (clearFlight s).Fits :=
  h.withNotices (by simpa using h.queue)

theorem removeInFlight_fits {s : State} (h : s.Fits) : (removeInFlight s).Fits :=
  h.withNotices ((List.length_filter_le _ _).trans h.queue)

theorem endFlightLost_fits {s : State} (h : s.Fits) : (endFlightLost s).Fits := by
  unfold endFlightLost
  split
  · exact clearFlight_fits h
  · exact ite_fits (fun _ => withdrawnEnds_fits _ _ (removeInFlight_fits h)) (fun _ => clearFlight_fits h)

theorem dropPlan_fits {s : State} (h : s.Fits) : (dropPlan s).Fits := h.withNotices h.queue

theorem dropAnswer_fits {s : State} (h : s.Fits) : (dropAnswer s).Fits := h.withNotices h.queue

theorem carryPending_fits {s : State} (h : s.Fits) : (carryPending s).Fits := by
  unfold carryPending
  split
  · exact h
  · next L hL =>
    refine h.withTable (h.table.withLearning (fun K hK => ?_))
    obtain rfl := Option.some.inj hK
    obtain ⟨-, -, -, -, hlen⟩ := h.table
    simpa using hlen L hL

theorem recordSent_fits {s : State} (h : s.Fits) : (recordSent s).Fits := by
  unfold recordSent
  split
  · exact h.withNotices (by simpa using h.queue)
  · exact h

theorem endFlightUnanswered_fits {s : State} (h : s.Fits) : (endFlightUnanswered s).Fits := by
  unfold endFlightUnanswered
  split
  · exact clearFlight_fits h
  · split
    · exact removeInFlight_fits h
    · exact carryPending_fits (clearFlight_fits (h.mapQueue (by simp)))
    all_goals exact clearFlight_fits h

theorem recordUnread_fits {s : State} (h : s.Fits) : (recordUnread s).Fits := h.withNotices h.queue

theorem endFlightOnLeaving_fits {s : State} (h : s.Fits) : (endFlightOnLeaving s).Fits :=
  dropPlan_fits (ite_fits (fun _ => endFlightUnanswered_fits (recordUnread_fits (recordSent_fits h)))
    (fun _ => endFlightLost_fits h))

/-! ### Learning and mode changes -/

theorem changeMode_fits {s : State} (m : Mode) (cause : ModeCause) (h : s.Fits) : (changeMode m cause s).Fits :=
  giveEvent_fits _ (ite_fits (c := (m == .joined) = true) (fun _ => h) (fun _ => dropTurn_fits h)).aside

theorem beginLearning_fits {s : State} (epoch : Option Epoch) (runs : List CarriedRun) (h : s.Fits) :
    (beginLearning epoch runs s).Fits := by
  refine h.withTable (h.table.withLearning (fun L hL => ?_))
  obtain rfl := Option.some.inj hL
  simp

theorem discardLearning_fits {s : State} (h : s.Fits) : (discardLearning s).Fits :=
  h.withTable (h.table.withLearning (fun _ hL => nomatch hL))

theorem enterResync_fits {s : State} (cause : ModeCause) (epoch : Epoch) (h : s.Fits) : (enterResync cause epoch s).Fits :=
  beginLearning_fits _ _ (changeMode_fits _ _ h)

theorem enterDark_fits {s : State} (returnMode : Mode) (h : s.Fits) : (enterDark returnMode s).Fits :=
  (changeMode_fits .dark .darkOnset (endFlightOnLeaving_fits (discardLearning_fits h))).aside

theorem darkOnset_fits {s : State} (h : s.Fits) : (darkOnset s).Fits := by
  unfold darkOnset
  split
  iterate 3 exact enterDark_fits _ h
  all_goals exact h

theorem darkEnd_fits {s : State} (h : s.Fits) : (darkEnd s).Fits := by
  have back : ({ s with ctrl := { s.ctrl with darkRounds := none, returnMode := none } } : State).Fits := h.aside
  unfold darkEnd
  split
  · dsimp only
    split
    · exact ite_fits (fun _ => changeMode_fits _ _ back) (fun _ => enterResync_fits _ _ back)
    · exact enterResync_fits _ _ back
    · exact (changeMode_fits _ _ back).aside
  all_goals exact h

theorem enterFaulted_fits {s : State} (reason : FaultReason) (cause : ModeCause) (h : s.Fits) :
    (enterFaulted reason cause s).Fits := by
  unfold enterFaulted
  refine giveEvent_fits _ (State.Fits.aside (changeMode_fits _ _ ?_))
  exact (cutDrives_fits (endFlightOnLeaving_fits (discardLearning_fits h))).aside

theorem testEpoch_fits {s : State} (e : Epoch) (h : s.Fits) : (testEpoch e s).Fits :=
  ite_fits (fun _ => enterResync_fits _ _ h) (fun _ => h)

theorem hear_fits {s : State} (n : StationNo) (h : s.Fits) : (hear n s).Fits := by
  obtain ⟨-, -, hn, ha, -⟩ := h.table
  refine h.withTable (h.table.withHeard (by simpa using hn) (fun age hage => ?_))
  rcases List.mem_or_eq_of_mem_set hage with hm | rfl
  · exact ha age hm
  · exact Nat.zero_le _

/-! ### Lane states -/

theorem laneChanged_fits {s : State} (wasDark : Bool) (h : s.Fits) : (laneChanged wasDark s).Fits := by
  have mute := dropTurnIfMute_fits h
  exact ite_fits (fun _ => darkOnset_fits mute) (fun _ => ite_fits (fun _ => darkEnd_fits mute) (fun _ => mute))

theorem enterSurge_fits {s : State} (l : LaneId) (cause : SurgeCause) (h : s.Fits) : (enterSurge l cause s).Fits :=
  laneChanged_fits _ (giveEvent_fits _ (h.mapLane (fun _ => Lane.surge_inRange _ _)))

theorem enterSettling_fits {s : State} (l : LaneId) (h : s.Fits) : (enterSettling l s).Fits :=
  laneChanged_fits _ (giveEvent_fits _ (h.mapLane (fun _ => Lane.settle_inRange _)))

theorem enterUsable_fits {s : State} (l : LaneId) (new : LaneState) (h : s.Fits) : (enterUsable l new s).Fits := by
  refine giveEvent_fits _ (h.mapLane (fun x hx => ?_))
  obtain ⟨hw, hv, hr, -, -, -, rest⟩ := hx
  exact ⟨hw, hv, hr, Nat.zero_le _, Nat.zero_le _, Nat.zero_le _, rest⟩

theorem changeCause_fits {s : State} (l : LaneId) (cause : SurgeCause) (h : s.Fits) : (changeCause l cause s).Fits :=
  giveEvent_fits _ (h.mapLane (fun _ hx => hx))

theorem settleExit_fits {s : State} (l : LaneId) (h : s.Fits) : (settleExit l s).Fits :=
  ite_fits (fun _ => enterUsable_fits _ _ h) (fun _ => h)

/-! ### Changes of the live table -/

theorem checkSend_fits {s : State} (p : Port) (h : s.Fits) : (checkSend p s).Fits := by
  have closes : ∀ e, (giveEvent e (closeSend p s)).Fits := fun e => giveEvent_fits e (closeSend_fits p h)
  unfold checkSend
  dsimp only
  split
  iterate 3
    · split
      · exact ite_fits (fun _ => h) (fun _ => closes _)
      · exact h
  all_goals exact h

theorem checkRecv_fits {s : State} (p : Port) (h : s.Fits) : (checkRecv p s).Fits := by
  unfold checkRecv
  split
  · exact h
  · refine ite_fits (fun _ => giveEvent_fits _ (withdrawAsk_fits p (h.mapStream (fun _ _ _ => Nat.zero_le _)))) (fun _ => ?_)
    exact ite_fits (fun _ => giveEvent_fits _ (h.mapStream (fun _ _ hg => hg))) (fun _ => h)

theorem tableChanged_fits {s : State} (sendFirst : Bool) (h : s.Fits) : (tableChanged sendFirst s).Fits :=
  ite_fits (fun _ => forPorts_fits (forPorts_fits h (fun p _ => checkSend_fits p)) (fun p _ => checkRecv_fits p))
    (fun _ => forPorts_fits (forPorts_fits h (fun p _ => checkRecv_fits p)) (fun p _ => checkSend_fits p))

theorem commitChange_fits {s : State} (t : Tentative) (h : s.Fits) : (commitChange t s).Fits :=
  h.withTable (h.table.withMapIdx (fun _ _ he => by split; exacts [SlotEntry.fresh_inRange _, he]))

/-! ### Time within a round -/

theorem endNoticeBody_fits {s : State} (h : s.Fits) : (endNoticeBody s).Fits := by
  unfold endNoticeBody
  split
  · exact h.withNotices h.queue
  · exact h

theorem startAnswer_fits {s : State} (h : s.Fits) : (startAnswer s).Fits := driveOn_fits _ _ h

theorem endAnswer_fits {s : State} (h : s.Fits) : (endAnswer s).Fits :=
  (h.mapEachLane (f := fun l => { l with drive := .notDriving }) (fun _ hx => hx)).aside

theorem startRepairLeadIn_fits {s : State} (h : s.Fits) : (startRepairLeadIn s).Fits := by
  have field := beginField_fits Config.repairLeadInAt h
  unfold startRepairLeadIn
  dsimp only
  split
  · exact field
  · exact ite_fits (fun _ => contendOn_fits _ _ _ field) (fun _ => field)

theorem startSlotDrive_fits {s : State} (h : s.Fits) : (startSlotDrive s).Fits := by
  unfold startSlotDrive
  split
  · exact h
  · next n b _ =>
    by_cases goes : (if b.header.resend then s.repair.turn else s.ctrl.mode == .joined) = true
    · rw [if_pos goes]
      exact (driveOn_fits Lane.entered (.block b) h).aside
    · rw [if_neg goes]
      exact h

theorem passMoments_fits {s : State} (crossed : Nat → Bool) (h : s.Fits) : (passMoments crossed s).Fits := by
  unfold passMoments
  refine applyIf_fits (applyIf_fits (applyIf_fits (applyIf_fits (applyIf_fits h ?_) ?_) ?_) ?_) ?_
  · exact fun _ => endNoticeBody_fits
  · exact fun _ => startAnswer_fits
  · exact fun _ => endAnswer_fits
  · exact fun _ => startRepairLeadIn_fits
  · exact fun _ => startSlotDrive_fits

theorem reach_fits {s : State} (r : Nat) (h : s.Fits) : (reach r s).Fits := by
  unfold reach
  refine ite_fits (fun _ => h) (fun _ => ?_)
  exact ((passMoments_fits _ h).mapEachLane
    (fun _ hx => Lane.countTicks_inRange _ (Lane.passRun_inRange _ (dropStale_inRange _ hx)))).aside

theorem atEvent_fits {s : State} (k : Nat) (h : s.Fits) : (atEvent k s).Fits := (reach_fits _ h).aside

theorem tellLevels_fits {s : State} (a b : LevelShown) (h : s.Fits) : (tellLevels a b s).Fits :=
  h.withLanes ⟨Lane.tell_inRange a h.lanes.1, Lane.tell_inRange b h.lanes.2⟩

end Sys2Proof.Machine
end

section
/-! PROOF LAYER. The receive engine, the steps of a round start and the round clock keep every queue, count and table within its bounds. -/

namespace Sys2Proof.Machine

open Sys2Proof

/-! ### The receive engine -/

theorem takeCurrent_fits {s : State} (p : Port) (b : Block) (a : Anchor) (st : RecvStream) (h : s.Fits) :
    (takeCurrent p b a st s).Fits := by
  unfold takeCurrent
  dsimp only
  refine ite_fits (fun _ => ite_fits (fun _ => ?_) (fun _ => ite_fits (fun _ => ?_) (fun _ => h))) (fun _ => ?_)
  · exact h.mapStream (fun x _ hg => RecvStream.addManyMissing_gaps _ _ _ x hg)
  · exact giveEvent_fits _ (h.mapStream (fun _ _ hg => hg))
  · exact ite_fits (fun _ => h.mapStream (fun x _ hg => RecvStream.fill_gaps a b x hg)) (fun _ => h)

theorem rebase_fits {s : State} (p : Port) (b : Block) (a : Anchor) (st : RecvStream) (h : s.Fits) :
    (rebase p b a st s).Fits :=
  giveEvent_fits _ (withdrawAsk_fits p (h.mapStream (fun _ _ _ => Nat.zero_le _)))

theorem takeStanding_fits {s : State} (p : Port) (b : Block) (h : s.Fits) : (takeStanding p b s).Fits := by
  unfold takeStanding
  split
  · exact h
  · split
    · exact h
    · exact takeCurrent_fits _ _ _ _ h

theorem takeBlock_fits {s : State} (p : Port) (b : Block) (h : s.Fits) : (takeBlock p b s).Fits := by
  unfold takeBlock
  split
  · exact h
  · split
    · exact takeStanding_fits _ _ (h.mapStream (fun _ _ hg => hg))
    · exact takeStanding_fits _ _ (ite_fits (fun _ => h) (fun _ => rebase_fits _ _ _ _ h))

theorem markMissing_fits {s : State} (p : Port) (h : s.Fits) : (markMissing p s).Fits := by
  refine h.mapStream (fun st _ hg => ?_)
  split
  · split
    · exact joinGap_length _ _ hg
    · exact hg
  · exact hg

theorem takeResent_fits {s : State} (b : Block) (p : Port) (h : s.Fits) : (takeResent b p s).Fits := by
  refine h.mapStream (fun st _ hg => ?_)
  split
  · split
    · exact RecvStream.fill_gaps _ _ _ hg
    · exact hg
  · exact hg

theorem takeResents_fits {s : State} (m : Copy Block) (h : s.Fits) : (takeResents m s).Fits := by
  cases m with
  | valid b => exact forPorts_fits h (fun p _ => takeResent_fits b p)
  | erased => exact h
  | idle => exact h

theorem servePass_fits {s : State} (n : Nat) (m : Copy Block) (p : Port) (h : s.Fits) : (servePass n m p s).Fits := by
  unfold servePass
  split
  · exact h
  · split
    · split
      · split
        · exact ite_fits (fun _ => takeBlock_fits _ _ h) (fun _ => markMissing_fits p h)
        all_goals exact markMissing_fits p h
      · exact h
    all_goals exact h

theorem handItem_fits {s : State} (p : Port) (seq : Seq) (item : OutItem) (h : s.Fits) : (handItem p seq item s).Fits := by
  unfold handItem
  dsimp only
  split
  · next hroom =>
    refine h.mapRecv (fun he => ⟨?_, he.2⟩)
    unfold Config.fifoSize at hroom
    simpa using hroom
  · exact ite_fits (fun _ => h) (fun _ => giveEvent_fits _ (h.mapRecv (fun he => he)))

theorem playPlace_fits {s : State} (p : Port) (pl : Place) (h : s.Fits) : (playPlace p pl s).Fits := by
  unfold playPlace
  split
  · exact h
  all_goals exact handItem_fits _ _ _ h

theorem playout_fits {s : State} (p : Port) (h : s.Fits) : (playout p s).Fits := by
  unfold playout
  split
  · exact h
  · split
    · exact h
    · refine foldl_fits (foldl_fits (h.mapStream (fun st _ hg => gapsAfter_length _ _ _ hg)) ?_) ?_
      · exact fun _ pl => playPlace_fits p pl
      · exact fun _ _ => giveEvent_fits _

theorem askRepairs_fits {s : State} (h : s.Fits) : (askRepairs s).Fits := by
  unfold askRepairs
  refine ite_fits (fun _ => h) (fun _ => ?_)
  split
  · exact offer_fits _ h
  · exact h

theorem endWaits_fits {s : State} (p : Port) (h : s.Fits) : (endWaits p s).Fits := by
  unfold endWaits
  split
  · exact h
  · next st hst =>
    refine foldl_fits (h.mapStream (fun _ _ _ => ?_)) (fun _ _ => giveEvent_fits _)
    exact (length_map_filter_le _ _ st.gaps).trans (h.gaps hst)

theorem askAccepted_fits {s : State} (p : Port) (first : Seq) (count : Nat) (h : s.Fits) :
    (askAccepted p first count s).Fits :=
  h.mapStream (fun _ _ hg => by simpa using hg)

theorem askGone_fits {s : State} (p : Port) (first : Seq) (count : Nat) (h : s.Fits) : (askGone p first count s).Fits :=
  giveEvent_fits _ (h.mapStream (fun _ _ hg => (List.length_filter_le _ _).trans hg))

/-! ### The steps of a round start -/

theorem monitorRound_fits {s : State} (l : LaneId) (h : s.Fits) : (monitorRound l s).Fits := by
  have counted : (s.mapLane l Lane.roundStart).Fits := h.mapLane (fun _ => Lane.roundStart_inRange)
  exact ite_fits (fun _ => giveEvent_fits _ counted) (fun _ => counted)

theorem ageHeard_fits {s : State} (h : s.Fits) : (ageHeard s).Fits := by
  obtain ⟨-, -, hn, -⟩ := h.table
  refine h.withTable (h.table.withHeard (by simpa using hn) (fun age hage => ?_))
  obtain ⟨x, -, rfl⟩ := List.mem_map.mp hage
  exact Nat.min_le_left _ _

theorem endStarting_fits {s : State} (h : s.Fits) : (endStarting s).Fits := by
  have t : ({ s with ctrl := { s.ctrl with startCount := none } } : State).Fits := h.aside
  exact ite_fits (fun _ => enterFaulted_fits _ _ t)
    (fun _ => ite_fits (fun _ => enterDark_fits _ t) (fun _ => (changeMode_fits .listening .startDone t).aside))

theorem setAllOpen_fits {s : State} (h : s.Fits) : (setAllOpen s).Fits := by
  obtain ⟨hn, -, hh, ha, -⟩ := h.table
  refine h.withTable ⟨by simpa using hn, fun e he => ?_, hh, ha, fun _ hL => nomatch hL⟩
  obtain ⟨x, -, rfl⟩ := List.mem_map.mp he
  exact SlotEntry.fresh_inRange _

theorem reachAloneLimit_fits {s : State} (sendFirst : Bool) (h : s.Fits) : (reachAloneLimit sendFirst s).Fits :=
  changeMode_fits _ _ (tableChanged_fits _ (setAllOpen_fits h).aside)

theorem countRounds_fits {s : State} (ctx : RoundCtx) (h : s.Fits) : (countRounds ctx s).Fits := by
  unfold countRounds
  split
  · exact ite_fits (fun _ => endStarting_fits h.aside) (fun _ => h.aside)
  · split
    · refine ite_fits (fun _ => ?_) (fun _ => h)
      exact ite_fits (fun _ => reachAloneLimit_fits _ h.aside) (fun _ => h.aside)
    · exact h
  · exact h.aside
  all_goals exact h

theorem replaceTable_fits {s : State} (L : Learning) (hL : L.table.length = 24) (h : s.Fits) : (replaceTable L s).Fits := by
  obtain ⟨-, -, hh, ha, -⟩ := h.table
  refine giveEvent_fits _ (h.withTable ⟨by simpa using hL, fun e he => ?_, hh, ha, fun _ hL => nomatch hL⟩)
  obtain ⟨n, hn, rfl⟩ := List.mem_mapIdx.mp he
  exact SlotEntry.fresh_inRange _

theorem settlePending_fits {s : State} (h : s.Fits) : (settlePending s).Fits := by
  have without : (s.mapQueue (fun l => l.filter (fun x => !x.pending))).Fits := h.mapQueue (List.length_filter_le _ _)
  unfold settlePending
  split
  · exact h
  · refine ite_fits (fun _ => ?_) (fun _ => ite_fits (fun _ => withdrawnEnds_fits _ _ without) (fun _ => h.mapQueue (by simp)))
    split
    · exact claimCommitted_fits _ _ _ _ without
    all_goals exact without

theorem warmRejoin_fits {s : State} (h : s.Fits) : (warmRejoin s).Fits := by
  refine ite_fits (fun _ => State.Fits.aside (foldl_fits h (fun t r ht => ?_))) (fun _ => h)
  exact ht.mapSend (fun _ => SendEntry.inRange_of_empty rfl rfl)

theorem formOrphans_fits {s : State} (h : s.Fits) : (formOrphans s).Fits := h.aside

theorem completeLearning_fits {s : State} (ctx : RoundCtx) (L : Learning) (hL : L.table.length = 24) (h : s.Fits) :
    (completeLearning ctx L s).Fits := by
  have settled := settlePending_fits (tableChanged_fits ctx.sendFirst (replaceTable_fits L hL h))
  exact changeMode_fits _ _ (ite_fits (fun _ => (formOrphans_fits (warmRejoin_fits settled)).aside) (fun _ => settled))

theorem learnRound_fits {s : State} (ctx : RoundCtx) (h : s.Fits) : (learnRound ctx s).Fits := by
  unfold learnRound
  split
  · exact h
  · next L hL =>
    obtain ⟨-, -, -, -, hlen⟩ := h.table
    refine ite_fits (fun _ => completeLearning_fits _ _ (hlen L hL) h) (fun _ => h.withTable (h.table.withLearning (fun K hK => ?_)))
    obtain rfl := Option.some.inj hK
    exact hlen L hL

theorem takeRuns_fits {s : State} (p : Port) (h : s.Fits) : (takeRuns p s).Fits := by
  have taken : (s.mapSend p SendEntry.takeSlotRun).Fits := h.mapSend SendEntry.takeSlotRun_inRange
  unfold takeRuns
  split
  · exact taken
  · exact ite_fits (fun _ => offerRelease_fits p taken) (fun _ => h)
  all_goals exact h

theorem heldRound_fits {s : State} (p : Port) (h : s.Fits) : (heldRound p s).Fits := by
  unfold heldRound
  dsimp only
  split
  · refine ite_fits (fun _ => h.mapSend (fun he => he)) (fun _ => ?_)
    exact giveEvent_fits _ (offerRelease_fits p (h.mapSend (fun he => he)))
  · exact h

theorem offerReclaim_fits {s : State} (rk : Run × StationNo × Tag) (h : s.Fits) : (offerReclaim s rk).Fits := by
  have offered := offer_fits (reclaimNotice rk.2.1 rk.2.2 rk.1) h
  refine ite_fits (fun _ => offered.withTable (offered.table.withMapIdx (fun n e he => ?_))) (fun _ => h)
  split <;> exact he

theorem offerReclaims_fits {s : State} (h : s.Fits) : (offerReclaims s).Fits :=
  foldl_fits h (fun _ rk => offerReclaim_fits rk)

theorem refuseQueued_fits {s : State} (reason : RefuseReason) (q : Queued) (h : s.Fits) :
    (refuseQueued reason s q).Fits := by
  unfold refuseQueued
  split
  · exact claimRefused_fits _ _ _ h
  all_goals exact h

theorem limitClaims_fits {s : State} (h : s.Fits) : (limitClaims s).Fits :=
  foldl_fits (h.mapQueue (List.length_filter_le _ _)) (fun _ q => refuseQueued_fits _ q)

theorem aimHead_fits {s : State} (q : Queued) (first : BitVec 16) (count : BitVec 5) (h : s.Fits) :
    (aimHead q first count s).Fits := by
  have aimed : (s.mapQueue (fun l =>
      match l with
      | [] => []
      | x :: rest => { x with first := first, count := count } :: rest)).Fits :=
    h.mapQueue (by cases s.notices.queue <;> simp)
  unfold aimHead
  dsimp only
  split
  · exact aimed.mapSend (fun he => he)
  · exact aimed

theorem revalidate_fits {s : State} (fuel : Nat) (h : s.Fits) : (revalidate fuel s).Fits := by
  induction fuel generalizing s with
  | zero => exact h
  | succ fuel ih =>
    have shorter : (s.mapQueue List.tail).Fits := h.mapQueue (by simp)
    unfold revalidate
    split
    · exact h
    · split
      · exact h
      · exact aimHead_fits _ _ _ h
      · exact ih (ite_fits (fun _ => refuseQueued_fits _ _ shorter) (fun _ => shorter))

theorem selectNotice_fits {s : State} (h : s.Fits) : (selectNotice s).Fits := by
  unfold selectNotice
  split
  · exact h
  · next q rest hq =>
    have hlen := h.queue
    rw [hq] at hlen
    exact h.withNotices (by simpa using hlen)

theorem dealOrphan_fits {s : State} (o : Orphan) (h : s.Fits) : (dealOrphan s o).Fits :=
  ite_fits (fun _ => ite_fits (fun _ => h.aside) (fun _ => offer_fits _ h)) (fun _ => h)

theorem dealOrphans_fits {s : State} (h : s.Fits) : (dealOrphans s).Fits :=
  foldl_fits h.aside (fun _ o => dealOrphan_fits o)

theorem rewriteContext_fits {s : State} (h : s.Fits) : (rewriteContext s).Fits := h.aside

theorem roundStep_fits {s : State} (ctx : RoundCtx) (step : RoundStep) (h : s.Fits) : (roundStep ctx s step).Fits := by
  cases step with
  | monitors => exact monitorRound_fits .b (monitorRound_fits .a h)
  | heard => exact ageHeard_fits h
  | playout => exact forPorts_fits h (fun p _ => playout_fits p)
  | askWaits => exact forPorts_fits h (fun p _ => endWaits_fits p)
  | counts => exact countRounds_fits ctx h
  | learning => exact learnRound_fits ctx h
  | runs => exact forPorts_fits h (fun p _ => takeRuns_fits p)
  | held => exact applyIf_fits h (fun _ ht => forPorts_fits ht (fun p _ => heldRound_fits p))
  | reclaims => exact applyIf_fits h (fun _ => offerReclaims_fits)
  | asker => exact applyIf_fits h (fun _ => askRepairs_fits)
  | claimLimit => exact applyIf_fits h (fun _ => limitClaims_fits)
  | revalidate => exact applyIf_fits h (fun _ => revalidate_fits _)
  | select => exact applyIf_fits h (fun _ => selectNotice_fits)
  | orphans => exact dealOrphans_fits h
  | rewrite => exact applyIf_fits h (fun _ => rewriteContext_fits)

theorem openRound_fits {s : State} (t : Nat) (h : s.Fits) : (openRound t s).Fits := by
  have crossed := h.mapEachLane (f := Lane.crossRound t) (fun _ => Lane.crossRound_inRange t)
  have sent := (crossed.withNotices (notices := { s.notices with sentNotice := false }) h.queue).withRepair
    (repair := { s.repair with turn := false }) h.resends
  exact beginField_fits 0
    (State.Fits.aside (sent.withSend (h.send.map (f := fun e => { e with served := none }) (fun _ he => he))))

theorem startRound_fits {s : State} (order : RoundOrder) (expiry : Bool) (t : Nat) (h : s.Fits) :
    (startRound order expiry t s).Fits :=
  foldl_fits (openRound_fits t h) (fun _ step => roundStep_fits _ step)

/-! ### The round clock -/

theorem expire_fits {s : State} (order : RoundOrder) (h : s.Fits) : (expire order s).Fits := by
  have started := startRound_fits order true Config.roundUnits (reach_fits Config.roundUnits h)
  exact ite_fits (fun _ => driveMark_fits started) (fun _ => started.aside)

theorem startAtEdge_fits {s : State} (l : LaneId) (r : Nat) (order : RoundOrder) (h : s.Fits) :
    (startAtEdge l r order s).Fits := by
  have risen : ((reach r s).mapLane l Lane.beginRun).Fits := (reach_fits r h).mapLane (fun _ => Lane.beginRun_inRange)
  exact (startRound_fits order false r risen.aside).aside

theorem realign_fits {s : State} (l : LaneId) (r : Nat) (h : s.Fits) : (realign l r s).Fits := by
  have risen : ((reach r s).mapLane l Lane.beginRun).Fits := (reach_fits r h).mapLane (fun _ => Lane.beginRun_inRange)
  exact beginField_fits 0 risen.aside

theorem countMark_fits {s : State} (valid : Bool) (h : s.Fits) : (countMark valid s).Fits := h.aside

theorem monitorMark_fits {s : State} (l : LaneId) (copy : Copy Unit) (h : s.Fits) : (monitorMark l copy s).Fits :=
  ite_fits (fun _ => settleExit_fits _ (h.mapLane (fun _ => Lane.countMarkCopy_inRange copy))) (fun _ => h)

theorem listenMark_fits {s : State} (valid : Bool) (h : s.Fits) : (listenMark valid s).Fits := by
  unfold listenMark
  refine ite_fits (fun _ => ?_) (fun _ => h)
  have counted : (if valid then { s with ctrl := { s.ctrl with alone := some 0 } } else s : State).Fits :=
    ite_fits (fun _ => h.aside) (fun _ => h)
  exact ite_fits (fun _ => beginLearning_fits _ _ counted.aside) (fun _ => counted)

theorem contendNotice_fits {s : State} (lanes : PerLane Lane) (h : s.Fits) : (contendNotice lanes s).Fits := by
  unfold contendNotice
  split
  · exact ite_fits (fun _ => contendOn_fits _ _ _ h) (fun _ => h)
  · exact h

theorem closeMark_fits {s : State} (a b : Copy Unit) (leadInFirst : Bool) (h : s.Fits) : (closeMark a b leadInFirst s).Fits :=
  contendNotice_fits _ (beginField_fits _ (listenMark_fits _ (monitorMark_fits .b b (monitorMark_fits .a a
    (countMark_fits _ h)))))

theorem takeMarks_fits {s : State} (a b : MarkReading) (leadInFirst : Bool) (h : s.Fits) : (takeMarks a b leadInFirst s).Fits :=
  closeMark_fits _ _ _ (tellLevels_fits _ _ h)

theorem reportAnswersLost_fits {s : State} (h : s.Fits) : (reportAnswersLost s).Fits :=
  ite_fits (fun _ => enterResync_fits _ _ h) (fun _ => h)

theorem loseAnswers_fits {s : State} (h : s.Fits) : (loseAnswers s).Fits := by
  have unread : (recordUnread { s with notices := { s.notices with tentative := none } }).Fits :=
    recordUnread_fits (h.withNotices h.queue)
  exact applyIf_fits (ite_fits (fun _ => endFlightUnanswered_fits unread) (fun _ => endFlightLost_fits unread))
    (fun _ => reportAnswersLost_fits)

theorem cutShort_fits {s : State} (h : s.Fits) : (cutShort s).Fits :=
  dropAnswer_fits (ite_fits (fun _ => loseAnswers_fits (recordSent_fits h)) (fun _ => endFlightLost_fits h))

theorem adopt_fits {s : State} (x : Search) (h : s.Fits) : (adopt x s).Fits := by
  have closed := h.mapEachLane (f := fun l => { l with search := none })
    (fun _ hl => hl.withSearch (fun _ hy => nomatch hy))
  exact closed.aside

theorem tellAdoption_fits {s : State} (l : LaneId) (second : MarkReading) (h : s.Fits) : (tellAdoption l second s).Fits :=
  (h.mapLane (fun _ => Lane.tell_inRange _)).mapLane (fun _ => Lane.tell_inRange _)

theorem adoptMark_fits {s : State} (l : LaneId) (x : Search) (second : MarkReading) (leadInFirst : Bool) (order : RoundOrder)
    (h : s.Fits) : (adoptMark l x second leadInFirst order s).Fits := by
  have told := tellAdoption_fits l second (reach_fits x.completesAt h)
  have started := adopt_fits x (ite_fits (c := x.crossed = true) (fun _ => told)
    (fun _ => startRound_fits order false (tellAdoption l second (reach x.completesAt s)).clock.timer (cutShort_fits told)))
  cases l
  · exact closeMark_fits _ _ _ started
  · exact closeMark_fits _ _ _ started

end Sys2Proof.Machine
end

section
/-! PROOF LAYER. Slots, lead-ins, requests, monitors, notices, ports and resets keep every queue, count and table within its bounds; what
each keeps of the round clock; and that every step keeps all bounds (O58), which the state after reset meets. -/

namespace Sys2Proof.Machine

open Sys2Proof

/-! ### The repair window and the slots -/

theorem handOver_fits {s : State} (n : Nat) (b : Block) (h : s.Fits) : (handOver n b s).Fits := h.aside

theorem buildBlock_fits {s : State} (n : Nat) (p : Port) (h : s.Fits) : (buildBlock n p s).Fits := by
  have served : (s.mapSend p (fun e => { e with served := some n })).Fits := h.mapSend (fun he => he)
  have taken : ((s.mapSend p (fun e => { e with served := some n })).mapSend p (fun x =>
      { x with ring := ringWrite (s.send.get p) (newBlock (s.send.get p)), fifo := fifoAfter (s.send.get p) })).Fits := by
    refine served.mapSend (fun _ => ?_)
    simp only [State.mapSend_send, PerPort.get_set_same]
    exact SendEntry.inRange.of_fifoAfter (h.send.get p) rfl rfl
  unfold buildBlock
  refine ite_fits (fun _ => ?_) (fun _ => handOver_fits _ _ served)
  split
  · exact ite_fits (fun _ => handOver_fits _ _ served) (fun _ => handOver_fits _ _ (dropResend_fits _ _ taken))
  · exact handOver_fits _ _ taken

theorem handResend_fits {s : State} (n : Nat) (h : s.Fits) : (handResend n s).Fits := by
  unfold handResend
  refine ite_fits (fun _ => ?_) (fun _ => h)
  split
  · exact handOver_fits _ _ h
  · exact h

theorem startSlot_fits {s : State} (n : Nat) (h : s.Fits) : (startSlot n s).Fits := by
  unfold startSlot
  split
  · exact buildBlock_fits _ _ h
  · exact handResend_fits _ h

theorem endResend_fits {s : State} (b : Block) (h : s.Fits) : (endResend b s).Fits :=
  ite_fits (fun _ => dropResend_fits _ _ h) (fun _ => h)

theorem maintain_fits {s : State} (n : Nat) (m : MergedBlock) (h : s.Fits) : (maintain n m s).Fits :=
  ite_fits (fun _ => h.withTable (h.table.withModify n (fun _ => maintainEntry_inRange _ _ _ _))) (fun _ => h)

/-- Learning in progress whose table keeps its 24 entries (R66). -/
theorem State.Fits.withLearning {s : State} {x : Option Learning} (h : s.Fits)
    (hx : ∀ L, x = some L → L.table.length = 24) : ({ s with table := { s.table with learning := x } } : State).Fits :=
  h.withTable (h.table.withLearning hx)

theorem State.Fits.learned {s : State} (h : s.Fits) {L : Learning} (hL : s.table.learning = some L) : L.table.length = 24 := by
  obtain ⟨-, -, -, -, hlen⟩ := h.table
  exact hlen L hL

theorem learnAtPass_fits {s : State} (n : Nat) (m : Copy Block) (h : s.Fits) : (learnAtPass n m s).Fits := by
  unfold learnAtPass
  split
  · exact h
  · next L hL =>
    refine h.withLearning (fun K hK => ?_)
    obtain rfl := Option.some.inj hK
    cases m <;> simpa using h.learned hL

theorem takeHeader_fits {s : State} (m : Copy Block) (h : s.Fits) : (takeHeader m s).Fits := by
  cases m with
  | valid b => exact testEpoch_fits _ (hear_fits _ h)
  | erased => exact h
  | idle => exact h

theorem controllerAtPass_fits {s : State} (n : Nat) (m : Copy Block) (h : s.Fits) : (controllerAtPass n m s).Fits := by
  cases m with
  | valid b => exact ite_fits (fun _ => enterFaulted_fits _ _ h) (fun _ => h)
  | erased => exact h
  | idle => exact h

theorem passStep_fits {s : State} (n : Nat) (m : MergedBlock) (step : PassStep) (h : s.Fits) : (passStep n m s step).Fits := by
  cases step with
  | slotTable => exact learnAtPass_fits _ _ (takeHeader_fits _ (maintain_fits _ _ h))
  | sendEngine => exact h.withSend (h.send.map (fun _ => advanceSend_inRange _ _))
  | receiveEngine => exact takeResents_fits _ (forPorts_fits h (fun p _ => servePass_fits _ _ p))
  | controller => exact controllerAtPass_fits _ _ h

theorem countHeader_fits {s : State} (l : LaneId) (r : BlockReading) (h : s.Fits) : (countHeader l r s).Fits :=
  ite_fits (fun _ => countFramed_fits l h) (fun _ => h)

theorem clearHanded_fits {s : State} (n : Nat) (h : s.Fits) : (clearHanded n s).Fits := h.aside

theorem passSlot_fits {s : State} (n : Nat) (a b : BlockReading) (order : List PassStep) (h : s.Fits) :
    (passSlot n a b order s).Fits :=
  beginField_fits _ (clearHanded_fits n (foldl_fits
    (tellLevels_fits _ _ (countHeader_fits .b b (countHeader_fits .a a h))) (fun _ step => passStep_fits _ _ step)))

theorem learnHeader_fits {s : State} (m : Copy Block) (h : s.Fits) : (learnHeader m s).Fits := by
  cases m with
  | valid b =>
    refine h.withLearning (fun L hL => ?_)
    obtain ⟨K, hK, rfl⟩ := Option.map_eq_some_iff.mp hL
    simpa using h.learned hK
  | erased => exact h
  | idle => exact h

theorem closeRepair_fits {s : State} (a b : BlockReading) (h : s.Fits) : (closeRepair a b s).Fits :=
  beginField_fits _ (takeResents_fits _ (learnHeader_fits _ (takeHeader_fits _
    (tellLevels_fits _ _ (countHeader_fits .b b (countHeader_fits .a a h))))))

/-! ### Lead-ins and the station's own drive -/

theorem drivePastLeadIn_fits {s : State} (c : DriveContent) (h : s.Fits) : (drivePastLeadIn c s).Fits :=
  (h.mapEachLane (f := fun l => if l.drive == .contending then { l with drive := .driving } else l)
    (fun _ hx => by split <;> exact hx)).aside

theorem noticeOutcome_fits {s : State} (h : s.Fits) : (noticeOutcome s).Fits := by
  unfold noticeOutcome
  split
  · exact h
  · exact ite_fits (fun _ => h) (fun _ => ite_fits (fun _ => drivePastLeadIn_fits _ h) (fun _ => endFlightLost_fits h.aside))

theorem repairOutcome_fits {s : State} (h : s.Fits) : (repairOutcome s).Fits := by
  have turn : ({ s with repair := { s.repair with turn := true } } : State).Fits := h.withRepair h.resends
  unfold repairOutcome
  refine ite_fits (fun _ => ite_fits (fun _ => ?_) (fun _ => h.aside)) (fun _ => h)
  dsimp only
  split
  · exact drivePastLeadIn_fits _ turn
  · exact (turn.mapEachLane (f := fun l => { l with drive := .notDriving }) (fun _ hx => hx)).aside

theorem withdrawAll_fits {s : State} (h : s.Fits) : (withdrawAll s).Fits :=
  (h.mapEachLane (fun _ => Lane.withdraw_inRange)).aside

theorem driveFaultOn_fits {s : State} (l : LaneId) (h : s.Fits) : (driveFaultOn l s).Fits := by
  have counted : (withdrawAll (s.mapLane l (fun x => (x.countViolations 1).endRun))).Fits :=
    withdrawAll_fits (h.mapLane (fun _ hx => Lane.endRun_inRange (Lane.countViolations_inRange 1 hx)))
  exact ite_fits (fun _ => enterSurge_fits _ _ counted) (fun _ => counted)

theorem unsend_fits {s : State} (l : LaneId) (h : s.Fits) : (unsend l s).Fits := h.withNotices h.queue

theorem mismatchOn_fits {s : State} (l : LaneId) (h : s.Fits) : (mismatchOn l s).Fits := by
  have cut : ∀ x : Lane, x.inRange → (x.countViolations 1).cutDrive.inRange :=
    fun _ hx => Lane.cutDrive_inRange (Lane.countViolations_inRange 1 hx)
  have passive : ∀ x : Lane, x.inRange → (x.countViolations 1).cutDrive.endRun.inRange :=
    fun x hx => Lane.endRun_inRange (cut x hx)
  unfold mismatchOn
  split
  · exact unsend_fits l (h.mapLane cut)
  · exact h.mapLane cut
  · exact h.mapLane passive
  · exact h.mapLane passive
  · exact h.mapLane passive
  all_goals exact h

theorem writeEcho_fits {s : State} (l : LaneId) (value : BitVec 8) (h : s.Fits) : (writeEcho l value s).Fits := by
  refine settleExit_fits l (h.mapLane (fun x hx => ?_))
  have risen : x.beginRun.inRange := Lane.beginRun_inRange hx
  exact risen

theorem writeLateEcho_fits {s : State} (l : LaneId) (value : BitVec 8) (h : s.Fits) : (writeLateEcho l value s).Fits := by
  refine ite_fits (fun _ => h.mapLane (fun x hx => ?_)) (fun _ => h)
  have risen : (if value.toNat < 255 then x.beginRun else x).inRange := by
    split
    · exact Lane.beginRun_inRange hx
    · exact hx
  exact risen

theorem echoLateOn_fits {s : State} (l : LaneId) (h : s.Fits) : (echoLateOn l s).Fits := by
  have measuring : (s.mapLane l (fun x => { x.endRun with measuring := true })).Fits :=
    h.mapLane (fun x hx => (Lane.endRun_inRange hx : x.endRun.inRange))
  exact ite_fits (fun _ => measuring.mapLane (fun _ hx => hx)) (fun _ => enterSurge_fits _ _ measuring)

/-! ### Requests -/

theorem adoptHeld_fits {s : State} (p : Port) (c : RetClass) (priority : BitVec 3) (h : s.Fits) :
    (adoptHeld p c priority s).Fits :=
  reply_fits _ _ (h.mapSend (fun he => he))

theorem claimSlots_fits {s : State} (p : Port) (count : Nat) (c : RetClass) (priority : BitVec 3) (h : s.Fits) :
    (claimSlots p count c priority s).Fits := by
  unfold claimSlots
  split
  · exact reply_fits _ _ h
  · refine ite_fits (fun _ => reply_fits _ _ ((offer_fits _ h).mapSend (fun _ => ?_))) (fun _ => reply_fits _ _ h)
    exact SendEntry.inRange_of_empty rfl rfl

theorem openSend_fits {s : State} (port count cls priority : Byte) (h : s.Fits) : (openSend port count cls priority s).Fits := by
  unfold openSend
  refine ite_fits (fun _ => reply_fits _ _ h) (fun _ => ?_)
  split
  · exact ite_fits (fun _ => reply_fits _ _ h) (fun _ => ite_fits (fun _ => reply_fits _ _ h)
      (fun _ => ite_fits (fun _ => adoptHeld_fits _ _ _ h) (fun _ => claimSlots_fits _ _ _ _ h)))
  · exact reply_fits _ _ h

theorem openReceive_fits {s : State} (port tag : Byte) (delay : BitVec 16) (cls : Byte) (h : s.Fits) :
    (openReceive port tag delay cls s).Fits := by
  unfold openReceive
  refine ite_fits (fun _ => reply_fits _ _ h) (fun _ => ?_)
  split
  · refine ite_fits (fun _ => reply_fits _ _ h) (fun _ => ite_fits (fun _ => reply_fits _ _ h)
      (fun _ => ite_fits (fun _ => reply_fits _ _ h) (fun _ => reply_fits _ _ (h.mapRecv (fun _ => ⟨Nat.zero_le _, ?_⟩)))))
    intro st hst
    obtain rfl := Option.some.inj hst
    exact Nat.zero_le _
  · exact reply_fits _ _ h

theorem SendEntry.releasing_inRange (e : SendEntry) (path : ReleasePath) : (e.releasing path).inRange :=
  SendEntry.inRange_of_empty rfl rfl

theorem closeClaiming_fits {s : State} (p : Port) (h : s.Fits) : (closeClaiming p s).Fits := by
  refine ite_fits (fun _ => reply_fits _ _ (State.Fits.mapSend ?_ (fun _ => SendEntry.releasing_inRange _ _)))
    (fun _ => reply_fits _ _ (closeSend_fits p ?_))
  · exact h.mapQueue (by simp)
  · exact h.mapQueue (List.length_filter_le _ _)

theorem closeHolding_fits {s : State} (p : Port) (path : ReleasePath) (h : s.Fits) : (closeHolding p path s).Fits := by
  have released : (s.mapSend p (fun e => e.releasing path)).Fits := h.mapSend (fun _ => SendEntry.releasing_inRange _ _)
  exact reply_fits _ _ (ite_fits (fun _ => offerRelease_fits p released) (fun _ => released.mapSend (fun he => he)))

theorem closeSendEntry_fits {s : State} (p : Port) (h : s.Fits) : (closeSendEntry p s).Fits := by
  unfold closeSendEntry
  split
  · exact reply_fits _ _ h
  · exact reply_fits _ _ h
  · exact closeClaiming_fits p h
  all_goals exact closeHolding_fits p _ h

theorem closeRecvEntry_fits {s : State} (p : Port) (h : s.Fits) : (closeRecvEntry p s).Fits := by
  unfold closeRecvEntry
  split
  · exact reply_fits _ _ h
  · exact reply_fits _ _ ((withdrawAsk_fits p h).mapRecv (fun _ => RecvEntry.reset_inRange))

theorem closeEntry_fits {s : State} (entry : Byte) (h : s.Fits) : (closeEntry entry s).Fits := by
  unfold closeEntry
  split
  · exact closeSendEntry_fits _ h
  · exact closeRecvEntry_fits _ h
  · exact reply_fits _ _ h

theorem readStream_fits {s : State} (entry : Byte) (h : s.Fits) : (readStream entry s).Fits := by
  unfold readStream
  split <;> exact reply_fits _ _ h

theorem readSlot_fits {s : State} (slot : Byte) (h : s.Fits) : (readSlot slot s).Fits := by
  unfold readSlot
  split <;> exact reply_fits _ _ h

theorem takeEvents_fits {s : State} (n : Byte) (h : s.Fits) : (takeEvents n s).Fits := by
  refine ite_fits (fun _ => reply_fits _ _ (h.withMgmt ?_)) (fun _ => reply_fits _ _ h)
  exact (List.drop_sublist _ _).length_le.trans h.events

theorem setMask_fits {s : State} (c : Causes) (h : s.Fits) : (setMask c s).Fits := h.withMgmt h.events

theorem clearCauses_fits {s : State} (c : Causes) (h : s.Fits) : (clearCauses c s).Fits := h.withMgmt h.events

theorem setHold_fits {s : State} (l : LaneId) (on : Bool) (h : s.Fits) : (setHold l on s).Fits :=
  ite_fits (fun _ => dropTurnIfMute_fits (h.mapLane (fun _ hx => Lane.cutDrive_inRange hx)))
    (fun _ => h.mapLane (fun _ hx => hx))

theorem holdLane_fits {s : State} (lane hold : Byte) (h : s.Fits) : (holdLane lane hold s).Fits := by
  unfold holdLane
  split
  · exact reply_fits _ _ (setHold_fits _ _ h)
  · exact reply_fits _ _ h

/-! ### The lane monitors -/

theorem judgeWindow_fits {s : State} (l : LaneId) (h : s.Fits) : (judgeWindow l s).Fits := by
  unfold judgeWindow
  dsimp only
  split
  · exact h
  · exact ite_fits (fun _ => enterUsable_fits _ _ h) (fun _ => h)
  · exact ite_fits (fun _ => enterSurge_fits _ _ h) (fun _ => enterUsable_fits _ _ h)
  · exact ite_fits (fun _ => enterSettling_fits _ h) (fun _ => h)
  · exact ite_fits (fun _ => enterSurge_fits _ _ h)
      (fun _ => settleExit_fits _ (h.mapLane (fun _ => Lane.countQuiet_inRange)))

theorem closeWindow_fits {s : State} (l : LaneId) (run : Nat) (h : s.Fits) : (closeWindow l run s).Fits :=
  ite_fits (fun _ => (judgeWindow_fits l (h.mapLane (fun _ => Lane.readRun_inRange run))).mapLane
    (fun _ => Lane.newWindow_inRange)) (fun _ => h)

theorem closeBoth_fits {s : State} (first : LaneId) (runA runB : Nat) (h : s.Fits) : (closeBoth first runA runB s).Fits := by
  cases first
  · exact (closeWindow_fits .b runB (closeWindow_fits .a runA h)).aside
  · exact (closeWindow_fits .a runA (closeWindow_fits .b runB h)).aside

theorem longRunOn_fits {s : State} (l : LaneId) (h : s.Fits) : (longRunOn l s).Fits := by
  have long : (s.mapLane l (fun x =>
      { x with run := Config.longRun, dominant := true, reported := .long, windowHeld := true })).Fits :=
    h.mapLane (fun _ hx => hx.withRun (by decide))
  unfold longRunOn
  dsimp only
  split
  · exact long
  iterate 3 exact enterSurge_fits _ _ long
  split
  · exact long
  · exact long
  iterate 3 exact changeCause_fits _ _ long
  exact long

theorem heldRunOn_fits {s : State} (l : LaneId) (h : s.Fits) : (heldRunOn l s).Fits := by
  have held : (s.mapLane l (fun x => { x with reported := .held, windowHeld := true })).Fits := h.mapLane (fun _ hx => hx)
  exact ite_fits (fun _ => changeCause_fits _ _ held) (fun _ => held)

theorem framedReport_fits {s : State} (l : LaneId) (kind : ViolationKind) (h : s.Fits) : (framedReport l kind s).Fits := by
  have counted := countFramed_fits l h
  cases kind with
  | guardInterval =>
    exact ite_fits (fun _ => h.mapLane (fun _ => Lane.changeLevel_inRange))
      (fun _ => counted.mapLane (fun _ hx => Lane.changeLevel_inRange hx))
  | field => exact ite_fits (fun _ => h) (fun _ => counted.mapLane (fun _ hx => hx))
  | mark => exact ite_fits (fun _ => h) (fun _ => counted.mapLane (fun _ hx => hx))

/-! ### The two closes of the notice exchange -/

theorem planAnswer_fits {s : State} (p : Option AnswerPlan) (t : Option Tentative) (h : s.Fits) : (planAnswer p t s).Fits :=
  h.withNotices h.queue

theorem judgeChange_fits {s : State} (sender : StationNo) (b : NoticeBody) (h : s.Fits) : (judgeChange sender b s).Fits :=
  ite_fits (fun _ => planAnswer_fits _ _ h) (fun _ => planAnswer_fits _ _ h)

/-- The re-send queue takes as many sequences as it has places free (R126). -/
theorem queueResends_fits {s : State} (tag : Tag) (priority : BitVec 3) (seqs : List Seq)
    (hfree : seqs.length ≤ 64 - s.repair.queue.length) (h : s.Fits) : (queueResends tag priority seqs s).Fits := by
  refine h.withRepair ?_
  have := h.resends
  simp
  omega

theorem serveAsk_fits {s : State} (b : NoticeBody) (e : SendEntry) (h : s.Fits) : (serveAsk b e s).Fits := by
  unfold serveAsk
  refine ite_fits (fun _ => ite_fits (fun hroom => ?_) (fun _ => h)) (fun _ => ?_)
  · exact planAnswer_fits _ _ (queueResends_fits _ _ _ hroom h)
  · exact planAnswer_fits _ _ (queueResends_fits _ _ _ (by simp [Config.resendQueueSize]) h)

theorem answerAsk_fits {s : State} (b : NoticeBody) (h : s.Fits) : (answerAsk b s).Fits :=
  ite_fits (fun _ => ite_fits (fun _ => serveAsk_fits _ _ h) (fun _ => planAnswer_fits _ _ h)) (fun _ => h)

theorem judgeOther_fits {s : State} (n : Notice) (h : s.Fits) : (judgeOther n s).Fits := by
  unfold judgeOther
  split
  · exact ite_fits (fun _ => h) (fun _ => ite_fits (fun _ => answerAsk_fits _ h) (fun _ => h))
  · exact ite_fits (fun _ => planAnswer_fits _ _ h) (fun _ => ite_fits (fun _ => judgeChange_fits _ _ h)
      (fun _ => ite_fits (fun _ => h) (fun _ => planAnswer_fits _ _ h)))

theorem judgeOwn_fits {s : State} (b : NoticeBody) (h : s.Fits) : (judgeOwn b s).Fits := by
  unfold judgeOwn
  split
  · exact h
  all_goals exact judgeChange_fits _ _ h

theorem rollCall_fits {s : State} (takes : Bool) (h : s.Fits) : (rollCall takes s).Fits := by
  have called : ({ s with notices := { s.notices with rollCall := true } } : State).Fits := h.withNotices h.queue
  exact ite_fits (fun _ => planAnswer_fits _ _ called) (fun _ => called)

theorem engineAtNotice_fits {s : State} (wasJoined : Bool) (m : MergedNotice) (h : s.Fits) :
    (engineAtNotice wasJoined m s).Fits := by
  unfold engineAtNotice
  dsimp only
  split
  · exact ite_fits (fun _ => h) (fun _ => ite_fits (fun _ => judgeOwn_fits _ h) (fun _ => planAnswer_fits _ _ h))
  · exact ite_fits (fun _ => judgeOwn_fits _ h) (fun _ => h)
  · exact ite_fits (fun _ => judgeOwn_fits _ h) (fun _ => h)
  · exact ite_fits (fun _ => judgeOther_fits _ h) (fun _ => h)
  · exact rollCall_fits _ h
  · exact h
  · exact ite_fits (fun _ => planAnswer_fits _ _ h) (fun _ => h)

theorem tableAtNotice_fits {s : State} (m : MergedNotice) (first : LaneId) (h : s.Fits) : (tableAtNotice m first s).Fits := by
  have heard : ((m.notices first).foldl (fun s n => hear (leadInSender n.leadIn) s) s).Fits :=
    foldl_fits h (fun _ _ => hear_fits _)
  unfold tableAtNotice
  dsimp only
  split
  · exact heard
  · exact testEpoch_fits _ heard
  · exact ite_fits (fun _ => testEpoch_fits _ heard) (fun _ => testEpoch_fits _ heard)

theorem noticeStep_fits {s : State} (wasJoined : Bool) (m : MergedNotice) (first : LaneId) (step : CloseStep) (h : s.Fits) :
    (noticeStep wasJoined m first s step).Fits := by
  cases step with
  | slotTable => exact tableAtNotice_fits _ _ h
  | noticeEngine => exact engineAtNotice_fits _ _ h
  | controller => exact ite_fits (fun _ => enterFaulted_fits _ _ h) (fun _ => h)

theorem closeNotice_fits {s : State} (a b : NoticeReading) (order : CloseOrder) (h : s.Fits) : (closeNotice a b order s).Fits :=
  applyIf_fits (beginField_fits _ (foldl_fits
    (tellLevels_fits _ _ (ite_fits (fun _ => recordSent_fits h) (fun _ => endFlightLost_fits h)))
    (fun _ step => noticeStep_fits _ _ _ step))) (fun _ => startAnswer_fits)

/-- The notice in flight is one of the queue, so that fewer stand there without it. -/
theorem removeInFlight_queue_lt {s : State} {q : Queued} (hq : s.inFlight = some q) :
    (removeInFlight s).notices.queue.length < s.notices.queue.length := by
  refine List.length_filter_lt_length_iff_exists.mpr ⟨q, List.mem_of_find?_eq_some hq, ?_⟩
  have hf : q.inFlight = true := List.find?_some hq
  simp [hf]

theorem rejoin_fits {s : State} {q : Queued} (hq : s.inFlight = some q) (h : s.Fits) : (rejoin q s).Fits := by
  have hlt := removeInFlight_queue_lt hq
  have hlen := h.queue
  refine (removeInFlight_fits h).withNotices ?_
  simp only [insertQueued_length]
  omega

theorem senderCommitted_fits {s : State} (q : Queued) (h : s.Fits) : (senderCommitted q s).Fits := by
  have removed := removeInFlight_fits h
  unfold senderCommitted
  dsimp only
  split
  · exact claimCommitted_fits _ _ _ _ removed
  · exact ite_fits (fun _ => giveEvent_fits _ (closeSend_fits _ removed)) (fun _ => removed)
  · exact removed

theorem releaseRefused_fits {s : State} (q : Queued) (record : OutcomeRecord) (h : s.Fits) :
    (releaseRefused q record s).Fits := by
  unfold releaseRefused
  split
  · exact ite_fits (fun _ => giveEvent_fits _ (h.mapSend (fun he => he))) (fun _ => h)
  all_goals exact h

theorem senderDissented_fits {s : State} {q : Queued} (hq : s.inFlight = some q) (h : s.Fits) : (senderDissented q s).Fits := by
  have removed := removeInFlight_fits h
  unfold senderDissented
  dsimp only
  split
  · exact ite_fits (fun _ => rejoin_fits hq h) (fun _ => refuseQueued_fits _ _ removed)
  · exact ite_fits (fun _ => rejoin_fits hq h) (fun _ => releaseRefused_fits _ _ removed)
  all_goals exact removed

theorem askOutcome_fits {s : State} (q : Queued) (ans : AnswerRecord) (h : s.Fits) : (askOutcome q ans s).Fits := by
  have removed := removeInFlight_fits h
  unfold askOutcome
  dsimp only
  split
  · exact ite_fits (fun _ => removed) (fun _ => ite_fits (fun _ => askAccepted_fits _ _ _ removed)
      (fun _ => ite_fits (fun _ => askGone_fits _ _ _ removed) (fun _ => removed)))
  all_goals exact removed

theorem senderOutcome_fits {s : State} (committed : Bool) (ans : AnswerRecord) (h : s.Fits) :
    (senderOutcome committed ans s).Fits := by
  unfold senderOutcome
  split
  · exact clearFlight_fits h
  · next q hq =>
    split
    · exact askOutcome_fits _ _ h
    · exact ite_fits (fun _ => senderCommitted_fits _ h) (fun _ => ite_fits
        (fun _ => withdrawnEnds_fits _ _ (removeInFlight_fits h)) (fun _ => senderDissented_fits hq h))

theorem hearRollCall_fits {s : State} (ans : AnswerRecord) (h : s.Fits) : (hearRollCall ans s).Fits := by
  obtain ⟨-, -, hn, ha, -⟩ := h.table
  refine h.withTable (h.table.withHeard (by simpa using hn) (fun age hage => ?_))
  obtain ⟨i, hi, rfl⟩ := List.mem_mapIdx.mp hage
  split
  · exact Nat.zero_le _
  · exact ha _ (List.getElem_mem hi)

theorem takeAnswers_fits {s : State} (ans : AnswerRecord) (sendFirst : Bool) (h : s.Fits) : (takeAnswers ans sendFirst s).Fits := by
  have heard : (applyIf s.notices.rollCall (hearRollCall ans) s).Fits := applyIf_fits h (fun _ => hearRollCall_fits ans)
  unfold takeAnswers
  dsimp only
  split
  · exact ite_fits (fun _ => applyIf_fits heard (fun _ => senderOutcome_fits _ _))
      (fun _ => tableChanged_fits _ (applyIf_fits (commitChange_fits _ heard) (fun _ => senderOutcome_fits _ _)))
  · exact applyIf_fits heard (fun _ => senderOutcome_fits _ _)

theorem closeAnswers_fits {s : State} (a b : AnswerReading) (sendFirst : Bool) (h : s.Fits) :
    (closeAnswers a b sendFirst s).Fits := by
  have told := tellLevels_fits a.levelShown b.levelShown h
  have recorded : ({ tellLevels a.levelShown b.levelShown s with
      notices := { (tellLevels a.levelShown b.levelShown s).notices with lastAnswer := some (mergeAnswers s.lanes a b) } } : State).Fits :=
    told.withNotices told.queue
  exact beginField_fits _ (dropAnswer_fits (ite_fits (fun _ => takeAnswers_fits _ _ recorded) (fun _ => loseAnswers_fits recorded)))

/-! ### Ports, supply and resets -/

theorem takeLength_fits {s : State} (p : Port) (value : Nat) (hready : s.ready p = true) (h : s.Fits) :
    (takeLength p value s).Fits := by
  have hroom : (s.send.get p).places < 8 := by
    unfold State.ready Config.fifoSize at hready
    simp only [Bool.and_eq_true, decide_eq_true_eq] at hready
    obtain ⟨⟨-, hplaces⟩, -⟩ := hready
    exact hplaces
  have opened : (s.mapSend p (openAssembly value)).Fits := h.mapSend (fun _ => openAssembly_inRange value hroom)
  exact ite_fits (fun _ => giveEvent_fits _ h) (fun _ => ite_fits (fun _ => giveEvent_fits _ opened) (fun _ => opened))

theorem takeByte_fits {s : State} (p : Port) (byte : Byte) (h : s.Fits) : (takeByte p byte s).Fits := by
  unfold takeByte
  split
  · next a ha => exact h.mapSend (fun he => appendByte_inRange byte ha he)
  · exact ite_fits (fun _ => h) (fun _ => giveEvent_fits _ (h.mapSend (fun he => he)))

theorem supplyWarns_fits {s : State} (h : s.Fits) : (supplyWarns s).Fits :=
  ite_fits (fun _ => giveEvent_fits _ h.aside) (fun _ => h)

theorem supplyRecovers_fits {s : State} (h : s.Fits) : (supplyRecovers s).Fits :=
  ite_fits (fun _ => giveEvent_fits _ h.aside) (fun _ => h)

theorem cleared_fits (hold : ResetHold) (o : OptionWord) (c : Context) (pending : List Instr) :
    (State.cleared hold o c pending).Fits :=
  ⟨Nat.zero_le _, Nat.zero_le _, Nat.zero_le _, ⟨Lane.reset_inRange _, Lane.reset_inRange _⟩, SlotTable.reset_inRange,
    PerPort.Every.all SendEntry.reset_inRange, PerPort.Every.all RecvEntry.reset_inRange⟩

theorem release_fits {s : State} (straps : BitVec 10) (aboveWarn : Bool) : (release straps aboveWarn s).Fits := by
  have t : ∀ ctrl : Controller, (beginField 0 { State.cleared s.hold.released (optionOf straps)
      (contextAtRelease (optionOf straps).station aboveWarn s.ctrl.context) s.pending with ctrl := ctrl }).Fits :=
    fun _ => beginField_fits 0 (cleared_fits _ _ _ _).aside
  exact ite_fits (fun _ => t _) (fun _ => giveEvent_fits _ (t _))

/-! ### The round clock -/

/-- The counts of the round clock are within their bounds, and the timer has not passed a field event that has not occurred (R3, R12, R16). -/
def Clock.inRange (c : Clock) : Prop :=
  c.closed ≤ 28 ∧ c.timer ≤ Config.eventAt c.closed ∧ c.capture ≤ 24999 ∧ c.validCount ≤ 255 ∧ c.phase ≤ 100

theorem State.bounded_iff (s : State) : s.Bounded ↔ s.clock.inRange ∧ s.Fits := by
  constructor
  · rintro ⟨he, hq, hr, hc, ht, hcap, hv, hp, ha, hb, htab, hs, hrecv⟩
    exact ⟨⟨hc, ht, hcap, hv, hp⟩, ⟨he, hq, hr, ⟨ha, hb⟩, htab, hs, hrecv⟩⟩
  · rintro ⟨⟨hc, ht, hcap, hv, hp⟩, ⟨he, hq, hr, ⟨ha, hb⟩, htab, hs, hrecv⟩⟩
    exact ⟨he, hq, hr, hc, ht, hcap, hv, hp, ha, hb, htab, hs, hrecv⟩

theorem Config.eventAt_le_succ (k : Nat) : Config.eventAt k ≤ Config.eventAt (k + 1) := by
  match k with
  | 0 => decide
  | 1 => decide
  | 2 => decide
  | 3 => decide
  | n + 4 => simp only [Config.eventAt, Config.slotPassAt]; omega

/-- The local time base stands within one tick, or at a window close that is due (R37). -/
theorem reach_phase_le (r : Nat) (s : State) (h : s.clock.phase ≤ 100) : (reach r s).clock.phase ≤ 100 := by
  unfold reach
  dsimp only
  split
  · exact h
  · dsimp only
    split
    · exact le_refl 100
    · exact (Nat.mod_lt _ (by decide)).le

theorem reach_clock_inRange {s : State} (r : Nat) (h : s.clock.inRange) : (reach r s).clock.inRange := by
  obtain ⟨hc, ht, hcap, hv, hp⟩ := h
  refine ⟨by simpa using hc, ?_, by simpa using hcap, by simpa using hv, reach_phase_le r s hp⟩
  rw [reach_closed]
  exact reach_timer_le_event ht

theorem atEvent_clock_inRange {s : State} {k : Nat} (hk : k ≤ 27) (hdue : s.due k = true) (h : s.clock.inRange) :
    (atEvent k s).clock.inRange := by
  obtain ⟨ht, hc⟩ := atEvent_clock_of_due hdue
  obtain ⟨-, -, hcap, hv, hp⟩ := h
  refine ⟨by omega, ?_, by simpa using hcap, by simpa using hv, reach_phase_le _ s hp⟩
  rw [ht, hc]
  exact Config.eventAt_le_succ k

theorem startRound_clock_inRange {s : State} (order : RoundOrder) (expiry : Bool) (t : Nat) (h : s.clock.inRange) :
    (startRound order expiry t s).clock.inRange := by
  obtain ⟨-, -, hcap, hv, hp⟩ := h
  rw [startRound_clock]
  exact ⟨Nat.zero_le _, Nat.zero_le _, hcap, hv, hp⟩

/-- The clock with the timer restarted within its round, or without a change of timer, events, counts and time base. -/
theorem Clock.inRange.withTimer_zero {c : Clock} {capture : Nat} {pacing lateWindow edgeTaken drove : Bool} (h : c.inRange)
    (hcap : capture ≤ 24999) :
    ({ c with timer := 0, capture := capture, pacing := pacing, lateWindow := lateWindow, edgeTaken := edgeTaken,
              drove := drove } : Clock).inRange := by
  obtain ⟨hc, -, -, hv, hp⟩ := h
  exact ⟨hc, Nat.zero_le _, hcap, hv, hp⟩

theorem Clock.inRange.capture_le {c : Clock} (h : c.inRange) : c.capture ≤ 24999 := by
  obtain ⟨-, -, hcap, -⟩ := h
  exact hcap

theorem driveAtExpiry_clock_inRange {s : State} (readingOpen : Bool) (h : s.clock.inRange) :
    (driveAtExpiry readingOpen s).clock.inRange := by
  unfold driveAtExpiry
  split <;> exact h

theorem expire_clock_inRange {s : State} (order : RoundOrder) (h : s.clock.inRange) : (expire order s).clock.inRange :=
  driveAtExpiry_clock_inRange _ (startRound_clock_inRange order true _ (reach_clock_inRange _ h))

theorem startAtEdge_clock_inRange {s : State} (l : LaneId) (r : Nat) (order : RoundOrder) (hr : r ≤ 24999) (h : s.clock.inRange) :
    (startAtEdge l r order s).clock.inRange := by
  obtain ⟨hc, ht, -, hv, hp⟩ := reach_clock_inRange r h
  have captured : ({ (reach r s).mapLane l Lane.beginRun with
      clock := { ((reach r s).mapLane l Lane.beginRun).clock with capture := r } } : State).clock.inRange := ⟨hc, ht, hr, hv, hp⟩
  exact startRound_clock_inRange order false r captured

theorem realign_clock_inRange {s : State} (l : LaneId) (r : Nat) (h : s.clock.inRange) : (realign l r s).clock.inRange :=
  (reach_clock_inRange r h).withTimer_zero ((Nat.min_le_left _ _).trans (by decide))

/-- Mark close changes the clock by its count, the pacing flag and the late window alone (R12). -/
theorem closeMark_clock (a b : Copy Unit) (leadInFirst : Bool) (s : State) :
    (closeMark a b leadInFirst s).clock = (countMark (mergeMarks a b).isValid s).clock := by
  simp [closeMark]

theorem countMark_clock_inRange {s : State} (valid : Bool) (h : s.clock.inRange) : (countMark valid s).clock.inRange := by
  obtain ⟨hc, ht, hcap, hv, hp⟩ := h
  refine ⟨hc, ht, hcap, ?_, hp⟩
  dsimp only [countMark]
  split
  · exact Nat.min_le_left _ _
  · exact Nat.zero_le _

theorem closeMark_clock_inRange {s : State} (a b : Copy Unit) (leadInFirst : Bool) (h : s.clock.inRange) :
    (closeMark a b leadInFirst s).clock.inRange := by
  rw [closeMark_clock]
  exact countMark_clock_inRange _ h

theorem takeMarks_clock_inRange {s : State} (a b : MarkReading) (leadInFirst : Bool) (h : s.clock.inRange) :
    (takeMarks a b leadInFirst s).clock.inRange := by
  unfold takeMarks
  refine closeMark_clock_inRange _ _ _ ?_
  rwa [show (tellLevels (a.levelShown Config.markCloseAt) (b.levelShown Config.markCloseAt) s).clock = s.clock by simp]

theorem adopt_clock_inRange {s : State} (x : Search) (hx : x.edge ≤ 24999) (h : s.clock.inRange) : (adopt x s).clock.inRange := by
  obtain ⟨-, -, -, hv, hp⟩ := h
  exact ⟨(by decide : 1 ≤ 28), (by decide : 800 ≤ Config.eventAt 1), hx, hv, hp⟩

theorem adoptMark_clock_inRange {s : State} (l : LaneId) (x : Search) (second : MarkReading) (leadInFirst : Bool)
    (order : RoundOrder) (hx : x.edge ≤ 24999) (h : s.clock.inRange) :
    (adoptMark l x second leadInFirst order s).clock.inRange := by
  have told : (tellAdoption l second (reach x.completesAt s)).clock.inRange := reach_clock_inRange _ h
  have started : (if x.crossed then tellAdoption l second (reach x.completesAt s)
      else startRound order false (tellAdoption l second (reach x.completesAt s)).clock.timer
        (cutShort (tellAdoption l second (reach x.completesAt s)))).clock.inRange := by
    split
    · exact told
    · refine startRound_clock_inRange order false _ ?_
      rwa [show (cutShort (tellAdoption l second (reach x.completesAt s))).clock
        = (tellAdoption l second (reach x.completesAt s)).clock by simp]
  cases l
  · exact closeMark_clock_inRange _ _ _ (adopt_clock_inRange x hx started)
  · exact closeMark_clock_inRange _ _ _ (adopt_clock_inRange x hx started)

/-! ### Every command -/

theorem running_bounded {f : State → State} {s t : State} (h : s.Bounded) (hf : s.Bounded → (f s).Bounded)
    (e : running f s = .next t) : t.Bounded := by
  obtain ⟨rfl, -⟩ | ⟨rfl, -⟩ := running_next e
  · exact h
  · exact hf h

/-- An operation that leaves the clock alone. -/
theorem State.Bounded.of_fits {f : State → State} {s : State} (hc : (f s).clock = s.clock) (hf : s.Fits → (f s).Fits)
    (h : s.Bounded) : (f s).Bounded := by
  obtain ⟨hclock, hfits⟩ := s.bounded_iff.mp h
  exact (State.bounded_iff _).mpr ⟨by rwa [hc], hf hfits⟩

theorem request_bounded {f : State → State} {s t : State} (h : s.Bounded) (hc : (f s).clock = s.clock)
    (hf : s.Fits → (f s).Fits) (e : request f s = .next t) : t.Bounded := by
  obtain rfl | ⟨rfl, -⟩ := request_next e
  · exact h
  · exact h.of_fits hc hf

theorem reach_bounded {s : State} (r : Nat) (h : s.Bounded) : (reach r s).Bounded := by
  obtain ⟨hclock, hfits⟩ := s.bounded_iff.mp h
  exact (State.bounded_iff _).mpr ⟨reach_clock_inRange r hclock, reach_fits r hfits⟩

theorem dated_bounded {f : State → State} {r : Nat} (hc : ∀ u, (f u).clock = u.clock) (hf : ∀ u : State, u.Fits → (f u).Fits)
    {s : State} (h : s.Bounded) : (dated r f s).Bounded :=
  dated_cases (fun _ => (reach_bounded r h).of_fits (hc _) (hf _)) h

theorem fieldEvent_bounded {f : State → State} {k : Nat} (hk : k ≤ 27) (hc : ∀ u : State, u.clock.inRange → (f u).clock.inRange)
    (hf : ∀ u : State, u.Fits → (f u).Fits) {s : State} (h : s.Bounded) : (fieldEvent k f s).Bounded := by
  obtain ⟨hclock, hfits⟩ := s.bounded_iff.mp h
  exact fieldEvent_cases (fun hdue => (State.bounded_iff _).mpr
    ⟨hc _ (atEvent_clock_inRange hk hdue hclock), hf _ (atEvent_fits k hfits)⟩) h

theorem ite_bounded {c : Prop} [Decidable c] {s t : State} (hs : c → s.Bounded) (ht : t.Bounded) :
    (if c then s else t).Bounded := by
  split
  · exact hs (by assumption)
  · exact ht

theorem Clock.reset_inRange : Clock.reset.inRange :=
  ⟨by decide, by decide, by decide, by decide, by decide⟩

theorem cleared_bounded (hold : ResetHold) (o : OptionWord) (c : Context) (pending : List Instr) :
    (State.cleared hold o c pending).Bounded :=
  (State.bounded_iff _).mpr ⟨Clock.reset_inRange, cleared_fits _ _ _ _⟩

theorem release_bounded (s : State) (straps : BitVec 10) (aboveWarn : Bool) : (release straps aboveWarn s).Bounded := by
  refine (State.bounded_iff _).mpr ⟨?_, release_fits _ _⟩
  have hc : (release straps aboveWarn s).clock = Clock.reset := by
    unfold release
    dsimp only
    split <;> rfl
  rw [hc]
  exact Clock.reset_inRange

theorem expire_bounded {s : State} (order : RoundOrder) (h : s.Bounded) : (expire order s).Bounded := by
  obtain ⟨hclock, hfits⟩ := s.bounded_iff.mp h
  exact (State.bounded_iff _).mpr ⟨expire_clock_inRange order hclock, expire_fits order hfits⟩

/-- An accepted edge lies between its bounds. -/
theorem State.acceptsEdge_range {s : State} {l : LaneId} {r low high : Nat} (h : s.acceptsEdge l r low high = true) :
    low ≤ r ∧ r ≤ high := by
  unfold State.acceptsEdge at h
  simp only [Bool.and_eq_true, decide_eq_true_eq] at h
  obtain ⟨⟨⟨-, hlow⟩, hhigh⟩, -⟩ := h
  exact ⟨hlow, hhigh⟩

theorem startAtEdge_bounded {s : State} (l : LaneId) (r : Nat) (order : RoundOrder) (hr : r ≤ 24999) (h : s.Bounded) :
    (startAtEdge l r order s).Bounded := by
  obtain ⟨hclock, hfits⟩ := s.bounded_iff.mp h
  exact (State.bounded_iff _).mpr ⟨startAtEdge_clock_inRange l r order hr hclock, startAtEdge_fits l r order hfits⟩

theorem realign_bounded {s : State} (l : LaneId) (r : Nat) (h : s.Bounded) : (realign l r s).Bounded := by
  obtain ⟨hclock, hfits⟩ := s.bounded_iff.mp h
  exact (State.bounded_iff _).mpr ⟨realign_clock_inRange l r hclock, realign_fits l r hfits⟩

/-- At the deferral point the late window closes, and the timer may restart with the station's own mark (R10). -/
theorem deferral_bounded {s : State} (h : s.Bounded) :
    (if s.pacingPermit && s.lanes.any Lane.drivable then
        driveMark (beginField 0 { s with clock := { s.clock with lateWindow := false, timer := 0 } })
      else { s with clock := { s.clock with lateWindow := false } } : State).Bounded := by
  obtain ⟨hclock, hfits⟩ := s.bounded_iff.mp h
  refine ite_bounded (fun _ => ?_) ?_
  · exact (State.bounded_iff _).mpr ⟨hclock.withTimer_zero hclock.capture_le, driveMark_fits (beginField_fits 0 hfits.aside)⟩
  · exact (State.bounded_iff _).mpr ⟨hclock, hfits.aside⟩

theorem adoptMark_bounded {s : State} {l : LaneId} {x : Search} (second : MarkReading) (leadInFirst : Bool) (order : RoundOrder)
    (hx : (s.lanes.get l).search = some x) (h : s.Bounded) : (adoptMark l x second leadInFirst order s).Bounded := by
  obtain ⟨hclock, hfits⟩ := s.bounded_iff.mp h
  have hedge := (hfits.lane l).edge_lt hx
  exact (State.bounded_iff _).mpr
    ⟨adoptMark_clock_inRange l x second leadInFirst order (by omega) hclock, adoptMark_fits l x second leadInFirst order hfits⟩

/-- A reading of open search opens before the early window (R14). -/
theorem openReading_bounded {s : State} (l : LaneId) (r : Nat) (hr : r < 24800) (h : s.Bounded) :
    ((reach r s).mapLane l
      (fun x => { x.beginRun with search := some { edge := r, carried := 0, crossed := false } })).Bounded := by
  obtain ⟨hclock, hfits⟩ := s.bounded_iff.mp h
  refine (State.bounded_iff _).mpr ⟨reach_clock_inRange r hclock, (reach_fits r hfits).mapLane (fun x hx => ?_)⟩
  refine (Lane.beginRun_inRange hx).withSearch (fun y hy => ?_)
  obtain rfl := Option.some.inj hy
  exact hr

theorem closeBoth_bounded {s : State} (first : LaneId) (runA runB : Nat) (h : s.Bounded) :
    (closeBoth first runA runB s).Bounded := by
  obtain ⟨⟨hc, ht, hcap, hv, -⟩, hfits⟩ := s.bounded_iff.mp h
  refine (State.bounded_iff _).mpr ⟨?_, closeBoth_fits first runA runB hfits⟩
  have e : (closeBoth first runA runB s).clock = { s.clock with phase := 0 } := by
    simp [closeBoth]
  rw [e]
  exact ⟨hc, ht, hcap, hv, Nat.zero_le _⟩

theorem execSetAlertMask_bounded (causes : Byte) {s t : State} (h : s.Bounded)
    (e : execSetAlertMask causes s = .next t) : t.Bounded := by
  unfold execSetAlertMask at e
  refine request_bounded h (by simp) (fun hf => ?_) e
  exact reply_fits _ _ (setMask_fits _ hf)

theorem execClearAlert_bounded (causes : Byte) {s t : State} (h : s.Bounded)
    (e : execClearAlert causes s = .next t) : t.Bounded := by
  unfold execClearAlert at e
  refine request_bounded h (by simp) (fun hf => ?_) e
  exact reply_fits _ _ (clearCauses_fits _ hf)

theorem execUnknownRequestKind_bounded (kind : Byte) {s t : State} (h : s.Bounded)
    (e : execUnknownRequestKind kind s = .next t) : t.Bounded := by
  unfold execUnknownRequestKind at e
  obtain ⟨-, e⟩ := checked_next e
  exact request_bounded h (by simp) (reply_fits _ _) e

theorem execRoundTimerExpiry_bounded (order : RoundOrder) {s t : State} (h : s.Bounded)
    (e : execRoundTimerExpiry order s = .next t) : t.Bounded := by
  unfold execRoundTimerExpiry at e
  obtain ⟨-, e⟩ := checked_next e
  exact running_bounded h (fun h => ite_bounded (fun _ => expire_bounded order h) h) e

theorem execEarlyWindowEdge_bounded (l : LaneId) (reading : Nat) (order : RoundOrder) {s t : State} (h : s.Bounded)
    (e : execEarlyWindowEdge l reading order s = .next t) : t.Bounded := by
  unfold execEarlyWindowEdge at e
  obtain ⟨-, e⟩ := checked_next e
  refine running_bounded h (fun h => ite_bounded (fun hacc => ?_) h) e
  obtain ⟨-, hr⟩ := State.acceptsEdge_range hacc
  exact startAtEdge_bounded l reading order hr h

theorem execLateWindowEdge_bounded (l : LaneId) (reading : Nat) {s t : State} (h : s.Bounded)
    (e : execLateWindowEdge l reading s = .next t) : t.Bounded := by
  unfold execLateWindowEdge at e
  exact running_bounded h (fun h => ite_bounded (fun _ => realign_bounded l reading h) h) e

theorem execDeferralPoint_bounded {s t : State} (h : s.Bounded)
    (e : execDeferralPoint s = .next t) : t.Bounded := by
  unfold execDeferralPoint at e
  exact running_bounded h (fun h => ite_bounded (fun _ => deferral_bounded (reach_bounded _ h)) h) e

theorem execOpenSearchAdoption_bounded (l : LaneId) (second : MarkReading) (leadInFirst : Bool) (order : RoundOrder) {s t : State} (h : s.Bounded)
    (e : execOpenSearchAdoption l second leadInFirst order s = .next t) : t.Bounded := by
  unfold execOpenSearchAdoption at e
  obtain ⟨-, e⟩ := checked_next e
  refine running_bounded h (fun h => ?_) e
  split
  · next x hx => exact ite_bounded (fun _ => adoptMark_bounded second leadInFirst order hx h) h
  · exact h

theorem execMarkClose_bounded (a b : MarkReading) (leadInFirst : Bool) {s t : State} (h : s.Bounded)
    (e : execMarkClose a b leadInFirst s = .next t) : t.Bounded := by
  unfold execMarkClose at e
  exact running_bounded h (fieldEvent_bounded (by decide) (fun _ => takeMarks_clock_inRange a b leadInFirst)
    (fun _ => takeMarks_fits a b leadInFirst)) e

theorem execSeventhLeadInTick_bounded (field : LeadInField) {s t : State} (h : s.Bounded)
    (e : execSeventhLeadInTick field s = .next t) : t.Bounded := by
  unfold execSeventhLeadInTick at e
  refine running_bounded h ?_ e
  cases field with
  | noticeWindow => exact dated_bounded (fun _ => by simp) (fun _ => noticeOutcome_fits)
  | repairWindow => exact dated_bounded (fun _ => by simp) (fun _ => repairOutcome_fits)

theorem execArbitrationLoss_bounded (field : LeadInField) (tick : Fin 7) (l : LaneId) {s t : State} (h : s.Bounded)
    (e : execArbitrationLoss field tick l s = .next t) : t.Bounded := by
  unfold execArbitrationLoss at e
  refine running_bounded h (dated_bounded (fun u => ?_) (fun u hf => ?_)) e
  · split <;> simp
  · exact ite_fits (fun _ => withdrawAll_fits (hf.mapLane (fun _ => Lane.tell_inRange _))) (fun _ => hf)

theorem execDriveFault_bounded (field : LeadInField) (tick : Fin 7) (l : LaneId) {s t : State} (h : s.Bounded)
    (e : execDriveFault field tick l s = .next t) : t.Bounded := by
  unfold execDriveFault at e
  refine running_bounded h (dated_bounded (fun u => ?_) (fun u hf => ?_)) e
  · split <;> simp
  · exact ite_fits (fun _ => driveFaultOn_fits l hf) (fun _ => hf)

theorem execEchoMismatch_bounded (l : LaneId) (reading : Nat) {s t : State} (h : s.Bounded)
    (e : execEchoMismatch l reading s = .next t) : t.Bounded := by
  unfold execEchoMismatch at e
  refine running_bounded h (dated_bounded (fun u => ?_) (fun u hf => ?_)) e
  · split <;> simp
  · exact ite_fits (fun _ => mismatchOn_fits l hf) (fun _ => hf)

theorem execEchoMeasurement_bounded (l : LaneId) (value : BitVec 8) (reading : Nat) {s t : State} (h : s.Bounded)
    (e : execEchoMeasurement l value reading s = .next t) : t.Bounded := by
  unfold execEchoMeasurement at e
  refine running_bounded h (dated_bounded (fun u => ?_) (fun u hf => ?_)) e
  · split
    · simp
    · split <;> simp
  · exact ite_fits (fun _ => writeLateEcho_fits l value hf)
      (fun _ => ite_fits (fun _ => writeEcho_fits l value hf) (fun _ => hf))

theorem execEchoLate_bounded (l : LaneId) (reading : Nat) {s t : State} (h : s.Bounded)
    (e : execEchoLate l reading s = .next t) : t.Bounded := by
  unfold execEchoLate at e
  refine running_bounded h (dated_bounded (fun u => ?_) (fun u hf => ?_)) e
  · split <;> simp
  · exact ite_fits (fun _ => echoLateOn_fits l hf) (fun _ => hf)

theorem execNoticeWindowClose_bounded (a b : NoticeReading) (order : CloseOrder) {s t : State} (h : s.Bounded)
    (e : execNoticeWindowClose a b order s = .next t) : t.Bounded := by
  unfold execNoticeWindowClose at e
  obtain ⟨-, e⟩ := checked_next e
  exact running_bounded h (fieldEvent_bounded (by decide) (fun u hc => by simpa using hc)
    (fun _ => closeNotice_fits a b order)) e

theorem execAnswerClose_bounded (a b : AnswerReading) (sendFirst : Bool) {s t : State} (h : s.Bounded)
    (e : execAnswerClose a b sendFirst s = .next t) : t.Bounded := by
  unfold execAnswerClose at e
  exact running_bounded h (fieldEvent_bounded (by decide) (fun u hc => by simpa using hc)
    (fun _ => closeAnswers_fits a b sendFirst)) e

theorem execRepairWindowClose_bounded (a b : BlockReading) {s t : State} (h : s.Bounded)
    (e : execRepairWindowClose a b s = .next t) : t.Bounded := by
  unfold execRepairWindowClose at e
  exact running_bounded h (fieldEvent_bounded (by decide) (fun u hc => by simpa using hc)
    (fun _ => closeRepair_fits a b)) e

theorem execSlotStart_bounded (n : Fin 24) {s t : State} (h : s.Bounded)
    (e : execSlotStart n s = .next t) : t.Bounded := by
  unfold execSlotStart at e
  exact running_bounded h (State.Bounded.of_fits (by split <;> simp)
    (fun hf => ite_fits (fun _ => startSlot_fits _ hf) (fun _ => hf))) e

theorem execResendSent_bounded {s t : State} (h : s.Bounded)
    (e : execResendSent s = .next t) : t.Bounded := by
  unfold execResendSent at e
  refine running_bounded h (fun h => ?_) e
  split
  · exact dated_bounded (fun u => by simp) (fun _ => endResend_fits _) h
  · exact h

theorem execSlotPass_bounded (n : Fin 24) (a b : BlockReading) (order : List PassStep) {s t : State} (h : s.Bounded)
    (e : execSlotPass n a b order s = .next t) : t.Bounded := by
  unfold execSlotPass at e
  obtain ⟨-, e⟩ := checked_next e
  exact running_bounded h (fieldEvent_bounded (by omega) (fun u hc => by simpa using hc)
    (fun _ => passSlot_fits _ a b order)) e

theorem execWindowClose_bounded (first : LaneId) (runA runB : Nat) (reading : Nat) {s t : State} (h : s.Bounded)
    (e : execWindowClose first runA runB reading s = .next t) : t.Bounded := by
  unfold execWindowClose at e
  exact running_bounded h (fun h => dated_cases
    (fun _ => ite_bounded (fun _ => closeBoth_bounded first runA runB (reach_bounded _ h)) (reach_bounded _ h)) h) e

theorem execLongRun_bounded (id : LaneId) (reading : Nat) {s t : State} (h : s.Bounded)
    (e : execLongRun id reading s = .next t) : t.Bounded := by
  unfold execLongRun at e
  refine running_bounded h (dated_bounded (fun u => ?_) (fun u hf => ?_)) e
  · split <;> simp
  · exact ite_fits (fun _ => longRunOn_fits id hf) (fun _ => hf)

theorem execHeldRun_bounded (id : LaneId) (reading : Nat) {s t : State} (h : s.Bounded)
    (e : execHeldRun id reading s = .next t) : t.Bounded := by
  unfold execHeldRun at e
  refine running_bounded h (dated_bounded (fun u => ?_) (fun u hf => ?_)) e
  · split <;> simp
  · exact ite_fits (fun _ => heldRunOn_fits id hf) (fun _ => hf)

theorem execCodeViolation_bounded (id : LaneId) (kind : ViolationKind) (reading : Nat) {s t : State} (h : s.Bounded)
    (e : execCodeViolation id kind reading s = .next t) : t.Bounded := by
  unfold execCodeViolation at e
  refine running_bounded h (dated_bounded (fun u => ?_) (fun u hf => ?_)) e
  · split <;> simp
  · exact ite_fits (fun _ => framedReport_fits id kind hf) (fun _ => hf)

theorem execUncleanStretch_bounded (id : LaneId) (activity : List LevelRun) {s t : State} (h : s.Bounded)
    (e : execUncleanStretch id activity s = .next t) : t.Bounded := by
  unfold execUncleanStretch at e
  exact running_bounded h (State.Bounded.of_fits (by split <;> simp)
    (fun hf => ite_fits (fun _ => hf.mapLane (fun _ => countActivity_inRange _ _)) (fun _ => hf))) e

theorem execLengthWord_bounded (p : Port) (value : Nat) {s t : State} (h : s.Bounded)
    (e : execLengthWord p value s = .next t) : t.Bounded := by
  unfold execLengthWord at e
  exact running_bounded h (State.Bounded.of_fits (by split <;> simp)
    (fun hf => ite_fits (fun hready => takeLength_fits p value hready hf) (fun _ => hf))) e

theorem execDataByte_bounded (p : Port) (byte : Byte) {s t : State} (h : s.Bounded)
    (e : execDataByte p byte s = .next t) : t.Bounded := by
  unfold execDataByte at e
  exact running_bounded h (State.Bounded.of_fits (by split <;> simp)
    (fun hf => ite_fits (fun _ => takeByte_fits p byte hf) (fun _ => hf))) e

theorem execOutHalfItemTaken_bounded (p : Port) {s t : State} (h : s.Bounded)
    (e : execOutHalfItemTaken p s = .next t) : t.Bounded := by
  unfold execOutHalfItemTaken at e
  refine running_bounded h (State.Bounded.of_fits rfl (fun hf => hf.mapRecv (fun he => ⟨?_, he.2⟩))) e
  exact (List.tail_sublist _).length_le.trans he.1

theorem execSupplyWarn_bounded {s t : State} (h : s.Bounded)
    (e : execSupplyWarn s = .next t) : t.Bounded := by
  unfold execSupplyWarn at e
  exact running_bounded h (State.Bounded.of_fits (by simp) supplyWarns_fits) e

theorem execSupplyOk_bounded {s t : State} (h : s.Bounded)
    (e : execSupplyOk s = .next t) : t.Bounded := by
  unfold execSupplyOk at e
  exact running_bounded h (State.Bounded.of_fits (by simp) supplyRecovers_fits) e

theorem execSupplyReset_bounded {s t : State} (e : execSupplyReset s = .next t) : t.Bounded := by
  obtain rfl := Host.Outcome.next.inj e
  exact cleared_bounded _ _ _ _

theorem execPowerOnReset_bounded {s t : State} (e : execPowerOnReset s = .next t) : t.Bounded := by
  obtain rfl := Host.Outcome.next.inj e
  exact cleared_bounded _ _ _ _

theorem execPinReset_bounded {s t : State} (e : execPinReset s = .next t) : t.Bounded := by
  obtain rfl := Host.Outcome.next.inj e
  exact cleared_bounded _ _ _ _

theorem execResetRelease_bounded (straps : BitVec 10) (aboveWarn : Bool) {s t : State} (h : s.Bounded)
    (e : execResetRelease straps aboveWarn s = .next t) : t.Bounded := by
  obtain rfl := Host.Outcome.next.inj e
  exact ite_bounded (fun _ => release_bounded s straps aboveWarn) h

theorem execOpenSearchEdge_bounded (l : LaneId) (reading : Nat) (passiveFor : Nat) {s t : State} (h : s.Bounded)
    (e : execOpenSearchEdge l reading passiveFor s = .next t) : t.Bounded := by
  unfold execOpenSearchEdge at e
  refine running_bounded h (fun h => ite_bounded (fun hacc => ?_) h) e
  refine openReading_bounded l reading ?_ h
  unfold State.acceptsSearch at hacc
  simp only [Bool.and_eq_true] at hacc
  obtain ⟨⟨⟨⟨-, hedge⟩, -⟩, -⟩, -⟩ := hacc
  have := (State.acceptsEdge_range hedge).2
  simp [Config.earlyWindowAt] at this
  omega

theorem exec_bounded {c : Instr} {s t : State} (h : s.Bounded) (e : exec c s = .next t) : t.Bounded := by
  cases c with
  | openSend port count cls priority => exact request_bounded h (by simp) (openSend_fits _ _ _ _) e
  | openReceive port tag delay cls => exact request_bounded h (by simp) (openReceive_fits _ _ _ _) e
  | close entry => exact request_bounded h (by simp) (closeEntry_fits _) e
  | readStream entry => exact request_bounded h (by simp) (readStream_fits _) e
  | readLanes => exact request_bounded h (by simp) (reply_fits _ _) e
  | readSlot slot => exact request_bounded h (by simp) (readSlot_fits _) e
  | readStation => exact request_bounded h (by simp) (reply_fits _ _) e
  | takeEvents n => exact request_bounded h (by simp) (takeEvents_fits _) e
  | setAlertMask causes => exact execSetAlertMask_bounded _ h e
  | clearAlert causes => exact execClearAlert_bounded _ h e
  | holdLane lane hold => exact request_bounded h (by simp) (holdLane_fits _ _) e
  | unknownRequestKind kind => exact execUnknownRequestKind_bounded _ h e
  | frameDiscarded flaw =>
    obtain rfl := Host.Outcome.next.inj e
    exact h
  | frameIdleTimeout =>
    obtain rfl := Host.Outcome.next.inj e
    exact h
  | replyFrameSent =>
    obtain rfl := Host.Outcome.next.inj e
    exact h
  | roundTimerExpiry order => exact execRoundTimerExpiry_bounded _ h e
  | earlyWindowEdge lane reading order => exact execEarlyWindowEdge_bounded _ _ _ h e
  | lateWindowEdge lane reading => exact execLateWindowEdge_bounded _ _ h e
  | deferralPoint => exact execDeferralPoint_bounded h e
  | openSearchAdoption lane otherLane leadInFirst order => exact execOpenSearchAdoption_bounded _ _ _ _ h e
  | markClose a b leadInFirst => exact execMarkClose_bounded _ _ _ h e
  | seventhLeadInTick field => exact execSeventhLeadInTick_bounded _ h e
  | arbitrationLoss field tick lane => exact execArbitrationLoss_bounded _ _ _ h e
  | driveFault field tick lane => exact execDriveFault_bounded _ _ _ h e
  | echoMismatch lane reading => exact execEchoMismatch_bounded _ _ h e
  | echoMeasurement lane value reading => exact execEchoMeasurement_bounded _ _ _ h e
  | echoLate lane reading => exact execEchoLate_bounded _ _ h e
  | noticeWindowClose a b order => exact execNoticeWindowClose_bounded _ _ _ h e
  | answerClose a b sendFirst => exact execAnswerClose_bounded _ _ _ h e
  | repairWindowClose a b => exact execRepairWindowClose_bounded _ _ h e
  | slotStart slot => exact execSlotStart_bounded _ h e
  | resendSent => exact execResendSent_bounded h e
  | slotPass slot a b order => exact execSlotPass_bounded _ _ _ _ h e
  | windowClose first runA runB reading => exact execWindowClose_bounded _ _ _ _ h e
  | longRun lane reading => exact execLongRun_bounded _ _ h e
  | heldRun lane reading => exact execHeldRun_bounded _ _ h e
  | codeViolation lane kind reading => exact execCodeViolation_bounded _ _ _ h e
  | uncleanStretch lane activity => exact execUncleanStretch_bounded _ _ h e
  | lengthWord port value => exact execLengthWord_bounded _ _ h e
  | dataByte port byte => exact execDataByte_bounded _ _ h e
  | outHalfItemTaken port => exact execOutHalfItemTaken_bounded _ h e
  | supplyWarn => exact execSupplyWarn_bounded h e
  | supplyOk => exact execSupplyOk_bounded h e
  | supplyReset => exact execSupplyReset_bounded e
  | backupSupplyLow =>
    obtain rfl := Host.Outcome.next.inj e
    exact h
  | powerOnReset => exact execPowerOnReset_bounded e
  | pinReset => exact execPinReset_bounded e
  | resetRelease straps aboveWarn => exact execResetRelease_bounded _ _ h e
  | openSearchEdge lane reading passiveFor => exact execOpenSearchEdge_bounded _ _ _ h e

theorem idle_bounded {s : State} (h : s.Bounded) : (idle s).Bounded := ite_bounded (fun _ => h) (reach_bounded _ h)

/-- Settles O58: the front command, or one unit of time, keeps every bound. -/
theorem stepKeepsBounded : Obligations.StepKeepsBounded := by
  intro s t h e
  unfold step at e
  split at e
  · obtain rfl := Host.Outcome.next.inj e
    exact idle_bounded h
  · next c rest _ =>
    have front : ({ s with pending := rest } : State).Bounded := h
    exact exec_bounded front e

end Sys2Proof.Machine
end

section
/-! PROOF LAYER. The state after reset. -/

namespace Sys2Proof.Machine

open Sys2Proof

theorem reset_modeFields : State.reset.ModeFields := by
  unfold State.ModeFields
  decide

theorem reset_storeFits : State.reset.StoreFits := by
  unfold State.StoreFits
  decide

/-- Settles O56: a cleared state is within every bound, with the fields of STARTING alone and no buffer reserved. -/
theorem resetStateSatisfiesInvariants : Obligations.ResetStateSatisfiesInvariants :=
  ⟨cleared_bounded _ _ _ _, reset_modeFields, reset_storeFits⟩

end Sys2Proof.Machine
end

section
/-! PROOF LAYER. The passing of time, and the order of the field events (R1, R3, R37, R41). -/

namespace Sys2Proof.Machine

open Sys2Proof

/-! ### How far time passes -/

/-- Time waits at the next field event of the round and at the window close of an enabled lane. -/
theorem State.le_horizon_iff {r : Nat} {s : State} :
    r ≤ s.horizon ↔ r ≤ Config.eventAt s.clock.closed ∧ ∀ l : LaneId, (s.lanes.get l).state ≠ .off →
      r ≤ s.clock.timer + (100 * (256 - (s.lanes.get l).windowCounter) - s.clock.phase) := by
  have lane : ∀ (x : Lane) (m : Nat), r ≤ (if x.enabled then min m (s.windowAt x) else m)
      ↔ r ≤ m ∧ (x.state ≠ .off → r ≤ s.windowAt x) := by
    intro x m
    by_cases h : x.state = .off <;> simp [Lane.enabled, h]
  have lanes : ∀ P : LaneId → Prop, (∀ l, P l) ↔ P .a ∧ P .b :=
    fun P => ⟨fun h => ⟨h .a, h .b⟩, fun h l => by cases l; exacts [h.1, h.2]⟩
  unfold State.horizon
  simp only [lane, lanes]
  tauto

theorem step_of_holding {s : State} (hp : s.pending = []) (h : s.holding = true) : step s = .next s := by
  simp [step, hp, idle, h]

theorem step_of_idle {s : State} (hp : s.pending = []) (h : s.holding = false) : step s = .next (reach (s.clock.timer + 1) s) := by
  simp [step, hp, idle, h, tick]

/-- Time beyond the horizon is time up to the horizon. -/
theorem reach_beyond {r : Nat} {s : State} (h : s.horizon ≤ r) : reach r s = reach s.horizon s := by
  unfold reach
  rw [Nat.min_eq_right h, Nat.min_self]

theorem reach_passed {r : Nat} {s : State} (h : r ≤ s.clock.timer) : reach r s = s :=
  reach_of_le ((Nat.min_le_left _ _).trans h)

/-! ### What time does to a lane -/

/-- A lane over `d` units up to reading `r`, with `n` window ticks among them. -/
def Lane.elapse (r d n : Nat) (x : Lane) : Lane := ((dropStale r x).passRun d).countTicks n

/-- What the passing of `d` units up to reading `r` makes of a lane: its window counter, its dominant run and its open-search reading move
(R14, R37, R41), and all else that it holds stands. -/
def Lane.Elapsed (r d n : Nat) (x y : Lane) : Prop :=
  let outlived := x.reported = .none ∧ 1200 < x.run + d ∨ x.reported = .long ∧ 50000 < x.run + d
  (x.state ≠ .off → y.windowCounter = min 255 (x.windowCounter + n))
  ∧ (x.state = .off → y.windowCounter = x.windowCounter)
  ∧ (x.dominant = false → y.run = x.run ∧ y.dominant = false ∧ y.reported = x.reported)
  ∧ (x.dominant = true → ¬ outlived → y.run = min 50000 (x.run + d) ∧ y.dominant = true ∧ y.reported = x.reported)
  ∧ (x.dominant = true → outlived → y.run = 0 ∧ y.dominant = false ∧ y.reported = .none)
  ∧ y.search = x.search.filter (fun o => decide ((if o.crossed then o.carried + r else r - o.edge) ≤ 800))
  ∧ y.state = x.state ∧ y.cause = x.cause ∧ y.echoOwed = x.echoOwed ∧ y.violations = x.violations
  ∧ y.windowHeld = x.windowHeld ∧ y.quiet = x.quiet ∧ y.marks = x.marks ∧ y.rounds = x.rounds
  ∧ y.contPhase = x.contPhase ∧ y.echoDelay = x.echoDelay ∧ y.measuring = x.measuring ∧ y.hold = x.hold

/-- The dominant run over `d` units (R41). -/
theorem Lane.passRun_spec (d : Nat) (x : Lane) :
    let outlived := x.reported = .none ∧ 1200 < x.run + d ∨ x.reported = .long ∧ 50000 < x.run + d
    (x.dominant = false → x.passRun d = x)
    ∧ (x.dominant = true → ¬ outlived → x.passRun d = { x with run := min 50000 (x.run + d) })
    ∧ (x.dominant = true → outlived → x.passRun d = x.endRun) := by
  intro outlived
  have test : ((x.reported == .none && decide (Config.longRun < x.run + d)) ||
      (x.reported == .long && decide (Config.heldRun < x.run + d))) = true ↔ outlived := by
    simp only [Bool.or_eq_true, Bool.and_eq_true, beq_iff_eq, decide_eq_true_eq]
    exact Iff.rfl
  refine ⟨fun h => ?_, fun h ho => ?_, fun h ho => ?_⟩
  · simp [Lane.passRun, h]
  · unfold Lane.passRun
    rw [if_pos h, if_neg (mt test.mp ho)]
    rfl
  · unfold Lane.passRun
    rw [if_pos h, if_pos (test.mpr ho)]

theorem Lane.passRun_frame (d : Nat) (x : Lane) :
    ∃ run dominant reported, x.passRun d = { x with run := run, dominant := dominant, reported := reported } := by
  unfold Lane.passRun
  split
  · split
    · exact ⟨_, _, _, rfl⟩
    · exact ⟨_, _, _, rfl⟩
  · exact ⟨_, _, _, rfl⟩

theorem Lane.countTicks_frame (n : Nat) (x : Lane) :
    x.countTicks n = { x with windowCounter := if x.state = .off then x.windowCounter else min 255 (x.windowCounter + n) } := by
  unfold Lane.countTicks Lane.enabled
  by_cases h : x.state = .off
  · rw [if_neg (by simp [h]), if_pos h]
  · rw [if_pos (by simp [h]), if_neg h]

theorem Lane.elapse_elapsed (r d n : Nat) (x : Lane) : Lane.Elapsed r d n x (x.elapse r d n) := by
  unfold Lane.elapse
  rw [Lane.countTicks_frame]
  obtain ⟨passive, counted, ended⟩ := (dropStale r x).passRun_spec d
  obtain ⟨run, dominant, reported, e⟩ := (dropStale r x).passRun_frame d
  have hstate : ((dropStale r x).passRun d).state = x.state := by rw [e]; rfl
  have hcounter : ((dropStale r x).passRun d).windowCounter = x.windowCounter := by rw [e]; rfl
  refine ⟨fun h => ?_, fun h => ?_, fun h => ?_, fun h ho => ?_, fun h ho => ?_, ?_⟩
  · rw [hstate, hcounter]
    exact if_neg h
  · rw [hstate, hcounter]
    exact if_pos h
  · rw [passive h]
    exact ⟨rfl, h, rfl⟩
  · rw [counted h ho]
    exact ⟨rfl, h, rfl⟩
  · rw [ended h ho]
    exact ⟨rfl, rfl, rfl⟩
  · rw [e]
    exact ⟨rfl, rfl, rfl, rfl, rfl, rfl, rfl, rfl, rfl, rfl, rfl, rfl, rfl⟩

/-- Lanes that agree in all that a monitor holds pass time alike. -/
theorem Lane.Elapsed.of_agrees {r d n : Nat} {x y z : Lane} (h : y.agrees x) (hz : Lane.Elapsed r d n y z) :
    Lane.Elapsed r d n x z := by
  unfold Lane.agrees at h
  unfold Lane.Elapsed at hz ⊢
  simpa only [h] using hz

/-! ### What time does to the station -/

/-- Within the horizon the moments on the way are passed, the timer and the local time base move, and with them the lanes. -/
theorem reach_of_within {r : Nat} {s : State} (h : s.clock.timer < r) (hr : r ≤ s.horizon) :
    let d := r - s.clock.timer
    let base := s.clock.phase + d
    let u := passMoments (fun t => s.clock.timer < t && t ≤ r) s
    reach r s = { u with
      clock := { u.clock with
        timer := r,
        phase := if s.lanes.any (fun l => l.enabled && Config.windowTicks ≤ l.windowCounter + base / Config.tickUnits)
          then Config.tickUnits else base % Config.tickUnits }
      lanes := u.lanes.map (Lane.elapse r d (base / Config.tickUnits)) } := by
  intro d base u
  unfold reach
  rw [Nat.min_eq_left hr]
  dsimp only
  rw [if_neg (by omega)]
  rfl

/-- Settles O2: the steps without a command, how far time passes, and what it does to the clock and to each lane. -/
theorem timePassesBetweenCommands : Obligations.TimePassesBetweenCommands := by
  refine ⟨fun s => step_of_holding, fun s => step_of_idle, ⟨rfl, rfl, rfl, rfl, fun _ => rfl, rfl⟩, fun r s => State.le_horizon_iff,
    fun r s => reach_beyond, fun r s => reach_passed, fun r s h hr => ?_⟩
  refine ⟨?_, fun l => ?_, ?_⟩
  · rw [reach_of_within h hr]
    simp only [passMoments_frame]
    rfl
  · have agrees := passMoments_agrees (fun t => s.clock.timer < t && t ≤ r) s l
    have elapsed := (Lane.elapse_elapsed r (r - s.clock.timer) ((s.clock.phase + (r - s.clock.timer)) / Config.tickUnits) _).of_agrees agrees
    rw [reach_of_within h hr]
    simp only [PerLane.get_map]
    exact elapsed
  · simp

end Sys2Proof.Machine
end

section
/-! PROOF LAYER. The order of the field events of a round (R3), and the lanes of the field that begins with each (R21). -/

namespace Sys2Proof.Machine

open Sys2Proof

/-! ### The lanes of a field that begins (R21) -/

/-- A field has just begun: the receive-usable lanes contribute to it, and the transmit-usable ones may be entered in it. -/
def State.FieldBegun (s : State) : Prop :=
  ∀ l : LaneId, (s.lanes.get l).contributing = (s.lanes.get l).receiveUsable
    ∧ (s.lanes.get l).admitted = (s.lanes.get l).transmitUsable

theorem beginField_begun (t : Nat) (s : State) : (beginField t s).FieldBegun := by
  intro l
  rw [beginField_lanes, PerLane.get_map]
  exact ⟨rfl, rfl⟩

theorem driveOn_begun {s : State} (test : Lane → Bool) (c : DriveContent) (h : s.FieldBegun) : (driveOn test c s).FieldBegun := by
  intro l
  simp only [driveOn, PerLane.get_map]
  split <;> exact h l

theorem contendOn_begun {s : State} (test : LaneId → Bool) (field : LeadInField) (v : BitVec 7) (h : s.FieldBegun) :
    (contendOn test field v s).FieldBegun := by
  intro l
  unfold contendOn
  dsimp only
  split
  · cases l
    · dsimp only [PerLane.get]
      split <;> exact h .a
    · dsimp only [PerLane.get]
      split <;> exact h .b
  · exact h l

theorem contendNotice_begun {s : State} (lanes : PerLane Lane) (h : s.FieldBegun) : (contendNotice lanes s).FieldBegun := by
  unfold contendNotice
  split
  · split
    · exact contendOn_begun _ _ _ h
    · exact h
  · exact h

theorem closeMark_begun (a b : Copy Unit) (leadInFirst : Bool) (s : State) : (closeMark a b leadInFirst s).FieldBegun :=
  contendNotice_begun _ (beginField_begun _ _)

theorem closeNotice_begun (a b : NoticeReading) (order : CloseOrder) (s : State) : (closeNotice a b order s).FieldBegun := by
  have begun : ∀ (c : Bool) (u : State), u.FieldBegun → (applyIf c startAnswer u).FieldBegun := by
    intro c u hu
    cases c
    · exact hu
    · exact driveOn_begun _ _ hu
  exact begun _ _ (beginField_begun _ _)

/-! ### Events and readings in their order (R3) -/

theorem running_fieldEvent_of_due {s : State} {k : Nat} (f : State → State) (hs : s.holding = false) (h : s.due k = true) :
    running (fieldEvent k f) s = .next (f (atEvent k s)) := by
  rw [running_of_free hs, fieldEvent_of_due f h]

theorem running_fieldEvent_of_not {s : State} {k : Nat} (f : State → State) (hs : s.holding = false) (h : s.due k = false) :
    running (fieldEvent k f) s = .next s := by
  rw [running_of_free hs, fieldEvent_of_not f h]

theorem running_dated_of_not {s : State} {r : Nat} (f : State → State) (hs : s.holding = false) (h : s.reaches r = false) :
    running (dated r f) s = .next s := by
  rw [running_of_free hs, dated_of_not f h]

/-- A field event occurs once, in its order: it leaves the timer at its reading with the event counted and a new field begun, and does
nothing when it is not due. -/
theorem fieldEvent_in_order {c : Instr} {s : State} {k : Nat} {f : State → State} (e : exec c s = running (fieldEvent k f) s)
    (hs : s.holding = false)
    (ht : ∀ u, (f u).clock.timer = u.clock.timer) (hc : ∀ u, (f u).clock.closed = u.clock.closed) (hf : ∀ u, (f u).FieldBegun) :
    (s.due k = true → ∃ t, exec c s = .next t ∧ t.clock.timer = Config.eventAt k ∧ t.clock.closed = k + 1
      ∧ t.FieldBegun)
    ∧ (s.due k = false → exec c s = .next s) := by
  rw [e]
  refine ⟨fun h => ?_, running_fieldEvent_of_not f hs⟩
  obtain ⟨htimer, hclosed⟩ := atEvent_clock_of_due h
  exact ⟨_, running_fieldEvent_of_due f hs h, (ht _).trans htimer, (hc _).trans hclosed, hf _⟩

theorem exec_slotStart_elsewhere {s : State} {n : Fin 24} (hs : s.holding = false)
    (h : ¬ (s.clock.closed = n.val + 4 ∧ s.clock.timer = 5000 + 800 * n.val)) : exec (.slotStart n) s = .next s := by
  have at_start : s.atSlotStart n.val = false := by
    unfold State.atSlotStart
    rw [Bool.eq_false_iff]
    intro hb
    exact h (by simpa [Config.slotStartAt] using hb)
  change running _ s = _
  rw [running_of_free hs, at_start]
  rfl

theorem exec_roundTimerExpiry_early {s : State} {order : RoundOrder} (hs : s.holding = false) (ho : order.admissible = true)
    (h : s.due 28 = false) : exec (.roundTimerExpiry order) s = .next s := by
  change checked _ (running _ s) = _
  rw [ho, checked_true, running_of_free hs, show s.due Config.expiryEvent = false from h]
  rfl

/-- Settles O4: each field event through `fieldEvent_in_order`, every command that carries a reading through `dated`. -/
theorem fieldEventsOccurInOrder : Obligations.FieldEventsOccurInOrder := by
  intro s hs
  refine ⟨fun r => State.reaches_iff, fun k => State.due_iff, fun a b f => ?_, fun a b order ho => ?_, fun a b f => ?_, fun a b => ?_,
    fun n a b order ho => ?_, fun order => exec_roundTimerExpiry_early hs, fun n => exec_slotStart_elsewhere hs,
    running_dated_of_not _ hs, running_dated_of_not _ hs, fun r hr => ?_⟩
  · exact fieldEvent_in_order rfl hs (fun u => by simp) (fun u => by simp) (fun u => closeMark_begun _ _ _ _)
  · have e : exec (.noticeWindowClose a b order) s = running (fieldEvent 1 (closeNotice a b order)) s := by
      change checked _ _ = _
      rw [ho, checked_true]
    exact fieldEvent_in_order e hs (fun u => by simp) (fun u => by simp) (closeNotice_begun a b order)
  · exact fieldEvent_in_order rfl hs (fun u => by simp) (fun u => by simp) (fun u => beginField_begun _ _)
  · exact fieldEvent_in_order rfl hs (fun u => by simp) (fun u => by simp) (fun u => beginField_begun _ _)
  · have e : exec (.slotPass n a b order) s = running (fieldEvent (n.val + 4) (passSlot n.val a b order)) s := by
      change checked _ _ = _
      rw [ho, checked_true]
    exact fieldEvent_in_order e hs (fun u => by simp) (fun u => by simp) (fun u => beginField_begun _ _)
  · have nothing : ∀ f, running (dated r f) s = .next s := fun f => running_dated_of_not f hs hr
    exact ⟨fun l => ⟨nothing _, nothing _, nothing _, nothing _⟩, fun l v => nothing _, fun l x y => nothing _, fun l k => nothing _⟩

end Sys2Proof.Machine
end

section
/-! PROOF LAYER. The local round start (R2): what each command that starts a round answers, and what the steps do. -/

namespace Sys2Proof.Machine

open Sys2Proof

/-! ### The commands that start a round -/

theorem exec_roundTimerExpiry_due {s : State} {order : RoundOrder} (hs : s.holding = false) (ho : order.admissible = true)
    (h : s.due 28 = true) : exec (.roundTimerExpiry order) s = .next (expire order s) := by
  change checked _ (running _ s) = _
  rw [ho, checked_true, running_of_free hs, if_pos (show s.due Config.expiryEvent = true from h)]

theorem exec_earlyWindowEdge {s : State} {order : RoundOrder} (l : LaneId) (r : Nat) (hs : s.holding = false)
    (ho : order.admissible = true) :
    exec (.earlyWindowEdge l r order) s = .next (if s.acceptsEdge l r 24800 24999 then startAtEdge l r order s else s) := by
  change checked _ (running _ s) = _
  rw [ho, checked_true, running_of_free hs]
  rfl

theorem exec_openSearchAdoption_none {s : State} {order : RoundOrder} (l : LaneId) (second : MarkReading) (leadInFirst : Bool)
    (hs : s.holding = false) (ho : order.admissible = true) (h : (s.lanes.get l).search = none) :
    exec (.openSearchAdoption l second leadInFirst order) s = .next s := by
  change checked _ (running _ s) = _
  rw [ho, checked_true, running_of_free hs]
  simp only [h]

theorem exec_openSearchAdoption_some {s : State} {order : RoundOrder} {l : LaneId} {x : Search} (second : MarkReading)
    (leadInFirst : Bool) (hs : s.holding = false) (ho : order.admissible = true) (h : (s.lanes.get l).search = some x) :
    exec (.openSearchAdoption l second leadInFirst order) s
      = .next (if s.reaches x.completesAt then adoptMark l x second leadInFirst order s else s) := by
  change checked _ (running _ s) = _
  rw [ho, checked_true, running_of_free hs]
  simp only [h]

theorem Search.completesAt_eq (x : Search) : x.completesAt = if x.crossed then 800 - x.carried else x.edge + 800 := rfl

theorem Search.completesAt_of_uncrossed {x : Search} (h : x.crossed = false) : x.completesAt = x.edge + 800 := by
  rw [Search.completesAt_eq, h]
  rfl

/-- An adoption without a round start since its edge: the round of the mark is cut short, a round starts, and its mark close is taken
with the adopted copy on the reading's lane (R14, R15). -/
theorem adoptMark_uncrossed {s : State} {x : Search} (l : LaneId) (second : MarkReading) (leadInFirst : Bool) (order : RoundOrder)
    (hx : x.crossed = false) :
    let u := tellAdoption l second (reach (x.edge + 800) s)
    let copy := otherCopy (u.lanes.get (otherLane l)) second
    adoptMark l x second leadInFirst order s
      = closeMark (if l = .a then .valid () else copy) (if l = .a then copy else .valid ()) leadInFirst
          (adopt x (startRound order false u.clock.timer (cutShort u))) := by
  intro u copy
  unfold adoptMark
  rw [Search.completesAt_of_uncrossed hx, hx]
  cases l <;> rfl

/-! ### The steps -/

/-- As a round opens its number advances, its timer restarts with no field event occurred, the mark field begins, a repair turn ends and no
slot is in progress (R1, R2, R3, R132). -/
theorem openRound_spec (r : Nat) (u : State) :
    let t := openRound r u
    t.clock = { u.clock with
        round := u.clock.round + 1, timer := 0, closed := 0, lateWindow := false, edgeTaken := false, drove := false }
    ∧ t.repair = { u.repair with turn := false } ∧ t.notices = { u.notices with sentNotice := false }
    ∧ t.drive = { content := .none, leadIn := none, lost := false, handed := none, drove := none }
    ∧ t.send = u.send.map (fun e => { e with served := none })
    ∧ (∀ l : LaneId, (t.lanes.get l).drive = .notDriving ∧ (t.lanes.get l).state = (u.lanes.get l).state
        ∧ (t.lanes.get l).contributing = (u.lanes.get l).receiveUsable
        ∧ (t.lanes.get l).admitted = (u.lanes.get l).transmitUsable)
    ∧ t.pending = u.pending ∧ t.hold = u.hold ∧ t.table = u.table ∧ t.recv = u.recv ∧ t.ctrl = u.ctrl ∧ t.mgmt = u.mgmt := by
  refine ⟨rfl, rfl, rfl, rfl, rfl, fun l => ?_, rfl, rfl, rfl, rfl, rfl, rfl⟩
  cases l <;> exact ⟨rfl, rfl, rfl, rfl⟩

theorem applyIf_eq_ite (p : Prop) [Decidable p] {c : Bool} (f : State → State) (s : State) (h : c = true ↔ p) :
    applyIf c f s = if p then f s else s := by
  unfold applyIf
  by_cases hp : p
  · rw [if_pos hp, if_pos (h.mpr hp)]
  · rw [if_neg hp, if_neg (mt h.mp hp)]

theorem applyIf_joined (c : RoundCtx) (f : State → State) (s : State) :
    applyIf (c.mode == .joined) f s = if c.mode = .joined then f s else s :=
  applyIf_eq_ite _ f s beq_iff_eq

/-- The modes in which a round start rewrites the retained context (R176). -/
theorem RoundCtx.rewrites_iff (c : RoundCtx) :
    c.rewrites = true ↔ c.mode = .joined ∨ c.mode = .resync ∨ (c.mode = .dark ∧ c.returnMode ≠ some .listening) := by
  unfold RoundCtx.rewrites
  cases c.mode <;> simp

theorem roundStep_held (c : RoundCtx) (u : State) :
    roundStep c u .held = if c.mode = .faulted then u else forPorts heldRound u := by
  have h := applyIf_eq_ite (c.mode ≠ .faulted) (c := c.mode != .faulted) (forPorts heldRound) u bne_iff_ne
  rw [ite_not] at h
  exact h

theorem roundStep_rewrite (c : RoundCtx) (u : State) :
    roundStep c u .rewrite
      = if (c.mode = .joined ∨ c.mode = .resync ∨ (c.mode = .dark ∧ c.returnMode ≠ some .listening))
            ∧ u.ctrl.context.frozen = false then rewriteContext u else u :=
  applyIf_eq_ite _ _ _ (by rw [Bool.and_eq_true, RoundCtx.rewrites_iff, Bool.not_eq_true'])

/-- Settles O42: the three commands that start a round, the opening of the round, and each step. -/
theorem roundStartRunsItsSteps : Obligations.RoundStartRunsItsSteps := by
  intro order s hs ho
  refine ⟨fun h => exec_roundTimerExpiry_due hs ho h, fun l r h => ?_, fun l second leadInFirst x hx hc hr => ?_,
    fun r u => openRound_spec r u, fun c u => ?_⟩
  · rw [exec_earlyWindowEdge l r hs ho, if_pos h]
    rfl
  · rw [exec_openSearchAdoption_some second leadInFirst hs ho hx, Search.completesAt_of_uncrossed hc, if_pos hr,
      adoptMark_uncrossed l second leadInFirst order hc]
    rfl
  · exact ⟨rfl, rfl, rfl, rfl, rfl, rfl, roundStep_held c u, rfl, rfl, applyIf_joined _ _ _, applyIf_joined _ _ _,
      applyIf_joined _ _ _, applyIf_joined _ _ _, applyIf_joined _ _ _, roundStep_rewrite c u⟩

end Sys2Proof.Machine
end

section
/-! PROOF LAYER. The station's own drive, read back (R11, R23, R29). -/

namespace Sys2Proof.Machine

open Sys2Proof

/-- The ticks of the round mark that are driven dominant (R4). -/
theorem markLevel_eq (d : Nat) : markLevel d = [0, 1, 2, 3, 5].contains (d / 100) := by
  unfold markLevel
  rw [show d / Config.tickUnits = d / 100 from rfl]
  generalize d / 100 = tick
  match tick with
  | 0 | 1 | 2 | 3 | 4 | 5 | 6 | 7 => rfl
  | n + 8 =>
    rw [List.getElem?_eq_none (by simp [markPattern])]
    simp

theorem inSample_iff {low high t : Nat} : inSample low high t = true ↔ low ≤ t % 100 ∧ t % 100 ≤ high := by
  unfold inSample
  rw [Bool.and_eq_true, decide_eq_true_eq, decide_eq_true_eq]
  exact Iff.rfl

/-- What the station drove at reading `d` is one that it compares: a dominant mark tick or the dominant half of an answer position in its
sample, and every element of a body or a block (R23). -/
def State.comparedAt (u : State) (station : StationNo) (d : Nat) : Bool :=
  let position := 1800 + 100 * station.toNat
  let start := fun (b : Block) => if b.header.index.toNat < 24 then 5100 + 800 * b.header.index.toNat else 4300
  let half := fun (a : Nat) => decide (a ≤ d ∧ d < a + 50 ∧ 20 ≤ d % 100 ∧ d % 100 ≤ 40)
  match u.drive.content with
  | .mark => decide (40 ≤ d % 100 ∧ d % 100 ≤ 60) && [0, 1, 2, 3, 5].contains (d / 100)
  | .accept => (u.notices.plan == some .accept || u.notices.plan == some .rollCall) && half position
      || u.notices.plan == some .dissent && half 3400
  | .dissent => (u.notices.plan == some .accept || u.notices.plan == some .rollCall) && half position
      || u.notices.plan == some .dissent && half 3400
  | .noticeBody => decide (1500 ≤ d ∧ d ≤ 1518)
  | .block b => decide (start b ≤ d ∧ d ≤ start b + 2 * (15 + b.header.length.toNat))
  | .leadIn _ => false
  | .none => false

/-- The sample of the dominant half of the answer position of the station's plan (R4, R93, R97). -/
theorem answerHalf_eq (u : State) (d : Nat) :
    (inSample 20 40 d && (match u.answerAt with
        | some a => decide (a ≤ d) && answerLevel (d - a)
        | none => false))
      = ((u.notices.plan == some .accept || u.notices.plan == some .rollCall)
            && decide (1800 + 100 * u.ctrl.option.station.toNat ≤ d ∧ d < 1800 + 100 * u.ctrl.option.station.toNat + 50
              ∧ 20 ≤ d % 100 ∧ d % 100 ≤ 40)
          || u.notices.plan == some .dissent && decide (3400 ≤ d ∧ d < 3400 + 50 ∧ 20 ≤ d % 100 ∧ d % 100 ≤ 40)) := by
  have half : ∀ a : Nat, (inSample 20 40 d && (decide (a ≤ d) && answerLevel (d - a)))
      = decide (a ≤ d ∧ d < a + 50 ∧ 20 ≤ d % 100 ∧ d % 100 ≤ 40) := by
    intro a
    rw [Bool.eq_iff_iff]
    simp only [answerLevel, Bool.and_eq_true, inSample_iff, decide_eq_true_eq]
    omega
  unfold State.answerAt
  rcases u.notices.plan with _ | (_ | _ | _)
  · exact Bool.and_false _
  all_goals
    dsimp only
    rw [half]
  · exact (by decide : ∀ x y : Bool, x = ((some AnswerPlan.accept == some .accept || some AnswerPlan.accept == some .rollCall) && x
      || some AnswerPlan.accept == some .dissent && y)) _ _
  · exact (by decide : ∀ x y : Bool, x = ((some AnswerPlan.dissent == some .accept || some AnswerPlan.dissent == some .rollCall) && y
      || some AnswerPlan.dissent == some .dissent && x)) _ _
  · exact (by decide : ∀ x y : Bool, x = ((some AnswerPlan.rollCall == some .accept || some AnswerPlan.rollCall == some .rollCall) && x
      || some AnswerPlan.rollCall == some .dissent && y)) _ _

/-- A mismatch at the reading is one of the station's own drive on a lane that is DRIVING, read back with the echo delay (R23). -/
theorem State.compares_iff (u : State) (l : LaneId) (r : Nat) :
    u.compares l r = true ↔ (u.lanes.get l).drive = .driving ∧ (u.lanes.get l).echoDelay.toNat ≤ r
      ∧ u.comparedAt u.ctrl.option.station (r - (u.lanes.get l).echoDelay.toNat) = true := by
  have answers := answerHalf_eq u (r - (u.lanes.get l).echoDelay.toNat)
  unfold State.compares State.comparedAt
  simp only [Bool.and_eq_true, beq_iff_eq, decide_eq_true_eq, and_assoc]
  refine and_congr_right (fun hd => and_congr_right (fun _ => ?_))
  unfold State.drivenLevel
  simp only [hd]
  cases u.drive.content with
  | none => rfl
  | leadIn field => rfl
  | mark =>
    simp only [markLevel_eq, beq_self_eq_true, Bool.or_true, Bool.true_and, Bool.and_eq_true, inSample_iff, decide_eq_true_eq]
  | accept =>
    rw [← answers]
    rfl
  | dissent =>
    rw [← answers]
    rfl
  | noticeBody => simp only [Bool.and_eq_true, decide_eq_true_eq]; rfl
  | block b => simp only [Bool.and_eq_true, decide_eq_true_eq]; rfl

theorem Lane.cutDrive_of_driving {x : Lane} (h : x.drive = .driving) : x.cutDrive = { x with drive := .cut } := by
  simp [Lane.cutDrive, h]

/-- The lane after a mismatch in its drive: one violation, and the drive there cut (R23, R38). -/
theorem Lane.countViolations_cutDrive {x : Lane} (h : x.drive = .driving) :
    (x.countViolations 1).cutDrive = { x with violations := min 255 (x.violations + 1), drive := .cut } :=
  Lane.cutDrive_of_driving (x := x.countViolations 1) h

theorem exec_echoMismatch {l : LaneId} {r : Nat} {s : State} (hs : s.holding = false) (hr : s.reaches r = true) :
    exec (.echoMismatch l r) s = .next (if (reach r s).compares l r then mismatchOn l (reach r s) else reach r s) := by
  change running (dated r _) s = _
  rw [running_of_free hs, dated_of_reaches _ hr]

/-- Settles O22: a mismatch is one that `State.compares` finds, and each content has its own effect. -/
theorem echoMismatchCutsDrive : Obligations.EchoMismatchCutsDrive := by
  intro l r s hs hr u x d position start half compared cut passive result mismatches
  have hctrl : u.ctrl = s.ctrl := by simp [u]
  have htimer : u.clock.timer = r := reach_timer_of_reaches hr
  have mismatch : u.compares l r = true ↔ mismatches := by
    rw [State.compares_iff, hctrl]
    rfl
  have answers : exec (.echoMismatch l r) s = .next (if u.compares l r then mismatchOn l u else u) := exec_echoMismatch hs hr
  have found : mismatches → exec (.echoMismatch l r) s = .next (mismatchOn l u) := fun h => by
    rw [answers, if_pos (mismatch.mpr h)]
  have hcut : mismatches → (x.countViolations 1).cutDrive = cut := fun h => Lane.countViolations_cutDrive h.1
  have hpassive : mismatches → passive = (x.countViolations 1).cutDrive.endRun := fun h => by
    rw [hcut h]
    rfl
  refine ⟨fun h => ?_, fun h hc => ?_, fun h ⟨b, hc⟩ => ?_, fun h hc => ?_, fun h hc => ?_⟩
  · rw [answers, if_neg (mt mismatch.mp h)]
  · rw [found h, ← hcut h]
    simp only [mismatchOn, hc]
    rfl
  · change exec _ s = _
    rw [found h, ← hcut h]
    simp only [mismatchOn, hc]
    rfl
  · change exec _ s = _
    rw [found h, hpassive h]
    simp only [mismatchOn, hc, htimer]
    rfl
  · change exec _ s = _
    rw [found h, hpassive h]
    rcases hc with hc | hc
    all_goals
      simp only [mismatchOn, hc]
      rfl

end Sys2Proof.Machine
end

section
/-! PROOF LAYER. What the steps of a round start leave of the opened round: nothing is driven, no repair turn lasts, the dominant runs of the
lanes stand, an answer plan that was dropped stays dropped, and the heard ages move by the step that advances them alone. -/

namespace Sys2Proof.Machine

open Sys2Proof

/-- A round whose steps are being taken: nothing driven, no repair turn, the dominant runs and the heard ages as given, and no answer plan
and tentative change where there were none. -/
structure State.Opened (runs : PerLane (Nat × Bool × RunReport)) (heard : List Nat) (unplanned : Prop) (s : State) : Prop where
  runs : s.runs = runs
  drives : ∀ l : LaneId, (s.lanes.get l).drive = .notDriving
  content : s.drive.content = .none
  turn : s.repair.turn = false
  heard : s.table.heard = heard
  plan : unplanned → s.notices.plan = none ∧ s.notices.tentative = none

section Opened

variable {runs : PerLane (Nat × Bool × RunReport)} {heard : List Nat} {unplanned : Prop} {s : State}

/-! ### Changes of one block -/

/-- The blocks that the opened round does not speak of. -/
theorem State.Opened.aside {pending : List Instr} {hold : ResetHold} {clock : Clock} {send : PerPort SendEntry}
    {recv : PerPort RecvEntry} {ctrl : Controller} {mgmt : Management} (h : s.Opened runs heard unplanned) :
    ({ s with pending := pending, hold := hold, clock := clock, send := send, recv := recv, ctrl := ctrl, mgmt := mgmt } : State).Opened
      runs heard unplanned :=
  ⟨h.runs, h.drives, h.content, h.turn, h.heard, h.plan⟩

theorem State.Opened.withTable {table : SlotTable} (h : s.Opened runs heard unplanned) (ht : table.heard = s.table.heard) :
    ({ s with table := table } : State).Opened runs heard unplanned :=
  ⟨h.runs, h.drives, h.content, h.turn, ht.trans h.heard, h.plan⟩

theorem State.Opened.withNotices {notices : NoticeEngine} (h : s.Opened runs heard unplanned)
    (hn : s.notices.plan = none ∧ s.notices.tentative = none → notices.plan = none ∧ notices.tentative = none) :
    ({ s with notices := notices } : State).Opened runs heard unplanned :=
  ⟨h.runs, h.drives, h.content, h.turn, h.heard, fun hu => hn (h.plan hu)⟩

theorem State.Opened.withRepair {repair : Repair} (h : s.Opened runs heard unplanned) (hr : repair.turn = s.repair.turn) :
    ({ s with repair := repair } : State).Opened runs heard unplanned :=
  ⟨h.runs, h.drives, h.content, hr.trans h.turn, h.heard, h.plan⟩

theorem State.Opened.withDrive {drive : FieldDrive} (h : s.Opened runs heard unplanned) (hd : drive.content = s.drive.content) :
    ({ s with drive := drive } : State).Opened runs heard unplanned :=
  ⟨h.runs, h.drives, hd.trans h.content, h.turn, h.heard, h.plan⟩

/-- A change of one lane that starts no drive and keeps the dominant run. -/
theorem State.Opened.mapLane {l : LaneId} {f : Lane → Lane} (h : s.Opened runs heard unplanned)
    (hd : ∀ x, (f x).drive = x.drive) (hr : ∀ x, (f x).runView = x.runView) : (s.mapLane l f).Opened runs heard unplanned := by
  refine ⟨(State.runs_mapLane _ _ _ hr).trans h.runs, fun k => ?_, h.content, h.turn, h.heard, h.plan⟩
  rw [State.mapLane_lanes]
  by_cases hk : k = l
  · rw [hk, PerLane.get_set_same, hd]
    exact h.drives l
  · rw [PerLane.get_set_of_ne _ _ hk]
    exact h.drives k

theorem Lane.cutDrive_of_notDriving {x : Lane} (h : x.drive = .notDriving) : x.cutDrive = x := by
  simp [Lane.cutDrive, h]

/-! ### Sequences of operations -/

theorem foldl_opened {α : Type} {f : State → α → State} {l : List α} (h : s.Opened runs heard unplanned)
    (hf : ∀ (t : State) (a : α), t.Opened runs heard unplanned → (f t a).Opened runs heard unplanned) :
    (l.foldl f s).Opened runs heard unplanned := by
  induction l generalizing s with
  | nil => exact h
  | cons a l ih => exact ih (hf s a h)

theorem forPorts_opened {f : Port → State → State} (h : s.Opened runs heard unplanned)
    (hf : ∀ (p : Port) (t : State), t.Opened runs heard unplanned → (f p t).Opened runs heard unplanned) :
    (forPorts f s).Opened runs heard unplanned :=
  hf _ _ (hf _ _ (hf _ _ (hf _ _ h)))

theorem applyIf_opened {c : Bool} {f : State → State} (h : s.Opened runs heard unplanned)
    (hf : ∀ t : State, t.Opened runs heard unplanned → (f t).Opened runs heard unplanned) :
    (applyIf c f s).Opened runs heard unplanned := by
  cases c
  · exact h
  · exact hf s h

theorem ite_opened {c : Prop} [Decidable c] {t : State} (hs : c → s.Opened runs heard unplanned)
    (ht : ¬ c → t.Opened runs heard unplanned) : (if c then s else t).Opened runs heard unplanned := by
  split
  · exact hs (by assumption)
  · exact ht (by assumption)

/-! ### Events, notices and send entries -/

theorem giveEvent_opened (e : Event) (h : s.Opened runs heard unplanned) : (giveEvent e s).Opened runs heard unplanned := h.aside

theorem mapSend_opened (p : Port) (f : SendEntry → SendEntry) (h : s.Opened runs heard unplanned) :
    (s.mapSend p f).Opened runs heard unplanned := h.aside

theorem mapStream_opened (p : Port) (f : RecvStream → RecvStream) (h : s.Opened runs heard unplanned) :
    (s.mapStream p f).Opened runs heard unplanned := h.aside

theorem mapQueue_opened (f : List Queued → List Queued) (h : s.Opened runs heard unplanned) :
    (s.mapQueue f).Opened runs heard unplanned := h.withNotices id

theorem dropTurn_opened (h : s.Opened runs heard unplanned) : (dropTurn s).Opened runs heard unplanned := by
  unfold dropTurn
  rw [if_neg (by simp [h.turn])]
  exact h

theorem offer_opened (q : Queued) (h : s.Opened runs heard unplanned) : (offer q s).Opened runs heard unplanned :=
  ite_opened (fun _ => mapQueue_opened _ h) (fun _ => h)

theorem withdrawAsk_opened (p : Port) (h : s.Opened runs heard unplanned) : (withdrawAsk p s).Opened runs heard unplanned :=
  h.withNotices id

theorem closeSend_opened (p : Port) (h : s.Opened runs heard unplanned) : (closeSend p s).Opened runs heard unplanned := by
  unfold closeSend
  exact mapSend_opened _ _ (h.withRepair rfl)

theorem offerRelease_opened (p : Port) (h : s.Opened runs heard unplanned) : (offerRelease p s).Opened runs heard unplanned := by
  unfold offerRelease
  split
  · exact h
  · exact mapSend_opened _ _ (offer_opened _ h)

theorem claimCommitted_opened (p : Port) (q : Queued) (outcome : OutcomeRecord) (atRoundStart : Bool)
    (h : s.Opened runs heard unplanned) : (claimCommitted p q outcome atRoundStart s).Opened runs heard unplanned := by
  unfold claimCommitted
  dsimp only
  split
  · exact giveEvent_opened _ (mapSend_opened _ _ h)
  · exact ite_opened (fun _ => offerRelease_opened p (mapSend_opened _ _ h)) (fun _ => mapSend_opened _ _ h)
  all_goals exact h

theorem claimRefused_opened (p : Port) (reason : RefuseReason) (outcome : OutcomeRecord) (h : s.Opened runs heard unplanned) :
    (claimRefused p reason outcome s).Opened runs heard unplanned := by
  unfold claimRefused
  split
  · exact giveEvent_opened _ (closeSend_opened p h)
  · exact giveEvent_opened _ (closeSend_opened p h)
  all_goals exact h

theorem claimNotCommitted_opened (p : Port) (outcome : OutcomeRecord) (h : s.Opened runs heard unplanned) :
    (claimNotCommitted p outcome s).Opened runs heard unplanned := by
  unfold claimNotCommitted
  split
  · exact giveEvent_opened _ (closeSend_opened p h)
  all_goals exact h

theorem withdrawnEnds_opened (q : Queued) (outcome : OutcomeRecord) (h : s.Opened runs heard unplanned) :
    (withdrawnEnds q outcome s).Opened runs heard unplanned := by
  unfold withdrawnEnds
  split
  · exact claimNotCommitted_opened _ _ h
  · exact h

theorem clearFlight_opened (h : s.Opened runs heard unplanned) : (clearFlight s).Opened runs heard unplanned := h.withNotices id

theorem removeInFlight_opened (h : s.Opened runs heard unplanned) : (removeInFlight s).Opened runs heard unplanned :=
  h.withNotices id

theorem endFlightLost_opened (h : s.Opened runs heard unplanned) : (endFlightLost s).Opened runs heard unplanned := by
  unfold endFlightLost
  split
  · exact clearFlight_opened h
  · exact ite_opened (fun _ => withdrawnEnds_opened _ _ (removeInFlight_opened h)) (fun _ => clearFlight_opened h)

theorem carryPending_opened (h : s.Opened runs heard unplanned) : (carryPending s).Opened runs heard unplanned := by
  unfold carryPending
  split
  · exact h
  · exact h.withTable rfl

theorem recordSent_opened (h : s.Opened runs heard unplanned) : (recordSent s).Opened runs heard unplanned :=
  ite_opened (fun _ => h.withNotices id) (fun _ => h)

theorem endFlightUnanswered_opened (h : s.Opened runs heard unplanned) : (endFlightUnanswered s).Opened runs heard unplanned := by
  unfold endFlightUnanswered
  split
  · exact clearFlight_opened h
  · split
    · exact removeInFlight_opened h
    · exact carryPending_opened (clearFlight_opened (mapQueue_opened _ h))
    all_goals exact clearFlight_opened h

theorem endFlightOnLeaving_opened (h : s.Opened runs heard unplanned) : (endFlightOnLeaving s).Opened runs heard unplanned := by
  have ended : (if s.completed then endFlightUnanswered (recordUnread (recordSent s)) else endFlightLost s).Opened runs heard unplanned :=
    ite_opened (fun _ => endFlightUnanswered_opened (State.Opened.withNotices (recordSent_opened h) id))
      (fun _ => endFlightLost_opened h)
  exact ended.withNotices (fun _ => ⟨rfl, rfl⟩)

/-! ### Modes and the live table -/

theorem changeMode_opened (m : Mode) (cause : ModeCause) (h : s.Opened runs heard unplanned) :
    (changeMode m cause s).Opened runs heard unplanned :=
  giveEvent_opened _ (ite_opened (c := (m == .joined) = true) (fun _ => h) (fun _ => dropTurn_opened h)).aside

theorem enterDark_opened (returnMode : Mode) (h : s.Opened runs heard unplanned) : (enterDark returnMode s).Opened runs heard unplanned :=
  (changeMode_opened .dark .darkOnset (endFlightOnLeaving_opened (s := discardLearning s) (h.withTable rfl))).aside

theorem cutDrives_opened (h : s.Opened runs heard unplanned) :
    ({ s with lanes := s.lanes.map Lane.cutDrive } : State).Opened runs heard unplanned := by
  refine ⟨(State.runs_map _ _ Lane.cutDrive Lane.cutDrive_runView rfl).trans h.runs, fun l => ?_, h.content, h.turn, h.heard, h.plan⟩
  rw [PerLane.get_map, Lane.cutDrive_of_notDriving (h.drives l)]
  exact h.drives l

theorem enterFaulted_opened (reason : FaultReason) (cause : ModeCause) (h : s.Opened runs heard unplanned) :
    (enterFaulted reason cause s).Opened runs heard unplanned := by
  have left : (endFlightOnLeaving (discardLearning s)).Opened runs heard unplanned :=
    endFlightOnLeaving_opened (s := discardLearning s) (h.withTable rfl)
  unfold enterFaulted
  exact giveEvent_opened _ (State.Opened.aside (changeMode_opened _ _ ((cutDrives_opened left).withDrive rfl)))

theorem checkSend_opened (p : Port) (h : s.Opened runs heard unplanned) : (checkSend p s).Opened runs heard unplanned := by
  have closes : ∀ e, (giveEvent e (closeSend p s)).Opened runs heard unplanned := fun e => giveEvent_opened e (closeSend_opened p h)
  unfold checkSend
  dsimp only
  split
  iterate 3
    · split
      · exact ite_opened (fun _ => h) (fun _ => closes _)
      · exact h
  all_goals exact h

theorem checkRecv_opened (p : Port) (h : s.Opened runs heard unplanned) : (checkRecv p s).Opened runs heard unplanned := by
  unfold checkRecv
  split
  · exact h
  · exact ite_opened (fun _ => giveEvent_opened _ (withdrawAsk_opened p (mapStream_opened _ _ h)))
      (fun _ => ite_opened (fun _ => giveEvent_opened _ (mapStream_opened _ _ h)) (fun _ => h))

theorem tableChanged_opened (sendFirst : Bool) (h : s.Opened runs heard unplanned) :
    (tableChanged sendFirst s).Opened runs heard unplanned :=
  ite_opened (fun _ => forPorts_opened (forPorts_opened h (fun p _ => checkSend_opened p)) (fun p _ => checkRecv_opened p))
    (fun _ => forPorts_opened (forPorts_opened h (fun p _ => checkRecv_opened p)) (fun p _ => checkSend_opened p))

/-! ### The steps of a round start -/

theorem playout_opened (p : Port) (h : s.Opened runs heard unplanned) : (playout p s).Opened runs heard unplanned := by
  have lanes : (playout p s).lanes = s.lanes := by simp
  have notices : (playout p s).notices = s.notices := by simp
  refine ⟨(State.runs_of_lanes lanes).trans h.runs, fun l => ?_, ?_, ?_, ?_, fun hu => ?_⟩
  · rw [lanes]
    exact h.drives l
  · simpa using h.content
  · simpa using h.turn
  · simpa using h.heard
  · rw [notices]
    exact h.plan hu

theorem endWaits_opened (p : Port) (h : s.Opened runs heard unplanned) : (endWaits p s).Opened runs heard unplanned := by
  unfold endWaits
  split
  · exact h
  · exact foldl_opened (mapStream_opened _ _ h) (fun _ _ => giveEvent_opened _)

theorem askRepairs_opened (h : s.Opened runs heard unplanned) : (askRepairs s).Opened runs heard unplanned := by
  unfold askRepairs
  refine ite_opened (fun _ => h) (fun _ => ?_)
  split
  · exact offer_opened _ h
  · exact h

theorem monitorRound_opened (l : LaneId) (h : s.Opened runs heard unplanned) : (monitorRound l s).Opened runs heard unplanned := by
  have counted : (s.mapLane l Lane.roundStart).Opened runs heard unplanned :=
    h.mapLane (fun x => by unfold Lane.roundStart; split <;> rfl) (fun x => by unfold Lane.roundStart; split <;> rfl)
  exact ite_opened (fun _ => giveEvent_opened _ counted) (fun _ => counted)

theorem endStarting_opened (h : s.Opened runs heard unplanned) : (endStarting s).Opened runs heard unplanned := by
  have t : ({ s with ctrl := { s.ctrl with startCount := none } } : State).Opened runs heard unplanned := h.aside
  exact ite_opened (fun _ => enterFaulted_opened _ _ t)
    (fun _ => ite_opened (fun _ => enterDark_opened _ t) (fun _ => (changeMode_opened .listening .startDone t).aside))

theorem reachAloneLimit_opened (sendFirst : Bool) (h : s.Opened runs heard unplanned) :
    (reachAloneLimit sendFirst s).Opened runs heard unplanned :=
  changeMode_opened _ _ (tableChanged_opened _ (State.Opened.aside (State.Opened.withTable h rfl)))

theorem countRounds_opened (ctx : RoundCtx) (h : s.Opened runs heard unplanned) : (countRounds ctx s).Opened runs heard unplanned := by
  unfold countRounds
  split
  · exact ite_opened (fun _ => endStarting_opened h.aside) (fun _ => h.aside)
  · split
    · refine ite_opened (fun _ => ?_) (fun _ => h)
      exact ite_opened (fun _ => reachAloneLimit_opened _ h.aside) (fun _ => h.aside)
    · exact h
  · exact h.aside
  all_goals exact h

theorem replaceTable_opened (L : Learning) (h : s.Opened runs heard unplanned) : (replaceTable L s).Opened runs heard unplanned :=
  giveEvent_opened _ (h.withTable rfl)

theorem settlePending_opened (h : s.Opened runs heard unplanned) : (settlePending s).Opened runs heard unplanned := by
  have without := mapQueue_opened (fun l => l.filter (fun x => !x.pending)) h
  unfold settlePending
  split
  · exact h
  · refine ite_opened (fun _ => ?_) (fun _ => ite_opened (fun _ => withdrawnEnds_opened _ _ without) (fun _ => mapQueue_opened _ h))
    split
    · exact claimCommitted_opened _ _ _ _ without
    all_goals exact without

theorem warmRejoin_opened (h : s.Opened runs heard unplanned) : (warmRejoin s).Opened runs heard unplanned :=
  ite_opened (fun _ => State.Opened.aside (foldl_opened h (fun _ _ => mapSend_opened _ _))) (fun _ => h)

theorem completeLearning_opened (ctx : RoundCtx) (L : Learning) (h : s.Opened runs heard unplanned) :
    (completeLearning ctx L s).Opened runs heard unplanned := by
  have settled := settlePending_opened (tableChanged_opened ctx.sendFirst (replaceTable_opened L h))
  exact changeMode_opened _ _ (ite_opened (fun _ => (warmRejoin_opened settled).aside) (fun _ => settled))

theorem learnRound_opened (ctx : RoundCtx) (h : s.Opened runs heard unplanned) : (learnRound ctx s).Opened runs heard unplanned := by
  unfold learnRound
  split
  · exact h
  · exact ite_opened (fun _ => completeLearning_opened _ _ h) (fun _ => h.withTable rfl)

theorem takeRuns_opened (p : Port) (h : s.Opened runs heard unplanned) : (takeRuns p s).Opened runs heard unplanned := by
  unfold takeRuns
  split
  · exact mapSend_opened _ _ h
  · exact ite_opened (fun _ => offerRelease_opened p (mapSend_opened _ _ h)) (fun _ => h)
  all_goals exact h

theorem heldRound_opened (p : Port) (h : s.Opened runs heard unplanned) : (heldRound p s).Opened runs heard unplanned := by
  unfold heldRound
  dsimp only
  split
  · exact ite_opened (fun _ => mapSend_opened _ _ h)
      (fun _ => giveEvent_opened _ (offerRelease_opened p (mapSend_opened _ _ h)))
  · exact h

theorem offerReclaim_opened (rk : Run × StationNo × Tag) (h : s.Opened runs heard unplanned) :
    (offerReclaim s rk).Opened runs heard unplanned :=
  ite_opened (fun _ => (offer_opened (reclaimNotice rk.2.1 rk.2.2 rk.1) h).withTable rfl) (fun _ => h)

theorem refuseQueued_opened (reason : RefuseReason) (q : Queued) (h : s.Opened runs heard unplanned) :
    (refuseQueued reason s q).Opened runs heard unplanned := by
  unfold refuseQueued
  split
  · exact claimRefused_opened _ _ _ h
  all_goals exact h

theorem limitClaims_opened (h : s.Opened runs heard unplanned) : (limitClaims s).Opened runs heard unplanned :=
  foldl_opened (mapQueue_opened _ h) (fun _ q => refuseQueued_opened _ q)

theorem aimHead_opened (q : Queued) (first : BitVec 16) (count : BitVec 5) (h : s.Opened runs heard unplanned) :
    (aimHead q first count s).Opened runs heard unplanned := by
  unfold aimHead
  dsimp only
  split
  · exact mapSend_opened _ _ (mapQueue_opened _ h)
  · exact mapQueue_opened _ h

theorem revalidate_opened (fuel : Nat) (h : s.Opened runs heard unplanned) : (revalidate fuel s).Opened runs heard unplanned := by
  induction fuel generalizing s with
  | zero => exact h
  | succ fuel ih =>
    have shorter := mapQueue_opened List.tail h
    unfold revalidate
    split
    · exact h
    · split
      · exact h
      · exact aimHead_opened _ _ _ h
      · exact ih (ite_opened (fun _ => refuseQueued_opened _ _ shorter) (fun _ => shorter))

theorem selectNotice_opened (h : s.Opened runs heard unplanned) : (selectNotice s).Opened runs heard unplanned := by
  unfold selectNotice
  split
  · exact h
  · exact h.withNotices id

theorem dealOrphan_opened (o : Orphan) (h : s.Opened runs heard unplanned) : (dealOrphan s o).Opened runs heard unplanned :=
  ite_opened (fun _ => ite_opened (fun _ => h.aside) (fun _ => offer_opened _ h)) (fun _ => h)

/-- Every step but the ageing of the heard set. -/
theorem roundStep_opened (ctx : RoundCtx) {step : RoundStep} (hstep : step ≠ .heard) (h : s.Opened runs heard unplanned) :
    (roundStep ctx s step).Opened runs heard unplanned := by
  cases step with
  | monitors => exact monitorRound_opened .b (monitorRound_opened .a h)
  | heard => exact absurd rfl hstep
  | playout => exact forPorts_opened h (fun p _ => playout_opened p)
  | askWaits => exact forPorts_opened h (fun p _ => endWaits_opened p)
  | counts => exact countRounds_opened ctx h
  | learning => exact learnRound_opened ctx h
  | runs => exact forPorts_opened h (fun p _ => takeRuns_opened p)
  | held => exact applyIf_opened h (fun _ ht => forPorts_opened ht (fun p _ => heldRound_opened p))
  | reclaims => exact applyIf_opened h (fun _ ht => foldl_opened ht (fun _ rk => offerReclaim_opened rk))
  | asker => exact applyIf_opened h (fun _ => askRepairs_opened)
  | claimLimit => exact applyIf_opened h (fun _ => limitClaims_opened)
  | revalidate => exact applyIf_opened h (fun _ => revalidate_opened _)
  | select => exact applyIf_opened h (fun _ => selectNotice_opened)
  | orphans => exact foldl_opened h.aside (fun _ o => dealOrphan_opened o)
  | rewrite => exact applyIf_opened h (fun _ ht => ht.aside)

end Opened

/-- Every heard age below 256 advanced by one (R65). -/
def ageAll (heard : List Nat) : List Nat := heard.map (fun age => min 256 (age + 1))

theorem ageHeard_opened {runs : PerLane (Nat × Bool × RunReport)} {heard : List Nat} {unplanned : Prop} {s : State}
    (h : s.Opened runs heard unplanned) : (ageHeard s).Opened runs (ageAll heard) unplanned :=
  ⟨h.runs, h.drives, h.content, h.turn, by rw [← h.heard]; rfl, h.plan⟩

/-- The heard ages advance as often as a list of steps names the step. -/
theorem foldl_roundStep_opened (ctx : RoundCtx) (steps : List RoundStep) {runs : PerLane (Nat × Bool × RunReport)} {heard : List Nat}
    {unplanned : Prop} {s : State} (h : s.Opened runs heard unplanned) :
    (steps.foldl (roundStep ctx) s).Opened runs (ageAll^[steps.count .heard] heard) unplanned := by
  induction steps generalizing s heard with
  | nil => exact h
  | cons step steps ih =>
    by_cases hstep : step = .heard
    · subst hstep
      rw [List.count_cons_self, Function.iterate_succ_apply]
      exact ih (ageHeard_opened h)
    · rw [List.count_cons_of_ne hstep]
      exact ih (roundStep_opened ctx hstep h)

/-- An admissible order names every step once. -/
theorem RoundOrder.count_of_admissible {order : RoundOrder} (h : order.admissible = true) (step : RoundStep) :
    order.steps.count step = 1 := by
  unfold RoundOrder.admissible listsEachOnce at h
  simp only [Bool.and_eq_true, beq_iff_eq, List.all_eq_true, List.contains_iff_mem] at h
  obtain ⟨⟨⟨⟨⟨⟨hlen, hmem⟩, -⟩, -⟩, -⟩, -⟩, -⟩ := h
  have nodup : RoundStep.all.Nodup := by decide
  have perm : RoundStep.all.Perm order.steps := (List.subperm_of_subset nodup hmem).perm_of_length_le hlen.le
  rw [← perm.count_eq]
  cases step <;> rfl

theorem openRound_opened (r : Nat) (s : State) :
    (openRound r s).Opened s.runs s.table.heard (s.notices.plan = none ∧ s.notices.tentative = none) :=
  ⟨State.runs_map s (openRound r s) (fun x => (x.crossRound r).beginField 0) (fun _ => rfl) rfl,
    fun l => by cases l <;> rfl, rfl, rfl, rfl, id⟩

/-- The state after a round start, its steps in an admissible order. -/
theorem startRound_opened {order : RoundOrder} (ho : order.admissible = true) (expiry : Bool) (r : Nat) (s : State) :
    (startRound order expiry r s).Opened s.runs (ageAll s.table.heard) (s.notices.plan = none ∧ s.notices.tentative = none) := by
  have h := foldl_roundStep_opened
    { mode := s.ctrl.mode, expiry := expiry, returnMode := s.ctrl.returnMode, sendFirst := order.sendFirst } order.steps
    (openRound_opened r s)
  rw [RoundOrder.count_of_admissible ho] at h
  exact h

end Sys2Proof.Machine
end

section
/-! PROOF LAYER. The start of a round mark (R6, R7, R9, R10): candidate edges, what time leaves of a lane on the way to one, and the drive of
the mark. -/

namespace Sys2Proof.Machine

open Sys2Proof

/-! ### Time on the way to an edge -/

/-- Time passes on each lane alike, or not at all. -/
theorem reach_elapsed (r : Nat) (s : State) :
    reach r s = s ∨ ∃ r' d n, ∀ l : LaneId, Lane.Elapsed r' d n (s.lanes.get l) ((reach r s).lanes.get l) := by
  have within : ∀ q, q ≤ s.horizon →
      reach q s = s ∨ ∃ r' d n, ∀ l : LaneId, Lane.Elapsed r' d n (s.lanes.get l) ((reach q s).lanes.get l) := by
    intro q hq
    rcases Nat.lt_or_ge s.clock.timer q with h | h
    · refine .inr ⟨q, q - s.clock.timer, (s.clock.phase + (q - s.clock.timer)) / Config.tickUnits, fun l => ?_⟩
      rw [reach_of_within h hq]
      simp only [PerLane.get_map]
      exact (Lane.elapse_elapsed _ _ _ _).of_agrees (passMoments_agrees _ s l)
    · exact .inl (reach_passed h)
  rcases Nat.le_total r s.horizon with h | h
  · exact within r h
  · rw [reach_beyond h]
    exact within s.horizon le_rfl

/-- Time changes neither the state of a lane nor its hold. -/
theorem reach_lane_kept (r : Nat) (s : State) (l : LaneId) :
    ((reach r s).lanes.get l).state = (s.lanes.get l).state ∧ ((reach r s).lanes.get l).hold = (s.lanes.get l).hold := by
  rcases reach_elapsed r s with h | ⟨r', d, n, h⟩
  · rw [h]
    exact ⟨rfl, rfl⟩
  · obtain ⟨-, -, -, -, -, -, hstate, -, -, -, -, -, -, -, -, -, -, hhold⟩ := h l
    exact ⟨hstate, hhold⟩

theorem reach_drivable (r : Nat) (s : State) (l : LaneId) : ((reach r s).lanes.get l).drivable = (s.lanes.get l).drivable := by
  obtain ⟨hstate, hhold⟩ := reach_lane_kept r s l
  unfold Lane.drivable Lane.receiveUsable
  rw [hstate, hhold]

/-! ### Candidate edges -/

theorem Mode.searching_iff {m : Mode} : m.searching = true ↔ m ≠ .starting := by cases m <;> decide

/-- An edge is a candidate on a receive-usable lane of a searching clock, within its window, at a reading that has not passed (R5, R7). -/
theorem State.acceptsEdge_iff {s : State} {l : LaneId} {r low high : Nat} :
    s.acceptsEdge l r low high = true ↔
      s.ctrl.mode ≠ .starting ∧ (s.lanes.get l).receiveUsable = true ∧ low ≤ r ∧ r ≤ high ∧ s.reaches r = true := by
  unfold State.acceptsEdge
  simp only [Bool.and_eq_true, Mode.searching_iff, decide_eq_true_eq, and_assoc]

/-- The pacing permit (R7). -/
theorem State.pacingPermit_iff {s : State} :
    s.pacingPermit = true ↔ s.ctrl.option.pacing = true ∧ (s.ctrl.mode = .joined ∨ s.ctrl.mode = .resync) := by
  unfold State.pacingPermit
  simp only [Bool.and_eq_true, Bool.or_eq_true, beq_iff_eq]

/-! ### The drive of the mark -/

/-- The mark is driven on every drivable lane, and a lane keeps its state (R11). -/
theorem driveMark_lane {s : State} {l : LaneId} (h : (s.lanes.get l).drive = .notDriving) :
    ((driveMark s).lanes.get l).drive = (if (s.lanes.get l).drivable then .driving else .notDriving)
    ∧ ((driveMark s).lanes.get l).state = (s.lanes.get l).state
    ∧ ((driveMark s).lanes.get l).drivable = (s.lanes.get l).drivable := by
  simp only [driveMark, driveOn, PerLane.get_map]
  split
  · exact ⟨rfl, rfl, rfl⟩
  · exact ⟨h, rfl, rfl⟩

theorem beginField_lane (t : Nat) (s : State) (l : LaneId) :
    ((beginField t s).lanes.get l).drive = .notDriving ∧ ((beginField t s).lanes.get l).state = (s.lanes.get l).state
    ∧ ((beginField t s).lanes.get l).drivable = (s.lanes.get l).drivable := by
  rw [beginField_lanes, PerLane.get_map]
  exact ⟨rfl, rfl, rfl⟩

theorem driveMark_content {s : State} (h : s.lanes.any Lane.drivable = true) : (driveMark s).drive.content = .mark := by
  simp only [driveMark, driveOn, h]
  rfl

theorem PerLane.any_iff {α : Type} {x : PerLane α} {f : α → Bool} : x.any f = true ↔ f x.a = true ∨ f x.b = true :=
  Bool.or_eq_true_iff

theorem reach_any_drivable (r : Nat) (s : State) : (reach r s).lanes.any Lane.drivable = s.lanes.any Lane.drivable :=
  congrArg₂ (· || ·) (reach_drivable r s .a) (reach_drivable r s .b)

/-! ### The late window (R10) -/

theorem exec_lateWindowEdge {s : State} (l : LaneId) (r : Nat) (hs : s.holding = false) :
    exec (.lateWindowEdge l r) s
      = .next (if s.clock.lateWindow && s.acceptsEdge l r 0 s.deferralAt then realign l r s else s) := by
  change running _ s = _
  rw [running_of_free hs]

theorem exec_deferralPoint_of_not {s : State} (hs : s.holding = false)
    (h : (s.clock.lateWindow && s.reaches s.deferralAt) = false) : exec .deferralPoint s = .next s := by
  change running _ s = _
  rw [running_of_free hs, h]
  rfl

theorem exec_deferralPoint_of_comes {s : State} (hs : s.holding = false)
    (h : (s.clock.lateWindow && s.reaches s.deferralAt) = true) :
    let u := reach s.deferralAt s
    exec .deferralPoint s = .next (if u.pacingPermit && u.lanes.any Lane.drivable
      then driveMark (beginField 0 { u with clock := { u.clock with lateWindow := false, timer := 0 } })
      else { u with clock := { u.clock with lateWindow := false } }) := by
  intro u
  change running _ s = _
  rw [running_of_free hs, if_pos h]

/-- Settles O17: the late window edge realigns, the deferral point drives the mark or gives it up. -/
theorem lateWindowRealignsTimer : Obligations.LateWindowRealignsTimer := by
  intro s hs point
  refine ⟨fun l r => ?_, ?_⟩
  · intro accepted u
    have accepts : (s.clock.lateWindow && s.acceptsEdge l r 0 s.deferralAt) = true ↔ accepted := by
      rw [Bool.and_eq_true, State.acceptsEdge_iff]
      simp only [Nat.zero_le, true_and]
      rfl
    rw [exec_lateWindowEdge l r hs]
    refine ⟨fun h => ?_, fun h => ?_⟩
    · rw [if_neg (mt accepts.mp h)]
    · rw [if_pos (accepts.mpr h)]
      rfl
  · intro u comes drives
    have due : (s.clock.lateWindow && s.reaches s.deferralAt) = true ↔ comes := Bool.and_eq_true_iff
    have hctrl : u.ctrl = s.ctrl := by simp [u]
    have permit : (u.pacingPermit && u.lanes.any Lane.drivable) = true ↔ drives := by
      rw [Bool.and_eq_true, State.pacingPermit_iff, reach_any_drivable, PerLane.any_iff, hctrl, and_assoc]
    refine ⟨fun h => exec_deferralPoint_of_not hs (Bool.eq_false_iff.mpr (mt due.mp h)), fun h hd => ?_, fun h hd => ?_⟩
    · exact (exec_deferralPoint_of_comes hs (due.mpr h)).trans (congrArg _ (if_neg (mt permit.mp hd)))
    · have usable : u.lanes.any Lane.drivable = true := (Bool.and_eq_true_iff.mp (permit.mpr hd)).2
      have lane : ∀ l : LaneId, let t := driveMark (beginField 0 { u with clock := { u.clock with lateWindow := false, timer := 0 } })
          (t.lanes.get l).drive = (if (s.lanes.get l).drivable then .driving else .notDriving)
            ∧ (t.lanes.get l).state = (s.lanes.get l).state := by
        intro l t
        obtain ⟨off, state, drivable⟩ := beginField_lane 0 { u with clock := { u.clock with lateWindow := false, timer := 0 } } l
        obtain ⟨drive, kept, -⟩ := driveMark_lane off
        rw [drive, kept, drivable, state]
        exact ⟨by rw [reach_drivable], (reach_lane_kept point s l).1⟩
      refine ⟨_, (exec_deferralPoint_of_comes hs (due.mpr h)).trans (congrArg _ (if_pos (permit.mpr hd))), rfl, fun l => (lane l).1,
        fun l => (lane l).2, driveMark_content usable, ?_⟩
      simp [u, show s.deferralAt = point from rfl]

end Sys2Proof.Machine
end

section
/-! PROOF LAYER. The local round start at an expiry and at an edge of the early window (R1, R8, R9). -/

namespace Sys2Proof.Machine

open Sys2Proof

/-! ### The drive decision of an expiry (R9) -/

/-- The station drives the mark at an expiry: permit, flag and a drivable lane, and no open-search reading. -/
def State.drivesAtExpiry (s : State) (readingOpen : Bool) : Bool :=
  s.pacingPermit && s.clock.pacing && !readingOpen && s.lanes.any Lane.drivable

theorem driveAtExpiry_eq (readingOpen : Bool) (s : State) :
    driveAtExpiry readingOpen s = if s.drivesAtExpiry readingOpen then driveMark s
      else { s with clock := { s.clock with pacing := false, lateWindow := !readingOpen } } := rfl

theorem driveAtExpiry_clock (readingOpen : Bool) (s : State) :
    let drives := s.drivesAtExpiry readingOpen
    (driveAtExpiry readingOpen s).clock = { s.clock with
      pacing := drives, drove := drives || s.clock.drove, lateWindow := if drives then s.clock.lateWindow else !readingOpen } := by
  intro drives
  rw [driveAtExpiry_eq]
  cases h : s.drivesAtExpiry readingOpen
  all_goals
    simp only [drives, h]
    rfl

theorem driveAtExpiry_content {readingOpen : Bool} {s : State} (hc : s.drive.content = .none) :
    (driveAtExpiry readingOpen s).drive.content = if s.drivesAtExpiry readingOpen then .mark else .none := by
  rw [driveAtExpiry_eq]
  split
  · next h => exact driveMark_content (Bool.and_eq_true_iff.mp h).2
  · exact hc

theorem driveAtExpiry_lane {readingOpen : Bool} {s : State} {l : LaneId} (hd : (s.lanes.get l).drive = .notDriving) :
    ((driveAtExpiry readingOpen s).lanes.get l).drivable = (s.lanes.get l).drivable
    ∧ ((driveAtExpiry readingOpen s).lanes.get l).drive
      = if s.drivesAtExpiry readingOpen && (s.lanes.get l).drivable then .driving else .notDriving := by
  rw [driveAtExpiry_eq]
  cases h : s.drivesAtExpiry readingOpen
  · exact ⟨rfl, hd⟩
  · obtain ⟨drive, -, drivable⟩ := driveMark_lane hd
    exact ⟨drivable, drive⟩

/-! ### The start at an edge (R8) -/

theorem State.runs_get (s : State) (l : LaneId) : s.runs.get l = (s.lanes.get l).runView := PerLane.get_map _ _ _

theorem State.runView_of_runs {s t : State} (h : t.runs = s.runs) (l : LaneId) :
    (t.lanes.get l).runView = (s.lanes.get l).runView := by
  rw [← State.runs_get, ← State.runs_get, h]

/-- The lane of the edge reads dominant from the edge on. -/
theorem Lane.runView_of_beginRun {x y : Lane} (h : y.runView = x.beginRun.runView) : y.dominant = true ∧ y.run = 0 := by
  simp only [Lane.runView, Lane.beginRun, Prod.mk.injEq] at h
  obtain ⟨run, dominant, -⟩ := h
  exact ⟨dominant, run⟩

/-! ### What both have in common (R1, R2, R65) -/

/-- A round started: the number advanced, the timer and the field events restarted, the count of valid marks stands, the repair turn
ended and the heard ages advanced. -/
def State.Started (s t : State) : Prop :=
  t.clock.round = s.clock.round + 1 ∧ t.clock.timer = 0 ∧ t.clock.closed = 0
  ∧ t.clock.validCount = s.clock.validCount ∧ t.repair.turn = false
  ∧ t.table.heard = s.table.heard.map (fun age => min 256 (age + 1)) ∧ t.hold = s.hold ∧ t.pending = s.pending

theorem startRound_started {order : RoundOrder} (ho : order.admissible = true) (expiry : Bool) (r : Nat) (s : State) :
    s.Started (startRound order expiry r s) := by
  have opened := startRound_opened ho expiry r s
  have clock := startRound_clock order expiry r s
  refine ⟨?_, ?_, ?_, ?_, opened.turn, opened.heard, ?_, ?_⟩
  all_goals simp [clock]

/-- What the counts and the flags of the clock may change after a round start. -/
theorem State.Started.of_clock {s t u : State} (h : s.Started t) (hr : u.clock.round = t.clock.round)
    (ht : u.clock.timer = t.clock.timer) (hc : u.clock.closed = t.clock.closed) (hv : u.clock.validCount = t.clock.validCount)
    (hp : u.repair = t.repair) (hh : u.table = t.table) (hhold : u.hold = t.hold) (hpending : u.pending = t.pending) : s.Started u := by
  unfold State.Started at h ⊢
  rw [hr, ht, hc, hv, hp, hh, hhold, hpending]
  exact h

/-- Time passed before a round start changes none of it. -/
theorem State.Started.from_reach {r : Nat} {s t : State} (h : (reach r s).Started t) : s.Started t := by
  unfold State.Started at h ⊢
  simpa using h

theorem expire_started {order : RoundOrder} (ho : order.admissible = true) (s : State) : s.Started (expire order s) := by
  have started := (startRound_started ho true Config.roundUnits (reach Config.roundUnits s)).from_reach
  have clock := driveAtExpiry_clock (reach Config.roundUnits s).readingOpen
    (startRound order true Config.roundUnits (reach Config.roundUnits s))
  unfold expire
  refine started.of_clock ?_ ?_ ?_ ?_ ?_ ?_ ?_ ?_
  all_goals simp [clock]

theorem startAtEdge_started {order : RoundOrder} (ho : order.admissible = true) (l : LaneId) (r : Nat) (s : State) :
    s.Started (startAtEdge l r order s) := by
  let u := (reach r s).mapLane l Lane.beginRun
  have started : s.Started _ :=
    State.Started.from_reach (r := r) (startRound_started ho false r { u with clock := { u.clock with capture := r } })
  exact started.of_clock rfl rfl rfl rfl rfl rfl rfl rfl

/-- Settles O16: the expiry and the early window edge, through the state that the steps of the round start leave. -/
theorem roundStartsAtExpiryOrEdge : Obligations.RoundStartsAtExpiryOrEdge := by
  intro order s hs ho starts
  refine ⟨fun hdue => ?_, fun l r => ?_⟩
  · intro u readingOpen
    let v := startRound order true Config.roundUnits u
    have opened : v.Opened _ _ _ := startRound_opened ho true Config.roundUnits u
    have clock : v.clock = _ := startRound_clock order true Config.roundUnits u
    have pacing : v.clock.pacing = s.clock.pacing := by simp [clock, u]
    refine ⟨driveAtExpiry readingOpen v, exec_roundTimerExpiry_due hs ho hdue, ?_⟩
    intro drives
    have lane := fun l => driveAtExpiry_lane (readingOpen := readingOpen) (opened.drives l)
    have decision : drives = v.drivesAtExpiry readingOpen := by
      have a := (lane .a).1
      have b := (lane .b).1
      simp only [PerLane.get] at a b
      simp only [drives, driveAtExpiry_frame, a, b, ← pacing]
      rfl
    rw [decision]
    have tclock := driveAtExpiry_clock readingOpen v
    refine ⟨expire_started ho s, ?_, ?_, ?_, ?_, ?_, fun l => ?_, driveAtExpiry_content opened.content⟩
    · simp [tclock, clock, u]
    · simp [tclock, clock]
    · simp [tclock]
    · simp [tclock, clock]
    · rw [tclock, clock]
      cases h : v.drivesAtExpiry readingOpen
      · rfl
      · rfl
    · rw [(lane l).1]
      exact (lane l).2
  · intro accepted
    have accepts : s.acceptsEdge l r 24800 24999 = true ↔ accepted := State.acceptsEdge_iff
    have answer := exec_earlyWindowEdge l r hs ho
    refine ⟨fun h => answer.trans (congrArg _ (if_neg (mt accepts.mp h))), fun h => ?_⟩
    let u := (reach r s).mapLane l Lane.beginRun
    let w : State := { u with clock := { u.clock with capture := r } }
    let v := startRound order false r w
    have opened : v.Opened _ _ _ := startRound_opened ho false r w
    have clock : v.clock = _ := startRound_clock order false r w
    have held : w.lanes.get l = ((reach r s).lanes.get l).beginRun := by simp [w, u]
    obtain ⟨dominant, zero⟩ := Lane.runView_of_beginRun ((State.runView_of_runs opened.runs l).trans (congrArg Lane.runView held))
    refine ⟨{ v with clock := v.clock.follow true }, answer.trans (congrArg _ (if_pos (accepts.mpr h))),
      startAtEdge_started ho l r s, ?_, rfl, rfl, rfl, ?_, opened.drives, opened.content, dominant, zero⟩
    · simp [clock, w]
    · simp [clock, Clock.follow]

end Sys2Proof.Machine
end

section
/-! PROOF LAYER. Mark close (R12, R50, R51): what it leaves of each lane, and what the controller and the notice engine do there. -/

namespace Sys2Proof.Machine

open Sys2Proof

/-! ### A lane monitor at a mark copy -/

/-- An exit count of a SETTLING lane is met, and no echo check is owed (R51). -/
def Lane.exits (x : Lane) : Bool := x.state == .settling && !x.echoOwed && (4 ≤ x.marks || 32 ≤ x.quiet)

/-- The lane in CLEAR, its counts 0 (R51, R53). -/
def Lane.cleared (x : Lane) : Lane := { x with state := .clear, cause := none, rounds := 0, quiet := 0, marks := 0 }

/-- What a mark copy makes of a lane (R50, R51). -/
def Lane.takeCopy (copy : Copy Unit) (x : Lane) : Lane :=
  if x.state = .settling then
    if (x.countMarkCopy copy).exits then (x.countMarkCopy copy).cleared else x.countMarkCopy copy
  else x

/-- A lane leaves SETTLING with its event (R51, R183). -/
theorem settleExit_eq (id : LaneId) (s : State) :
    settleExit id s = if (s.lanes.get id).exits
      then giveEvent (.laneChanged id .settling .clear none) (s.mapLane id Lane.cleared) else s := by
  have settling : (s.lanes.get id).exits = true → (s.lanes.get id).state = .settling := fun h => by
    simp only [Lane.exits, Bool.and_eq_true, beq_iff_eq, and_assoc] at h
    exact h.1
  change (if (s.lanes.get id).exits then enterUsable id .clear s else s) = _
  split
  · next h =>
    rw [← settling h]
    rfl
  · rfl

theorem State.mapLane_congr {s : State} {l : LaneId} {f g : Lane → Lane} (h : f (s.lanes.get l) = g (s.lanes.get l)) :
    s.mapLane l f = s.mapLane l g := by
  unfold State.mapLane
  rw [h]

theorem State.mapLane_of_fixed {s : State} {l : LaneId} {f : Lane → Lane} (h : f (s.lanes.get l) = s.lanes.get l) :
    s.mapLane l f = s := by
  unfold State.mapLane
  rw [h, PerLane.set_get]

theorem State.mapLane_mapLane (s : State) (l : LaneId) (f g : Lane → Lane) :
    (s.mapLane l f).mapLane l g = s.mapLane l (fun x => g (f x)) := by
  unfold State.mapLane
  rw [PerLane.set_set, PerLane.get_set_same]

theorem monitorMark_of_settling {id : LaneId} {s : State} (copy : Copy Unit) (h : (s.lanes.get id).state = .settling) :
    monitorMark id copy s = settleExit id (s.mapLane id (Lane.countMarkCopy copy)) := if_pos (beq_iff_eq.mpr h)

theorem monitorMark_of_not_settling {id : LaneId} {s : State} (copy : Copy Unit) (h : (s.lanes.get id).state ≠ .settling) :
    monitorMark id copy s = s := if_neg (by simpa using h)

/-- A lane monitor takes its mark copy. -/
theorem monitorMark_eq (id : LaneId) (copy : Copy Unit) (s : State) :
    let t := s.mapLane id (Lane.takeCopy copy)
    monitorMark id copy s
      = if ((s.lanes.get id).countMarkCopy copy).exits then giveEvent (.laneChanged id .settling .clear none) t else t := by
  intro t
  by_cases hs : (s.lanes.get id).state = .settling
  · have counted : (s.mapLane id (Lane.countMarkCopy copy)).lanes.get id = (s.lanes.get id).countMarkCopy copy := by simp
    rw [monitorMark_of_settling copy hs, settleExit_eq, counted]
    split
    · next hx =>
      rw [State.mapLane_mapLane]
      exact congrArg _ (State.mapLane_congr (by simp only [Lane.takeCopy, hx, hs, if_true]))
    · next hx => exact State.mapLane_congr (by simp only [Lane.takeCopy, hx, hs, if_true, Bool.false_eq_true, if_false])
  · have stays : ((s.lanes.get id).countMarkCopy copy).exits = false := by simp [Lane.exits, Lane.countMarkCopy, hs]
    rw [monitorMark_of_not_settling copy hs, stays]
    exact (State.mapLane_of_fixed (if_neg hs)).symm

theorem monitorMark_lanes (id : LaneId) (copy : Copy Unit) (s : State) :
    (monitorMark id copy s).lanes = s.lanes.set id ((s.lanes.get id).takeCopy copy) := by
  rw [monitorMark_eq]
  split <;> rfl

/-- The events of the log and their latches, as an event at round `round` leaves them. -/
theorem giveEvent_mgmt_congr {s t : State} (e : Event) (hround : s.clock.round = t.clock.round) (hmgmt : s.mgmt = t.mgmt) :
    (giveEvent e s).mgmt = (giveEvent e t).mgmt := by
  unfold giveEvent
  rw [hround, hmgmt]

/-! ### A lane in SETTLING -/

/-- The valid-mark count after a mark copy (R50, R51). -/
def Lane.marksAfter (valid : Prop) [Decidable valid] (x : Lane) : Nat :=
  if valid then min 4 (x.marks + 1) else if x.echoOwed && decide (4 ≤ x.marks) then x.marks else 0

theorem Lane.countMarkCopy_eq (copy : Copy Unit) (x : Lane) :
    x.countMarkCopy copy = { x with marks := x.marksAfter (copy.isValid = true) } := rfl

theorem Lane.marksAfter_le {x : Lane} (valid : Prop) [Decidable valid] (h : x.marks ≤ 4) : x.marksAfter valid ≤ 4 := by
  unfold Lane.marksAfter
  split
  · exact Nat.min_le_left _ _
  · split <;> omega

theorem Lane.marksAfter_congr {p q : Prop} [Decidable p] [Decidable q] (h : p ↔ q) (x : Lane) : x.marksAfter p = x.marksAfter q := by
  unfold Lane.marksAfter
  simp only [h]

theorem Lane.exits_countMarkCopy_iff {x : Lane} (copy : Copy Unit) (hs : x.state = .settling) (hm : x.marks ≤ 4) :
    (x.countMarkCopy copy).exits = true ↔ x.echoOwed = false ∧ (x.marksAfter (copy.isValid = true) = 4 ∨ 32 ≤ x.quiet) := by
  have bound := Lane.marksAfter_le (copy.isValid = true) hm
  rw [Lane.countMarkCopy_eq]
  simp only [Lane.exits, hs, beq_self_eq_true, Bool.true_and, Bool.and_eq_true, Bool.or_eq_true, Bool.not_eq_true', decide_eq_true_eq]
  rw [show (4 ≤ x.marksAfter (copy.isValid = true) ↔ x.marksAfter (copy.isValid = true) = 4) by omega]

theorem Lane.takeCopy_of_exits {x : Lane} {copy : Copy Unit} (hs : x.state = .settling) (h : (x.countMarkCopy copy).exits = true) :
    x.takeCopy copy = x.cleared := by
  unfold Lane.takeCopy
  rw [if_pos hs, if_pos h]
  rfl

theorem Lane.takeCopy_of_stays {x : Lane} {copy : Copy Unit} (hs : x.state = .settling) (h : (x.countMarkCopy copy).exits = false) :
    x.takeCopy copy = { x with marks := x.marksAfter (copy.isValid = true) } := by
  unfold Lane.takeCopy
  rw [if_pos hs, h]
  rfl

theorem Lane.takeCopy_of_not_settling {x : Lane} {copy : Copy Unit} (hs : x.state ≠ .settling) : x.takeCopy copy = x := if_neg hs

theorem Lane.takeCopy_search (copy : Copy Unit) (x : Lane) : (x.takeCopy copy).search = x.search := by
  unfold Lane.takeCopy
  split
  · split <;> rfl
  · rfl

/-! ### What mark close does to the lanes -/

theorem contendNotice_agrees (lanes : PerLane Lane) (s : State) (l : LaneId) :
    ((contendNotice lanes s).lanes.get l).agrees (s.lanes.get l) := by
  unfold contendNotice
  split
  · split
    · exact contendOn_agrees _ _ _ s l
    · exact Lane.agrees_refl _
  · exact Lane.agrees_refl _

/-- Mark close hands each lane its copy, and the notice window's field begins. -/
theorem closeMark_lane (a b : Copy Unit) (leadInFirst : Bool) (s : State) (l : LaneId) :
    ((closeMark a b leadInFirst s).lanes.get l).agrees ((s.lanes.get l).takeCopy (if l = .a then a else b)) := by
  have taken : (monitorMark .b b (monitorMark .a a (countMark (mergeMarks a b).isValid s))).lanes.get l
      = (s.lanes.get l).takeCopy (if l = .a then a else b) := by
    simp only [monitorMark_lanes, countMark_frame]
    cases l <;> rfl
  unfold closeMark
  dsimp only
  refine Lane.agrees_trans (contendNotice_agrees _ _ l) (Lane.agrees_trans (beginField_agrees _ _ l) ?_)
  rw [show ∀ v u, (listenMark v u).lanes = u.lanes from fun v u => by simp, taken]
  exact Lane.agrees_refl _

/-- A SETTLING lane after mark close (R50, R51, R53). -/
theorem Lane.agrees_takeCopy_of_settling {x y : Lane} {copy : Copy Unit} (h : y.agrees (x.takeCopy copy)) (hs : x.state = .settling)
    (hm : x.marks ≤ 4) :
    let exits := x.echoOwed = false ∧ (x.marksAfter (copy.isValid = true) = 4 ∨ 32 ≤ x.quiet)
    (exits → y.state = .clear ∧ y.cause = none ∧ y.rounds = 0 ∧ y.marks = 0 ∧ y.quiet = 0)
    ∧ (¬ exits → y.state = .settling ∧ y.cause = x.cause ∧ y.rounds = x.rounds ∧ y.quiet = x.quiet
        ∧ y.marks = x.marksAfter (copy.isValid = true)) := by
  obtain ⟨state, cause, -, -, -, -, -, -, -, quiet, marks, rounds, -⟩ := h
  have leaves := Lane.exits_countMarkCopy_iff copy hs hm
  refine ⟨fun he => ?_, fun he => ?_⟩
  · rw [state, cause, quiet, marks, rounds, Lane.takeCopy_of_exits hs (leaves.mpr he)]
    exact ⟨rfl, rfl, rfl, rfl, rfl⟩
  · rw [state, cause, quiet, marks, rounds, Lane.takeCopy_of_stays hs (Bool.eq_false_iff.mpr (mt leaves.mp he))]
    exact ⟨hs, rfl, rfl, rfl, rfl⟩

/-- A lane in another state after mark close (R50). -/
theorem Lane.agrees_takeCopy_of_not_settling {x y : Lane} {copy : Copy Unit} (h : y.agrees (x.takeCopy copy)) (hs : x.state ≠ .settling) :
    y.state = x.state ∧ y.cause = x.cause ∧ y.rounds = x.rounds ∧ y.quiet = x.quiet ∧ y.marks = x.marks := by
  rw [Lane.takeCopy_of_not_settling hs] at h
  obtain ⟨state, cause, -, -, -, -, -, -, -, quiet, marks, rounds, -⟩ := h
  exact ⟨state, cause, rounds, quiet, marks⟩

/-- A reading tells of a lane's run alone; its monitor and its open reading stand. -/
theorem Lane.tell_kept (shown : LevelShown) (x : Lane) :
    (x.tell shown).state = x.state ∧ (x.tell shown).cause = x.cause ∧ (x.tell shown).echoOwed = x.echoOwed
    ∧ (x.tell shown).quiet = x.quiet ∧ (x.tell shown).marks = x.marks ∧ (x.tell shown).rounds = x.rounds
    ∧ (x.tell shown).hold = x.hold ∧ (x.tell shown).search = x.search := by
  obtain ⟨run, dominant, reported, held, e, -⟩ := x.tell_spec shown
  rw [e]
  exact ⟨rfl, rfl, rfl, rfl, rfl, rfl, rfl, rfl⟩

theorem Lane.tell_marksAfter (shown : LevelShown) (valid : Prop) [Decidable valid] (x : Lane) :
    (x.tell shown).marksAfter valid = x.marksAfter valid := by
  obtain ⟨-, -, owed, -, marks, -⟩ := x.tell_kept shown
  unfold Lane.marksAfter
  rw [owed, marks]

end Sys2Proof.Machine
end

section
/-! PROOF LAYER. Open search (R14, R15): the edges that open a reading, and the adoption of one that completes. -/

namespace Sys2Proof.Machine

open Sys2Proof

/-! ### The edge -/

theorem exec_openSearchEdge {s : State} (l : LaneId) (r passiveFor : Nat) (hs : s.holding = false) :
    exec (.openSearchEdge l r passiveFor) s = .next (if s.acceptsSearch l r passiveFor then (reach r s).mapLane l
        (fun x => { x.beginRun with search := some { edge := r, carried := 0, crossed := false } }) else s) := by
  change running _ s = _
  rw [running_of_free hs]

/-- The edges that open a reading (R14; log 46). -/
theorem State.acceptsSearch_iff {s : State} {l : LaneId} {r passiveFor : Nat} :
    s.acceptsSearch l r passiveFor = true ↔
      s.clock.validCount = 0 ∧ s.ctrl.mode ≠ .starting ∧ (s.lanes.get l).receiveUsable = true
        ∧ r < 24800 ∧ s.reaches r = true ∧ 800 ≤ passiveFor
        ∧ ¬ (s.clock.lateWindow = true ∧ r ≤ 200 + 36 * s.ctrl.option.station.toNat)
        ∧ ((reach r s).lanes.get l).search = none := by
  have early : r ≤ Config.earlyWindowAt - 1 ↔ r < 24800 := by
    rw [show Config.earlyWindowAt - 1 = 24799 from rfl]
    omega
  unfold State.acceptsSearch
  simp only [Bool.and_eq_true, beq_iff_eq, State.acceptsEdge_iff, decide_eq_true_eq, Bool.not_eq_true', Option.isNone_iff_eq_none,
    Nat.zero_le, true_and, early, and_assoc, ← Bool.not_eq_true]
  rfl

/-! ### The round that an adoption cuts short (R15) -/

theorem cutShort_runs (s : State) : (cutShort s).runs = s.runs := by
  change (if s.awaitsAnswers then loseAnswers (recordSent s) else endFlightLost s).runs = s.runs
  split
  · rw [loseAnswers_runs]
    exact State.runs_of_lanes (by simp)
  · exact State.runs_of_lanes (by simp)

/-- The round in which an adoption takes its mark close: the running one if a round has started since the edge, and else a new one. -/
def adoptedRound (x : Search) (order : RoundOrder) (s : State) : State :=
  if x.crossed then s else startRound order false s.clock.timer (cutShort s)

theorem adoptedRound_crossed {x : Search} (order : RoundOrder) (s : State) (h : x.crossed = true) : adoptedRound x order s = s := if_pos h

theorem adoptedRound_uncrossed {x : Search} (order : RoundOrder) (s : State) (h : x.crossed = false) :
    adoptedRound x order s = startRound order false s.clock.timer (cutShort s) := if_neg (by simp [h])

/-- What the round of the adoption has of the running one. -/
theorem adoptedRound_spec {order : RoundOrder} (ho : order.admissible = true) (x : Search) (s : State) :
    let t := adoptedRound x order s
    t.runs = s.runs ∧ t.clock.round = (if x.crossed then s.clock.round else s.clock.round + 1)
    ∧ t.clock.validCount = s.clock.validCount
    ∧ t.table.heard = (if x.crossed then s.table.heard else s.table.heard.map (fun age => min 256 (age + 1)))
    ∧ (x.crossed = false → t.notices.plan = none ∧ t.notices.tentative = none ∧ t.repair.turn = false)
    ∧ t.hold = s.hold ∧ t.pending = s.pending := by
  intro t
  cases h : x.crossed
  · have opened := startRound_opened ho false s.clock.timer (cutShort s)
    have clock := startRound_clock order false s.clock.timer (cutShort s)
    have e : t = _ := adoptedRound_uncrossed order s h
    obtain ⟨plan, tentative⟩ := opened.plan ⟨rfl, rfl⟩
    rw [e]
    refine ⟨opened.runs.trans (cutShort_runs s), ?_, ?_, ?_, fun _ => ⟨plan, tentative, opened.turn⟩, ?_, ?_⟩
    · simp [clock]
    · simp [clock]
    · simpa [ageAll] using opened.heard
    · simp
    · simp
  · rw [show t = s from adoptedRound_crossed order s h]
    exact ⟨rfl, rfl, rfl, rfl, fun h => absurd h (by decide), rfl, rfl⟩

/-! ### The adoption (R14) -/

/-- The copy that the mark close of an adoption takes of each lane: the adopted one is VALID. -/
def adoptionCopy (l : LaneId) (second : MarkReading) (s : State) (k : LaneId) : Copy Unit :=
  if k = l then .valid () else otherCopy (s.lanes.get (otherLane l)) second

theorem adoptMark_eq (l : LaneId) (x : Search) (second : MarkReading) (leadInFirst : Bool) (order : RoundOrder) (s : State) :
    let u := tellAdoption l second (reach x.completesAt s)
    adoptMark l x second leadInFirst order s
      = closeMark (adoptionCopy l second u .a) (adoptionCopy l second u .b) leadInFirst (adopt x (adoptedRound x order u)) := by
  cases l <;> rfl

theorem adoptionCopy_merged (l : LaneId) (second : MarkReading) (s : State) :
    (mergeMarks (adoptionCopy l second s .a) (adoptionCopy l second s .b)).isValid = true := by
  cases l
  · rfl
  · simp [adoptionCopy, mergeMarks, Copy.isValid]

theorem adopt_runs (x : Search) (s : State) : (adopt x s).runs = s.runs :=
  State.runs_map s (adopt x s) (fun l => { l with search := none }) (fun _ => rfl) rfl

/-- The lanes of an adopted mark's close: each has taken its copy. -/
theorem adoptMark_other_lane {x : Search} (l : LaneId) (second : MarkReading) (leadInFirst : Bool) (order : RoundOrder) (s : State)
    (hx : x.crossed = true) :
    let y := (tellAdoption l second (reach x.completesAt s)).lanes.get (otherLane l)
    ((adoptMark l x second leadInFirst order s).lanes.get (otherLane l)).agrees
      ({ y with search := none }.takeCopy (otherCopy y second)) := by
  intro y
  rw [adoptMark_eq, adoptedRound_crossed order _ hx]
  cases l <;> exact closeMark_lane _ _ _ _ _

/-- What the two readings of an adoption tell of the lanes' runs (R41; log 4). -/
theorem tellAdoption_lanes (l : LaneId) (second : MarkReading) (s : State) :
    let since := match (s.lanes.get (otherLane l)).search with
      | some y => y.elapsed s.clock.timer
      | none => 800
    (tellAdoption l second s).lanes.get l = (s.lanes.get l).tell (.passiveWithin 60)
    ∧ (tellAdoption l second s).lanes.get (otherLane l) = (s.lanes.get (otherLane l)).tell (second.levelShown since) := by
  cases l <;> exact ⟨rfl, rfl⟩

/-- An open reading is judged by its ticks alone (R5; log 43). -/
theorem otherCopy_of_open {x : Lane} (second : MarkReading) (h : x.search ≠ none) :
    (otherCopy x second).isValid = true
      ↔ second = .ticks [.dominant, .dominant, .dominant, .dominant, .passive, .dominant, .passive, .passive] := by
  unfold otherCopy
  rw [if_pos (Option.isSome_iff_ne_none.mpr h)]
  by_cases hr : second = .ticks markPattern
  · rw [if_pos hr]
    exact iff_of_true rfl hr
  · rw [if_neg hr]
    exact iff_of_false (by decide) hr

/-- The other lane's open reading counts in SETTLING as a mark copy does (R50, R51). -/
theorem adoptMark_other_settling {x : Search} (l : LaneId) (second : MarkReading) (leadInFirst : Bool) (order : RoundOrder) (s : State)
    (hx : x.crossed = true) :
    let y := (reach x.completesAt s).lanes.get (otherLane l)
    let z := (adoptMark l x second leadInFirst order s).lanes.get (otherLane l)
    let marks := y.marksAfter (second = .ticks [.dominant, .dominant, .dominant, .dominant, .passive, .dominant, .passive, .passive])
    let exits := y.echoOwed = false ∧ (marks = 4 ∨ 32 ≤ y.quiet)
    y.search ≠ none → y.state = .settling → y.marks ≤ 4 →
      (exits → z.state = .clear) ∧ (¬ exits → z.state = .settling ∧ z.marks = marks) := by
  intro y z marks exits hopen hs hm
  obtain ⟨-, told⟩ := tellAdoption_lanes l second (reach x.completesAt s)
  have agrees := adoptMark_other_lane l second leadInFirst order s hx
  rw [told] at agrees
  set shown := second.levelShown _
  obtain ⟨state, -, owed, quiet, kept, -, -, search⟩ := y.tell_kept shown
  obtain ⟨leaves, stays⟩ := Lane.agrees_takeCopy_of_settling agrees (state.trans hs) (kept.trans_le hm)
  have counted : ({ y.tell shown with search := none } : Lane).marksAfter ((otherCopy (y.tell shown) second).isValid = true) = marks :=
    (Lane.marksAfter_congr (otherCopy_of_open second (search ▸ hopen)) _).trans (Lane.tell_marksAfter shown _ y)
  rw [counted] at leaves stays
  dsimp only at leaves stays
  rw [owed, quiet] at leaves stays
  refine ⟨fun he => ?_, fun he => ?_⟩
  · obtain ⟨clear, -⟩ := leaves he
    exact clear
  · obtain ⟨settling, -, -, -, count⟩ := stays he
    exact ⟨settling, count⟩

/-- The clock of an adoption (R12, R14, R15). -/
theorem adoptMark_clock (l : LaneId) (x : Search) (second : MarkReading) (leadInFirst : Bool) (order : RoundOrder) (s : State) :
    let v := adoptedRound x order (tellAdoption l second (reach x.completesAt s))
    (adoptMark l x second leadInFirst order s).clock = { v.clock with
      timer := 800, closed := 1, capture := x.edge, pacing := false, lateWindow := false, edgeTaken := true,
      validCount := min 255 (v.clock.validCount + 1) } := by
  intro v
  rw [adoptMark_eq, closeMark_clock, adoptionCopy_merged]
  rfl

theorem adoptMark_runs {order : RoundOrder} (ho : order.admissible = true) (l : LaneId) (x : Search) (second : MarkReading)
    (leadInFirst : Bool) (s : State) :
    (adoptMark l x second leadInFirst order s).runs = (tellAdoption l second (reach x.completesAt s)).runs := by
  obtain ⟨runs, -⟩ := adoptedRound_spec ho x (tellAdoption l second (reach x.completesAt s))
  rw [adoptMark_eq, closeMark_runs, adopt_runs, runs]

/-- Every reading closes with an adoption (R14). -/
theorem adoptMark_search (l : LaneId) (x : Search) (second : MarkReading) (leadInFirst : Bool) (order : RoundOrder) (s : State)
    (k : LaneId) : ((adoptMark l x second leadInFirst order s).lanes.get k).search = none := by
  let u := tellAdoption l second (reach x.completesAt s)
  obtain ⟨-, -, -, -, -, -, -, -, -, -, -, -, -, -, -, -, search⟩ :=
    closeMark_lane (adoptionCopy l second u .a) (adoptionCopy l second u .b) leadInFirst (adopt x (adoptedRound x order u)) k
  rw [adoptMark_eq, search, Lane.takeCopy_search]
  cases k <;> rfl

/-- Settles O18: the edges that open a reading, and the adoption through the round it is taken in and the lanes its mark close leaves. -/
theorem openSearchReadsAndAdopts : Obligations.OpenSearchReadsAndAdopts := by
  intro l s hs
  refine ⟨fun r passiveFor => ?_, fun second leadInFirst order ho =>
    ⟨exec_openSearchAdoption_none l second leadInFirst hs ho, fun x hx => ?_⟩⟩
  · intro accepted u
    have accepts : s.acceptsSearch l r passiveFor = true ↔ accepted := State.acceptsSearch_iff
    have answer := exec_openSearchEdge l r passiveFor hs
    exact ⟨fun h => answer.trans (congrArg _ (if_neg (mt accepts.mp h))), fun h => answer.trans (congrArg _ (if_pos (accepts.mpr h)))⟩
  · intro ends
    have answer := exec_openSearchAdoption_some second leadInFirst hs ho hx
    refine ⟨fun h => answer.trans (congrArg _ (if_neg (Bool.eq_false_iff.mp h))),
      fun h => ⟨_, answer.trans (congrArg _ (if_pos h)), ?_⟩⟩
    have timer : (reach x.completesAt s).clock.timer = ends := reach_timer_of_reaches h
    have clock := adoptMark_clock l x second leadInFirst order s
    have kept := adoptMark_runs ho l x second leadInFirst s
    let u := tellAdoption l second (reach x.completesAt s)
    obtain ⟨-, round, validCount, heard, dropped, -, -⟩ := adoptedRound_spec ho x u
    obtain ⟨told, otherTold⟩ := tellAdoption_lanes l second (reach x.completesAt s)
    rw [timer] at otherTold
    have eq := adoptMark_eq l x second leadInFirst order s
    refine ⟨by rw [clock], by rw [clock], by rw [clock], by rw [clock], by rw [clock], ?_, ?_, ?_, ?_,
      adoptMark_other_settling l second leadInFirst order s, ⟨?_, ?_⟩, adoptMark_search l x second leadInFirst order s .a,
      adoptMark_search l x second leadInFirst order s .b, ?_, ?_⟩
    · rw [clock]
      simp [validCount, u]
    · rw [clock]
      simp [round, u]
    · rw [eq]
      simp [heard, u]
    · rw [eq]
      simpa using dropped
    · exact Lane.told_of_runView _ _ _ ((State.runView_of_runs kept l).trans (congrArg Lane.runView told))
    · exact Lane.told_of_runView _ _ _ ((State.runView_of_runs kept (otherLane l)).trans (congrArg Lane.runView otherTold))
    · simp
    · simp

end Sys2Proof.Machine
end

section
/-! PROOF LAYER. The mark close of a round (R12): the mark copies, the lock of LISTENING, and the lead-in of the notice window. -/

namespace Sys2Proof.Machine

open Sys2Proof

/-! ### Mark copies (R5) -/

/-- A whole copy of the mark is VALID by its edge and its ticks. -/
theorem markCopy_of_whole {x : Lane} (accepted : Bool) (r : MarkReading)
    (h : (!x.receiveUsable || x.copyErased || x.markSpoiled) = false) :
    (markCopy x accepted r).isValid = true ↔ accepted = true ∧ r = .ticks markPattern := by
  unfold markCopy
  rw [if_neg (Bool.not_eq_true _ ▸ h)]
  cases r with
  | ticks levels =>
    have ticks : (if accepted && levels == markPattern then Copy.valid () else Copy.erased).isValid
        = (accepted && levels == markPattern) := by
      cases accepted && levels == markPattern <;> rfl
    dsimp only
    rw [ticks, Bool.and_eq_true, beq_iff_eq, MarkReading.ticks.injEq]
  | passiveThroughout => simp [Copy.isValid]
  | dominantThroughout => simp [Copy.isValid]
  | other => simp [Copy.isValid]

theorem markCopy_isValid_iff (x : Lane) (accepted : Bool) (r : MarkReading) :
    (markCopy x accepted r).isValid = true ↔
      x.receiveUsable = true ∧ x.contributing = true ∧ x.lostAt = none ∧ x.markSpoiled = false ∧ accepted = true
      ∧ r = .ticks [.dominant, .dominant, .dominant, .dominant, .passive, .dominant, .passive, .passive] := by
  have whole : (!x.receiveUsable || x.copyErased || x.markSpoiled) = false
      ↔ x.receiveUsable = true ∧ x.contributing = true ∧ x.lostAt = none ∧ x.markSpoiled = false := by
    simp [Lane.copyErased, and_assoc]
  cases h : (!x.receiveUsable || x.copyErased || x.markSpoiled)
  · obtain ⟨usable, contributing, lost, spoiled⟩ := whole.mp h
    rw [markCopy_of_whole accepted r h]
    simp only [usable, contributing, lost, spoiled, true_and]
    rfl
  · have erased : markCopy x accepted r = .erased := if_pos h
    rw [erased]
    refine iff_of_false (by decide) (fun ⟨usable, contributing, lost, spoiled, _⟩ => ?_)
    rw [whole.mpr ⟨usable, contributing, lost, spoiled⟩] at h
    exact absurd h (by decide)

theorem mergeMarks_isValid (a b : Copy Unit) : (mergeMarks a b).isValid = (a.isValid || b.isValid) := by
  unfold mergeMarks
  cases a.isValid || b.isValid
  · simp only [Bool.false_eq_true, if_false]
    split <;> rfl
  · rfl

/-! ### The lock of LISTENING (R66, R165) -/

/-- The lock is taken at a mark close: four valid marks in a row, and not taken before. -/
def State.takesLock (s : State) : Bool := 4 ≤ s.clock.validCount && s.ctrl.lockTaken == some false

theorem listenMark_of_not_listening {s : State} (valid : Bool) (h : s.ctrl.mode ≠ .listening) : listenMark valid s = s :=
  if_neg (by simpa using h)

/-- The controller of a LISTENING station as it takes the mark. -/
def Controller.listens (valid locks : Bool) (c : Controller) : Controller :=
  { c with alone := if valid then some 0 else c.alone, lockTaken := if locks then some true else c.lockTaken }

/-- Learning as the lock begins it: with no epoch, and the runs of a valid retained context carried. -/
def State.lockLearning (s : State) : Learning :=
  { table := carryRuns s.station (contextRuns s) (List.replicate 24 { use := .unknown, carried := false })
    epoch := none, rounds := 0, carried := contextRuns s }

theorem listenMark_of_listening {s : State} (valid : Bool) (h : s.ctrl.mode = .listening) :
    listenMark valid s = { s with
      ctrl := s.ctrl.listens valid s.takesLock
      table := if s.takesLock then { s.table with learning := some s.lockLearning } else s.table } := by
  have test : ∀ c : Controller, c.lockTaken = s.ctrl.lockTaken →
      (4 ≤ s.clock.validCount && c.lockTaken == some false) = s.takesLock := fun c hc => by rw [hc]; rfl
  unfold listenMark
  rw [if_pos (beq_iff_eq.mpr h)]
  cases valid
  · dsimp only
    simp only [Bool.false_eq_true, if_false]
    rw [test _ rfl]
    cases s.takesLock <;> rfl
  · dsimp only
    simp only [if_true]
    rw [test _ rfl]
    cases s.takesLock <;> rfl

/-- The runs of a valid retained context, as learning carries them (R66). -/
theorem contextRuns_eq (s : State) :
    contextRuns s = (if s.ctrl.context.valid then s.ctrl.context.records else []).map
      (fun r => { run := r.run, tag := r.tag, pending := false, broken := false }) := by
  unfold contextRuns
  split <;> rfl

/-- The table of an unknown schedule with the given records carried, slot by slot (R66). -/
theorem carryRuns_unknown (station : StationNo) (records : List ContextRecord) :
    carryRuns station (records.map (fun r => { run := r.run, tag := r.tag, pending := false, broken := false }))
        (List.replicate 24 { use := .unknown, carried := false })
      = (List.range 24).map (fun n =>
          match records.find? (fun r => decide (r.run.first ≤ n ∧ n < r.run.first + r.run.count)) with
          | some r => { use := .owned station r.tag, carried := true }
          | none => { use := .unknown, carried := false }) := by
  have found : ∀ n, (records.map (fun r : ContextRecord =>
        ({ run := r.run, tag := r.tag, pending := false, broken := false } : CarriedRun))).find? (fun r => r.run.has n)
      = (records.find? (fun r => decide (r.run.first ≤ n ∧ n < r.run.first + r.run.count))).map
          (fun r => { run := r.run, tag := r.tag, pending := false, broken := false }) := by
    intro n
    rw [List.find?_map]
    congr 2
    funext r
    simp [Run.has]
  unfold carryRuns
  refine List.ext_getElem (by simp) (fun n _ _ => ?_)
  rw [List.getElem_mapIdx, List.getElem_map, List.getElem_range, found, List.getElem_replicate]
  cases records.find? (fun r => decide (r.run.first ≤ n ∧ n < r.run.first + r.run.count)) <;> rfl

end Sys2Proof.Machine
end

section
/-! PROOF LAYER. The lead-in of the notice window and the monitors at mark close (R25, R50, R84). -/

namespace Sys2Proof.Machine

open Sys2Proof

/-! ### The notice engine before the notice window -/

theorem passMoments_notices_of_before_bodyEnd {crossed : Nat → Bool} {s : State} (h : crossed Config.noticeBodyEnd = false) :
    (passMoments crossed s).notices = s.notices := by
  have answered : ∀ (c : Bool) (u : State), (applyIf c startAnswer u).notices = u.notices := fun c u => by cases c <;> simp [applyIf]
  have ended : ∀ (c : Bool) (u : State), (applyIf c endAnswer u).notices = u.notices := fun c u => by cases c <;> simp [applyIf]
  have repaired : ∀ (c : Bool) (u : State), (applyIf c startRepairLeadIn u).notices = u.notices :=
    fun c u => by cases c <;> simp [applyIf]
  have driven : ∀ (c : Bool) (u : State), (applyIf c startSlotDrive u).notices = u.notices := fun c u => by cases c <;> simp [applyIf]
  unfold passMoments
  dsimp only
  rw [driven, repaired, ended, answered, h]
  rfl

/-- Time before the end of the notice body leaves the notice engine alone (R28). -/
theorem reach_notices_of_before_bodyEnd {r : Nat} {s : State} (h : r < 1518) : (reach r s).notices = s.notices := by
  unfold reach
  dsimp only
  split
  · rfl
  · refine passMoments_notices_of_before_bodyEnd ?_
    have early : ¬ Config.noticeBodyEnd ≤ min r s.horizon := fun hb => by
      have : (1518 : Nat) ≤ min r s.horizon := hb
      omega
    rw [decide_eq_false early, Bool.and_false]

/-! ### The lead-in (R25, R84) -/

/-- A JOINED station with a notice in flight contends on the lanes given it. -/
def State.contends (s : State) (lanes : PerLane Lane) (l : LaneId) : Bool :=
  s.ctrl.mode == .joined && s.notices.flight.isSome && (lanes.get l).transmitUsable

theorem contendOn_lane_drive (test : LaneId → Bool) (field : LeadInField) (v : BitVec 7) (s : State) (l : LaneId) :
    ((contendOn test field v s).lanes.get l).drive = if test l then .contending else (s.lanes.get l).drive := by
  unfold contendOn
  dsimp only
  split
  · cases l
    · dsimp only [PerLane.get]
      split <;> rfl
    · dsimp only [PerLane.get]
      split <;> rfl
  · next h =>
    have none : test l = false := by
      rw [Bool.or_eq_true, not_or] at h
      obtain ⟨ha, hb⟩ := h
      cases l
      · exact Bool.eq_false_iff.mpr ha
      · exact Bool.eq_false_iff.mpr hb
    rw [none]
    rfl

theorem contendOn_drive (test : LaneId → Bool) (field : LeadInField) (v : BitVec 7) (s : State) :
    (contendOn test field v s).drive
      = if test .a || test .b then { s.drive with content := .leadIn field, leadIn := some v, lost := false } else s.drive := by
  unfold contendOn
  dsimp only
  split <;> rfl

theorem contendNotice_of_contending {s : State} {f : Flight} (lanes : PerLane Lane) (hm : s.ctrl.mode = .joined)
    (hf : s.notices.flight = some f) :
    contendNotice lanes s = contendOn (fun id => (lanes.get id).transmitUsable) .noticeWindow f.leadIn s := by
  unfold contendNotice
  rw [hf]
  exact if_pos (beq_iff_eq.mpr hm)

theorem contendNotice_of_silent {s : State} (lanes : PerLane Lane) (h : s.notices.flight = none ∨ s.ctrl.mode ≠ .joined) :
    contendNotice lanes s = s := by
  unfold contendNotice
  split
  · next f hf =>
    rcases h with h | h
    · exact absurd (hf.symm.trans h) (by simp)
    · exact if_neg (by simpa using h)
  · rfl

/-- The notice window's lead-in, in a field that has begun with nothing driven. -/
theorem contendNotice_spec {s : State} (lanes : PerLane Lane) (off : ∀ l : LaneId, (s.lanes.get l).drive = .notDriving)
    (hc : s.drive.content = .none) (hl : s.drive.leadIn = none) :
    let t := contendNotice lanes s
    let some := s.contends lanes .a || s.contends lanes .b
    (∀ l : LaneId, (t.lanes.get l).drive = if s.contends lanes l then .contending else .notDriving)
    ∧ t.drive.content = (if some then .leadIn .noticeWindow else .none)
    ∧ t.drive.leadIn = (if some then s.notices.flight.map (fun f => f.leadIn) else none) := by
  have silent : s.notices.flight = none ∨ s.ctrl.mode ≠ .joined → ∀ l, s.contends lanes l = false := by
    rintro (h | h) l
    · simp [State.contends, h]
    · simp [State.contends, h]
  intro t some
  by_cases h : s.notices.flight = none ∨ s.ctrl.mode ≠ .joined
  · have same : t = s := contendNotice_of_silent lanes h
    have nobody : some = false := by simp only [some, silent h, Bool.or_self]
    rw [same, nobody]
    refine ⟨fun l => ?_, hc, hl⟩
    rw [silent h l]
    exact off l
  · rw [not_or, not_not] at h
    obtain ⟨hf, hm⟩ := h
    obtain ⟨f, hf⟩ := Option.ne_none_iff_exists'.mp hf
    have test : ∀ l, s.contends lanes l = (lanes.get l).transmitUsable := fun l => by simp [State.contends, hf, hm]
    have driven : t = _ := contendNotice_of_contending lanes hm hf
    have anybody : some = ((lanes.get .a).transmitUsable || (lanes.get .b).transmitUsable) := by simp only [some, test]
    rw [driven, contendOn_drive, anybody, hf]
    refine ⟨fun l => ?_, ?_, ?_⟩
    · rw [contendOn_lane_drive, test, off]
    · split
      · rfl
      · exact hc
    · split
      · rfl
      · exact hl

/-! ### The monitors (R50, R51, R183) -/

/-- The event of a lane that leaves SETTLING at its mark copy. -/
def tellExit (l : LaneId) (copy : Copy Unit) (x : Lane) (v : State) : State :=
  if (x.countMarkCopy copy).exits then giveEvent (.laneChanged l .settling .clear none) v else v

theorem tellExit_round (l : LaneId) (copy : Copy Unit) (x : Lane) (v : State) :
    (tellExit l copy x v).clock.round = v.clock.round := by
  unfold tellExit
  split <;> rfl

theorem tellExit_mgmt_congr {u v : State} (l : LaneId) (copy : Copy Unit) (x : Lane) (hround : u.clock.round = v.clock.round)
    (hmgmt : u.mgmt = v.mgmt) : (tellExit l copy x u).mgmt = (tellExit l copy x v).mgmt := by
  unfold tellExit
  split
  · exact giveEvent_mgmt_congr _ hround hmgmt
  · exact hmgmt

theorem monitorMark_mgmt (id : LaneId) (copy : Copy Unit) (s : State) :
    (monitorMark id copy s).mgmt = (tellExit id copy (s.lanes.get id) s).mgmt := by
  rw [monitorMark_eq]
  unfold tellExit
  split <;> rfl

/-- At mark close lane A's event comes before lane B's. -/
theorem closeMark_mgmt (a b : Copy Unit) (leadInFirst : Bool) (s : State) :
    (closeMark a b leadInFirst s).mgmt = (tellExit .b b s.lanes.b (tellExit .a a s.lanes.a s)).mgmt := by
  let c := countMark (mergeMarks a b).isValid s
  have first : (monitorMark .a a c).mgmt = (tellExit .a a s.lanes.a s).mgmt :=
    (monitorMark_mgmt .a a c).trans (tellExit_mgmt_congr .a a s.lanes.a (by simp [c]) (by simp [c]))
  have other : (monitorMark .a a c).lanes.get .b = s.lanes.b := by
    rw [monitorMark_lanes, PerLane.get_set_of_ne _ _ (by decide)]
    rfl
  calc (closeMark a b leadInFirst s).mgmt
      = (monitorMark .b b (monitorMark .a a c)).mgmt := by simp [closeMark, c]
    _ = (tellExit .b b s.lanes.b (monitorMark .a a c)).mgmt := by rw [monitorMark_mgmt, other]
    _ = (tellExit .b b s.lanes.b (tellExit .a a s.lanes.a s)).mgmt :=
      tellExit_mgmt_congr .b b s.lanes.b (by rw [tellExit_round]; simp [c]) first

/-! ### The controller at mark close (R165) -/

theorem listenMark_congr {u v : State} (valid : Bool) (ctrl : u.ctrl = v.ctrl) (table : u.table = v.table) (clock : u.clock = v.clock) :
    (listenMark valid u).ctrl = (listenMark valid v).ctrl ∧ (listenMark valid u).table = (listenMark valid v).table := by
  by_cases h : v.ctrl.mode = .listening
  · have takes : u.takesLock = v.takesLock := by
      unfold State.takesLock
      rw [ctrl, clock]
    have learning : u.lockLearning = v.lockLearning := by
      unfold State.lockLearning State.station contextRuns
      rw [ctrl]
    rw [listenMark_of_listening valid h, listenMark_of_listening valid (ctrl ▸ h)]
    dsimp only
    rw [takes, learning, ctrl, table]
    exact ⟨rfl, rfl⟩
  · rw [listenMark_of_not_listening valid h, listenMark_of_not_listening valid (ctrl ▸ h)]
    exact ⟨ctrl, table⟩

theorem closeMark_ctrl_table (a b : Copy Unit) (leadInFirst : Bool) (s : State) :
    let t := listenMark (mergeMarks a b).isValid (countMark (mergeMarks a b).isValid s)
    (closeMark a b leadInFirst s).ctrl = t.ctrl ∧ (closeMark a b leadInFirst s).table = t.table := by
  intro t
  let v := monitorMark .b b (monitorMark .a a (countMark (mergeMarks a b).isValid s))
  obtain ⟨ctrl, table⟩ := listenMark_congr (u := v) (v := countMark (mergeMarks a b).isValid s) (mergeMarks a b).isValid
    (by simp [v]) (by simp [v]) (by simp [v])
  rw [← ctrl, ← table]
  simp [closeMark, v]

end Sys2Proof.Machine
end

section
/-! PROOF LAYER. MARK_CLOSE: the readings of the two lanes taken at reading 800 (R12). -/

namespace Sys2Proof.Machine

open Sys2Proof

/-! ### The lead-in of a mark close (R51, R84) -/

theorem Lane.transmitUsable_of_agrees {x y : Lane} (h : x.agrees y) : x.transmitUsable = y.transmitUsable := by
  obtain ⟨state, -, -, -, -, -, -, -, -, -, -, -, -, -, -, hold, -⟩ := h
  unfold Lane.transmitUsable
  rw [state, hold]

/-- The state before the notice window's field begins, with the lanes that the monitors have left. -/
def monitorsDone (a b : Copy Unit) (s : State) : State :=
  listenMark (mergeMarks a b).isValid (monitorMark .b b (monitorMark .a a (countMark (mergeMarks a b).isValid s)))

theorem closeMark_eq (a b : Copy Unit) (leadInFirst : Bool) (s : State) :
    closeMark a b leadInFirst s = contendNotice (if leadInFirst then s.lanes else (monitorsDone a b s).lanes)
      (beginField 800 (monitorsDone a b s)) := rfl

theorem monitorsDone_frame (a b : Copy Unit) (s : State) :
    (monitorsDone a b s).ctrl.mode = s.ctrl.mode ∧ (monitorsDone a b s).notices = s.notices := by
  simp [monitorsDone]

/-- What mark close drives: the lead-in of a notice in flight, on the lanes transmit-usable before or after the monitors take the mark. -/
theorem closeMark_leadIn (a b : Copy Unit) (leadInFirst : Bool) (s : State) :
    let t := closeMark a b leadInFirst s
    let usable := fun (l : LaneId) => if leadInFirst then (s.lanes.get l).transmitUsable else (t.lanes.get l).transmitUsable
    let contends := fun (l : LaneId) => s.ctrl.mode == .joined && s.notices.flight.isSome && usable l
    (∀ l : LaneId, (t.lanes.get l).drive = if contends l then .contending else .notDriving)
    ∧ t.drive.content = (if contends .a || contends .b then .leadIn .noticeWindow else .none)
    ∧ t.drive.leadIn = (if contends .a || contends .b then s.notices.flight.map (fun f => f.leadIn) else none) := by
  intro t usable contends
  let v := monitorsDone a b s
  let lanes := if leadInFirst then s.lanes else v.lanes
  obtain ⟨mode, notices⟩ := monitorsDone_frame a b s
  have lane : ∀ l, (lanes.get l).transmitUsable = usable l := by
    intro l
    simp only [lanes, usable]
    split
    · rfl
    · exact (Lane.transmitUsable_of_agrees (Lane.agrees_trans (contendNotice_agrees _ _ l) (beginField_agrees 800 v l))).symm
  have same : ∀ l, (beginField 800 v).contends lanes l = contends l := by
    intro l
    simp only [State.contends, lane, contends, beginField_ctrl, beginField_notices]
    rw [mode, notices]
  obtain ⟨drive, content, leadIn⟩ := contendNotice_spec (s := beginField 800 v) lanes (fun l => (beginField_lane 800 v l).1) rfl rfl
  simp only [same] at drive content leadIn
  rw [beginField_notices, notices] at leadIn
  exact ⟨drive, content, leadIn⟩

/-! ### The controller at a mark close (R66, R165) -/

theorem closeMark_of_not_listening {s : State} (a b : Copy Unit) (leadInFirst : Bool) (h : s.ctrl.mode ≠ .listening) :
    (closeMark a b leadInFirst s).ctrl = s.ctrl ∧ (closeMark a b leadInFirst s).table = s.table := by
  obtain ⟨ctrl, table⟩ := closeMark_ctrl_table a b leadInFirst s
  rw [listenMark_of_not_listening _ (by simpa using h)] at ctrl table
  exact ⟨ctrl.trans (by simp), table.trans (by simp)⟩

/-- A LISTENING station at mark close: `count` is the count of valid marks that the close leaves. -/
theorem closeMark_of_listening {s : State} (a b : Copy Unit) (leadInFirst : Bool) (h : s.ctrl.mode = .listening) :
    let t := closeMark a b leadInFirst s
    let locks := decide (4 ≤ t.clock.validCount) && s.ctrl.lockTaken == some false
    t.ctrl = s.ctrl.listens (mergeMarks a b).isValid locks
    ∧ t.table = if locks then { s.table with learning := some s.lockLearning } else s.table := by
  intro t locks
  obtain ⟨ctrl, table⟩ := closeMark_ctrl_table a b leadInFirst s
  have clock : t.clock = (countMark (mergeMarks a b).isValid s).clock := closeMark_clock a b leadInFirst s
  have taken : (countMark (mergeMarks a b).isValid s).takesLock = locks := by
    simp only [State.takesLock, locks, clock, countMark_frame]
  rw [listenMark_of_listening _ (by simpa using h)] at ctrl table
  dsimp only at ctrl table
  rw [taken] at ctrl table
  exact ⟨ctrl, table⟩

/-! ### The readings (R5, R12, R41) -/

/-- The mark copy of a lane from its reading. -/
def State.copyOf (s : State) (a b : MarkReading) (l : LaneId) : Copy Unit :=
  markCopy (s.lanes.get l) (s.markAccepted l) (match l with
    | .a => a
    | .b => b)

/-- The lanes as their readings tell of them, before the mark is taken. -/
def marksTold (a b : MarkReading) (s : State) : State := tellLevels (a.levelShown 800) (b.levelShown 800) s

theorem takeMarks_eq (a b : MarkReading) (leadInFirst : Bool) (s : State) :
    takeMarks a b leadInFirst s = closeMark (s.copyOf a b .a) (s.copyOf a b .b) leadInFirst (marksTold a b s) := rfl

theorem marksTold_frame (a b : MarkReading) (s : State) :
    (marksTold a b s).clock = s.clock ∧ (marksTold a b s).ctrl = s.ctrl ∧ (marksTold a b s).table = s.table
    ∧ (marksTold a b s).notices = s.notices ∧ (marksTold a b s).mgmt = s.mgmt := by
  simp [marksTold]

theorem marksTold_lane (a b : MarkReading) (s : State) (l : LaneId) :
    ∃ shown, (marksTold a b s).lanes.get l = (s.lanes.get l).tell shown := by
  cases l
  · exact ⟨_, rfl⟩
  · exact ⟨_, rfl⟩

theorem marksTold_transmitUsable (a b : MarkReading) (s : State) (l : LaneId) :
    ((marksTold a b s).lanes.get l).transmitUsable = (s.lanes.get l).transmitUsable := by
  obtain ⟨shown, e⟩ := marksTold_lane a b s l
  obtain ⟨state, -, -, -, -, -, hold, -⟩ := (s.lanes.get l).tell_kept shown
  unfold Lane.transmitUsable
  rw [e, state, hold]

end Sys2Proof.Machine
end

section
/-! PROOF LAYER. Mark close, settled: the lanes in SETTLING at a mark close (R50, R51), and the statement. -/

namespace Sys2Proof.Machine

open Sys2Proof

/-! ### The lanes at a mark close -/

theorem takeMarks_lane (a b : MarkReading) (leadInFirst : Bool) (s : State) (l : LaneId) :
    ((takeMarks a b leadInFirst s).lanes.get l).agrees (((marksTold a b s).lanes.get l).takeCopy (s.copyOf a b l)) := by
  rw [takeMarks_eq]
  cases l <;> exact closeMark_lane _ _ _ _ _

theorem Lane.exits_tell (shown : LevelShown) (copy : Copy Unit) (x : Lane) :
    ((x.tell shown).countMarkCopy copy).exits = (x.countMarkCopy copy).exits := by
  obtain ⟨state, -, owed, quiet, -⟩ := x.tell_kept shown
  have counted : ∀ (y : Lane) (m : Nat), ({ y with marks := m } : Lane).exits
      = (y.state == .settling && !y.echoOwed && (decide (4 ≤ m) || decide (32 ≤ y.quiet))) := fun _ _ => rfl
  rw [Lane.countMarkCopy_eq, Lane.countMarkCopy_eq, counted, counted, state, owed, quiet, Lane.tell_marksAfter]

theorem Lane.exits_of_not_settling {x : Lane} (copy : Copy Unit) (h : x.state ≠ .settling) : (x.countMarkCopy copy).exits = false := by
  have off : ((x.countMarkCopy copy).state == .settling) = false := beq_eq_false_iff_ne.mpr h
  unfold Lane.exits
  rw [off]
  rfl

/-- The count of a lane within its bound, in the words of the statement. -/
theorem Lane.marksAfter_of_le {x : Lane} (valid : Bool) (h : x.marks ≤ 4) :
    x.marksAfter (valid = true) = if valid then min 4 (x.marks + 1) else if x.echoOwed && x.marks == 4 then 4 else 0 := by
  have full : decide (4 ≤ x.marks) = (x.marks == 4) := by
    rw [Bool.eq_iff_iff, decide_eq_true_eq, beq_iff_eq]
    omega
  unfold Lane.marksAfter
  rw [full]
  cases valid
  · simp only [Bool.false_eq_true, if_false]
    split
    · next hx =>
      obtain ⟨-, hx⟩ := Bool.and_eq_true_iff.mp hx
      exact beq_iff_eq.mp hx
    · rfl
  · rfl

/-- The exit of a lane, in the words of the statement. -/
theorem Lane.exits_countMarkCopy {x : Lane} (copy : Copy Unit) (hm : x.state = .settling → x.marks ≤ 4) :
    (x.countMarkCopy copy).exits = (x.state == .settling && !x.echoOwed
      && ((if copy.isValid then min 4 (x.marks + 1) else if x.echoOwed && x.marks == 4 then 4 else 0) == 4
        || decide (32 ≤ x.quiet))) := by
  by_cases hs : x.state = .settling
  · rw [← Lane.marksAfter_of_le _ (hm hs), Bool.eq_iff_iff, Lane.exits_countMarkCopy_iff copy hs (hm hs), hs]
    simp
  · rw [Lane.exits_of_not_settling copy hs, beq_eq_false_iff_ne.mpr hs]
    rfl

/-- A lane after a mark close: one whose exit is met is in CLEAR, and any other stands but for its count (R50, R51, R53). -/
theorem takeMarks_lane_spec {s : State} (a b : MarkReading) (leadInFirst : Bool) (l : LaneId)
    (hm : (s.lanes.get l).state = .settling → (s.lanes.get l).marks ≤ 4) :
    let x := s.lanes.get l
    let y := (takeMarks a b leadInFirst s).lanes.get l
    let copy := s.copyOf a b l
    ((x.countMarkCopy copy).exits = true → y.state = .clear ∧ y.cause = none ∧ y.rounds = 0 ∧ y.marks = 0 ∧ y.quiet = 0)
    ∧ ((x.countMarkCopy copy).exits = false → y.state = x.state ∧ y.cause = x.cause ∧ y.rounds = x.rounds ∧ y.quiet = x.quiet
        ∧ y.marks = if x.state = .settling then x.marksAfter (copy.isValid = true) else x.marks) := by
  intro x y copy
  have agrees := takeMarks_lane a b leadInFirst s l
  obtain ⟨shown, told⟩ := marksTold_lane a b s l
  rw [told] at agrees
  obtain ⟨state, cause, owed, quiet, marks, rounds, -⟩ := x.tell_kept shown
  by_cases hs : x.state = .settling
  · obtain ⟨leaves, stays⟩ := Lane.agrees_takeCopy_of_settling agrees (state.trans hs) (marks.trans_le (hm hs))
    have exits := Lane.exits_countMarkCopy_iff copy hs (hm hs)
    rw [Lane.tell_marksAfter, owed, quiet] at leaves stays
    rw [cause, rounds] at stays
    refine ⟨fun h => leaves (exits.mp h), fun h => ?_⟩
    rw [if_pos hs, hs]
    exact stays (fun he => absurd (exits.mpr he) (by simp [h]))
  · have stands := Lane.agrees_takeCopy_of_not_settling agrees (fun h => hs (state.symm.trans h))
    rw [state, cause, rounds, quiet, marks] at stands
    refine ⟨fun h => absurd h (by simp [Lane.exits_of_not_settling copy hs]), fun _ => ?_⟩
    rw [if_neg hs]
    exact stands

/-- The events of a mark close (R51, R183). -/
theorem takeMarks_mgmt (a b : MarkReading) (leadInFirst : Bool) (s : State) :
    let told := fun (l : LaneId) (v : State) =>
      if ((s.lanes.get l).countMarkCopy (s.copyOf a b l)).exits then giveEvent (.laneChanged l .settling .clear none) v else v
    (takeMarks a b leadInFirst s).mgmt = (told .b (told .a s)).mgmt := by
  intro told
  let u := marksTold a b s
  obtain ⟨clock, -, -, -, mgmt⟩ := marksTold_frame a b s
  have lane : ∀ l v, tellExit l (s.copyOf a b l) (u.lanes.get l) v = told l v := by
    intro l v
    obtain ⟨shown, e⟩ := marksTold_lane a b s l
    unfold tellExit
    rw [show u.lanes.get l = _ from e, Lane.exits_tell]
  rw [takeMarks_eq, closeMark_mgmt]
  change (tellExit .b _ (u.lanes.get .b) (tellExit .a _ (u.lanes.get .a) u)).mgmt = _
  rw [← lane .a, ← lane .b]
  refine tellExit_mgmt_congr _ _ _ ?_ (tellExit_mgmt_congr _ _ _ ?_ mgmt)
  · rw [tellExit_round, tellExit_round, clock]
  · rw [clock]

/-! ### The statement -/

theorem exec_markClose {s : State} (a b : MarkReading) (leadInFirst : Bool) (hs : s.holding = false) (h : s.due 0 = true) :
    exec (.markClose a b leadInFirst) s = .next (takeMarks a b leadInFirst (atEvent 0 s)) := running_fieldEvent_of_due _ hs h

theorem atEvent_mark_notices (s : State) : (atEvent 0 s).notices = s.notices := reach_notices_of_before_bodyEnd (r := 800) (by decide)

/-- The clock after a mark close (R12). -/
theorem takeMarks_clock (a b : MarkReading) (leadInFirst : Bool) (s : State) :
    let valid := (s.copyOf a b .a).isValid || (s.copyOf a b .b).isValid
    (takeMarks a b leadInFirst s).clock = { s.clock with
      validCount := if valid then min 255 (s.clock.validCount + 1) else 0, pacing := s.clock.pacing && (valid || !s.clock.drove),
      lateWindow := false } := by
  intro valid
  rw [takeMarks_eq, closeMark_clock, mergeMarks_isValid]
  rfl

theorem atEvent_drove (k : Nat) (s : State) : (atEvent k s).clock.drove = s.clock.drove := reach_drove _ s

/-- The controller of a station that is not LISTENING, and its table, stand at a mark close. -/
theorem takeMarks_of_not_listening {s : State} (a b : MarkReading) (leadInFirst : Bool) (h : s.ctrl.mode ≠ .listening) :
    (takeMarks a b leadInFirst s).ctrl = s.ctrl ∧ (takeMarks a b leadInFirst s).table = s.table := by
  obtain ⟨-, ctrl, table, -⟩ := marksTold_frame a b s
  have stands := closeMark_of_not_listening (s := marksTold a b s) (s.copyOf a b .a) (s.copyOf a b .b) leadInFirst (by rwa [ctrl])
  rw [ctrl, table] at stands
  exact stands

theorem State.lockLearning_congr {s t : State} (h : t.ctrl = s.ctrl) : t.lockLearning = s.lockLearning := by
  unfold State.lockLearning State.station contextRuns
  rw [h]

/-- Learning as the lock begins it, in the words of the statement. -/
theorem State.lockLearning_eq (s : State) :
    let context := if s.ctrl.context.valid then s.ctrl.context.records else []
    s.lockLearning = {
      epoch := none, rounds := 0
      carried := context.map (fun r => { run := r.run, tag := r.tag, pending := false, broken := false })
      table := (List.range 24).map (fun n =>
        match context.find? (fun r => decide (r.run.first ≤ n ∧ n < r.run.first + r.run.count)) with
        | some r => { use := .owned s.ctrl.option.station r.tag, carried := true }
        | none => { use := .unknown, carried := false }) } := by
  intro context
  unfold State.lockLearning
  rw [contextRuns_eq, carryRuns_unknown]
  rfl

/-- The controller of a LISTENING station at a mark close, and its learning table (R66, R165). -/
theorem takeMarks_of_listening {s : State} (a b : MarkReading) (leadInFirst : Bool) (h : s.ctrl.mode = .listening) :
    let t := takeMarks a b leadInFirst s
    let locks := decide (4 ≤ t.clock.validCount) && s.ctrl.lockTaken == some false
    t.ctrl = s.ctrl.listens ((s.copyOf a b .a).isValid || (s.copyOf a b .b).isValid) locks
    ∧ t.table = if locks then { s.table with learning := some s.lockLearning } else s.table := by
  intro t locks
  obtain ⟨-, ctrl, table, -⟩ := marksTold_frame a b s
  have learning : (marksTold a b s).lockLearning = s.lockLearning := State.lockLearning_congr ctrl
  have heard := closeMark_of_listening (s := marksTold a b s) (s.copyOf a b .a) (s.copyOf a b .b) leadInFirst (by rwa [ctrl])
  rw [← takeMarks_eq, mergeMarks_isValid, ctrl, table, learning] at heard
  exact heard

/-- The lead-in at a mark close (R25, R84). -/
theorem takeMarks_leadIn (a b : MarkReading) (leadInFirst : Bool) (s : State) :
    let t := takeMarks a b leadInFirst s
    let usable := fun (l : LaneId) => if leadInFirst then (s.lanes.get l).transmitUsable else (t.lanes.get l).transmitUsable
    let contends := fun (l : LaneId) => s.ctrl.mode == .joined && s.notices.flight.isSome && usable l
    (∀ l : LaneId, (t.lanes.get l).drive = if contends l then .contending else .notDriving)
    ∧ t.drive.content = (if contends .a || contends .b then .leadIn .noticeWindow else .none)
    ∧ t.drive.leadIn = (if contends .a || contends .b then s.notices.flight.map (fun f => f.leadIn) else none) := by
  obtain ⟨-, ctrl, -, notices, -⟩ := marksTold_frame a b s
  have driven := closeMark_leadIn (s.copyOf a b .a) (s.copyOf a b .b) leadInFirst (marksTold a b s)
  simp only [marksTold_transmitUsable, ctrl, notices] at driven
  exact driven

/-- What a mark close leaves alone. -/
theorem takeMarks_aside (a b : MarkReading) (leadInFirst : Bool) (s : State) :
    let t := takeMarks a b leadInFirst s
    t.ctrl.mode = s.ctrl.mode ∧ t.notices = s.notices ∧ t.send = s.send ∧ t.repair = s.repair ∧ t.recv = s.recv
    ∧ t.hold = s.hold ∧ t.pending = s.pending := by
  simp [takeMarks_eq, marksTold]

/-- Settles O19: the copies, and the mark close through what it leaves of the clock, the controller, the drive and each lane. -/
theorem markCloseCountsMarks : Obligations.MarkCloseCountsMarks := by
  refine ⟨markCopy_isValid_iff, fun a b leadInFirst s hs hdue => ?_⟩
  intro u accepted valid count context
  let t := takeMarks a b leadInFirst u
  have hu : u.ctrl = s.ctrl ∧ u.table = s.table ∧ u.notices = s.notices := by
    simp [u, atEvent_mark_notices]
  obtain ⟨ctrl, table, notices⟩ := hu
  have clock : t.clock = { u.clock with
      validCount := count, pacing := s.clock.pacing && (valid || !s.clock.drove), lateWindow := false } := by
    refine (takeMarks_clock a b leadInFirst u).trans ?_
    rw [show u.clock.validCount = s.clock.validCount by simp [u], show u.clock.pacing = s.clock.pacing by simp [u],
      show u.clock.drove = s.clock.drove from atEvent_drove 0 s]
    rfl
  have listens : s.ctrl.mode = .listening →
      let locks := decide (4 ≤ count) && s.ctrl.lockTaken == some false
      t.ctrl = s.ctrl.listens valid locks
      ∧ t.table = if locks then { s.table with learning := some s.lockLearning } else s.table := fun h => by
    have heard := takeMarks_of_listening (s := u) a b leadInFirst (by rwa [ctrl])
    have counted : (takeMarks a b leadInFirst u).clock.validCount = count := congrArg Clock.validCount clock
    dsimp only at heard
    rw [State.lockLearning_congr ctrl, ctrl, table, counted] at heard
    exact heard
  obtain ⟨mode, engine, send, repair, recv, hold, pending⟩ := takeMarks_aside a b leadInFirst u
  obtain ⟨drive, content, leadIn⟩ := takeMarks_leadIn a b leadInFirst u
  rw [ctrl, notices] at drive content leadIn
  refine ⟨t, exec_markClose a b leadInFirst hs hdue, clock, fun h => ?_, fun h => ?_, fun h hn => ?_, fun h hc hl => ?_,
    ⟨fun l => ⟨drive l, (closeMark_begun _ _ _ _ l).1⟩, content, leadIn⟩,
    mode.trans (by rw [ctrl]), engine, send.trans (by simp [u]), repair.trans (by simp [u]), recv.trans (by simp [u]),
    hold.trans (by simp [u]), pending.trans (by simp [u]), fun hm => ?_⟩
  · obtain ⟨c, d⟩ := takeMarks_of_not_listening (s := u) a b leadInFirst (by rwa [ctrl])
    exact ⟨c.trans ctrl, d.trans table⟩
  · obtain ⟨c, -⟩ := listens h
    rw [c]
    rfl
  · obtain ⟨c, d⟩ := listens h
    rw [show (decide (4 ≤ count) && s.ctrl.lockTaken == some false) = false by simpa using hn] at c d
    rw [c, d]
    exact ⟨rfl, rfl⟩
  · obtain ⟨c, d⟩ := listens h
    rw [show (decide (4 ≤ count) && s.ctrl.lockTaken == some false) = true by simp [hc, hl]] at c d
    rw [c, d, State.lockLearning_eq]
    exact ⟨rfl, rfl⟩
  · intro copied marks exits told
    have leaves : ∀ l, ((u.lanes.get l).countMarkCopy (u.copyOf a b l)).exits = exits l :=
      fun l => Lane.exits_countMarkCopy (u.copyOf a b l) (hm l)
    refine ⟨?_, fun l => ?_⟩
    · have events := takeMarks_mgmt a b leadInFirst u
      simp only [leaves] at events
      exact events
    · intro x y
      obtain ⟨cleared, stands⟩ := takeMarks_lane_spec a b leadInFirst l (hm l)
      rw [leaves] at cleared stands
      refine ⟨cleared, fun h => ?_⟩
      obtain ⟨state, cause, rounds, quiet, count⟩ := stands h
      refine ⟨state, cause, rounds, quiet, count.trans ?_⟩
      split
      · next hx => exact Lane.marksAfter_of_le _ (hm l hx)
      · rfl

end Sys2Proof.Machine
end

section
/-! PROOF LAYER. The entry of a lane into SURGE (R43, R44, R46, R54, R132): what it makes of the lane, and what it leaves of the rest. -/

namespace Sys2Proof.Machine

open Sys2Proof

/-! ### The latch of SURGE (R185) -/

@[simp] theorem Management.push_latched (m : Management) (r : EventRecord) : (m.push r).latched = m.latched := by
  unfold Management.push
  split <;> rfl

@[simp] theorem giveEvent_latched (e : Event) (s : State) :
    (giveEvent e s).mgmt.latched = s.mgmt.latched.union e.latches := by
  simp [giveEvent]

/-- SURGE stays latched through any event (R185). -/
theorem giveEvent_surge_latched {s : State} (e : Event) (h : s.mgmt.latched.surge = true) :
    (giveEvent e s).mgmt.latched.surge = true := by
  simp [Causes.union, h]

/-- What the end of a flight and a change of mode leave: a latched SURGE, the lanes once the repair turn has ended, and its end. -/
def State.TurnOver (lanes : PerLane Lane) (s : State) : Prop :=
  s.mgmt.latched.surge = true ∧ s.repair.turn = false ∧ s.lanes = lanes

theorem giveEvent_turnOver {lanes : PerLane Lane} {s : State} (e : Event) (h : s.TurnOver lanes) : (giveEvent e s).TurnOver lanes :=
  ⟨giveEvent_surge_latched e h.1, h.2⟩

theorem withdrawnEnds_turnOver {lanes : PerLane Lane} {s : State} (q : Queued) (o : OutcomeRecord) (h : s.TurnOver lanes) :
    (withdrawnEnds q o s).TurnOver lanes := by
  unfold withdrawnEnds
  split
  · unfold claimNotCommitted
    split
    · exact giveEvent_turnOver _ h
    all_goals exact h
  · exact h

theorem endFlightLost_turnOver {lanes : PerLane Lane} {s : State} (h : s.TurnOver lanes) : (endFlightLost s).TurnOver lanes := by
  unfold endFlightLost
  split
  · exact h
  · split
    · exact withdrawnEnds_turnOver _ _ h
    · exact h

theorem endFlightOnLeaving_turnOver {lanes : PerLane Lane} {s : State} (h : s.TurnOver lanes) :
    (endFlightOnLeaving s).TurnOver lanes := by
  unfold endFlightOnLeaving
  split
  · simpa [State.TurnOver, dropPlan] using h
  · exact endFlightLost_turnOver h

theorem dropTurn_of_over {s : State} (h : s.repair.turn = false) : dropTurn s = s := by
  simp [dropTurn, h]

theorem enterDark_turnOver {lanes : PerLane Lane} {s : State} (back : Mode) (h : s.TurnOver lanes) :
    (enterDark back s).TurnOver lanes := by
  have ended : (endFlightOnLeaving (discardLearning s)).TurnOver lanes := endFlightOnLeaving_turnOver (s := discardLearning s) h
  have changed : (changeMode .dark .darkOnset (endFlightOnLeaving (discardLearning s))).TurnOver lanes := by
    unfold changeMode
    rw [dropTurn_of_over ended.2.1, ite_self]
    exact giveEvent_turnOver _ ended
  exact changed

theorem darkOnset_turnOver {lanes : PerLane Lane} {s : State} (h : s.TurnOver lanes) : (darkOnset s).TurnOver lanes := by
  unfold darkOnset
  split
  iterate 3 exact enterDark_turnOver _ h
  iterate 3 exact h

/-! ### The repair turn (R132) -/

@[simp] theorem Lane.cutDrive_state (x : Lane) : x.cutDrive.state = x.state := by
  unfold Lane.cutDrive
  split <;> rfl

@[simp] theorem Lane.cutDrive_hold (x : Lane) : x.cutDrive.hold = x.hold := by
  unfold Lane.cutDrive
  split <;> rfl

@[simp] theorem Lane.transmitUsable_cutDrive (x : Lane) : x.cutDrive.transmitUsable = x.transmitUsable := by
  simp [Lane.transmitUsable]

theorem Lane.cutDrive_of_idle {x : Lane} (h : ¬ x.Drives) : x.cutDrive = x := by
  simp_all [Lane.cutDrive, Lane.Drives]

/-- Where some lane is transmit-usable the turn lasts, and nothing changes. -/
theorem dropTurnIfMute_of_any {s : State} (h : s.lanes.any Lane.transmitUsable = true) : dropTurnIfMute s = s := by
  simp [dropTurnIfMute, h]

theorem dropTurnIfMute_of_mute {s : State} (h : s.lanes.any Lane.transmitUsable = false) : dropTurnIfMute s = dropTurn s := by
  simp [dropTurnIfMute, h]

/-- The end of a repair turn: the lanes stand, but for a re-send that is cut (R132). -/
theorem dropTurn_lanes_get (s : State) (l : LaneId) :
    (dropTurn s).lanes.get l = s.lanes.get l ∨ (dropTurn s).lanes.get l = (s.lanes.get l).cutDrive := by
  unfold dropTurn
  split
  · dsimp only
    split
    · exact .inr (PerLane.get_map _ _ _)
    · exact .inl rfl
  · exact .inl rfl

theorem dropTurn_turn (s : State) : (dropTurn s).repair.turn = false := by
  unfold dropTurn
  split
  · rfl
  · next h => exact Bool.eq_false_iff.mpr h

/-- What the end of a turn writes: the lanes and the turn. -/
theorem dropTurnIfMute_eq (s : State) : dropTurnIfMute s =
    { s with lanes := (dropTurnIfMute s).lanes, repair := { s.repair with turn := (dropTurnIfMute s).repair.turn } } := by
  unfold dropTurnIfMute dropTurn
  split
  · rfl
  · split <;> rfl

theorem dropTurnIfMute_lanes_get (s : State) (l : LaneId) :
    (dropTurnIfMute s).lanes.get l = s.lanes.get l ∨ (dropTurnIfMute s).lanes.get l = (s.lanes.get l).cutDrive := by
  unfold dropTurnIfMute
  split
  · exact .inl rfl
  · exact dropTurn_lanes_get s l

@[simp] theorem dropTurnIfMute_lane_state (s : State) (l : LaneId) :
    ((dropTurnIfMute s).lanes.get l).state = (s.lanes.get l).state := by
  rcases dropTurnIfMute_lanes_get s l with h | h <;> simp [h]

@[simp] theorem dropTurnIfMute_transmitUsable (s : State) (l : LaneId) :
    ((dropTurnIfMute s).lanes.get l).transmitUsable = (s.lanes.get l).transmitUsable := by
  rcases dropTurnIfMute_lanes_get s l with h | h <;> simp [h]

/-- The turn lasts while some lane is transmit-usable (R132). -/
theorem dropTurnIfMute_turn (s : State) :
    (dropTurnIfMute s).repair.turn = (s.repair.turn && s.lanes.any Lane.transmitUsable) := by
  cases h : s.lanes.any Lane.transmitUsable
  · rw [dropTurnIfMute_of_mute h, dropTurn_turn, Bool.and_false]
  · rw [dropTurnIfMute_of_any h, Bool.and_true]

/-- While the turn stands as it was, so do the lanes. -/
theorem dropTurnIfMute_lanes_of_turn {s : State} (h : (dropTurnIfMute s).repair.turn = s.repair.turn) :
    (dropTurnIfMute s).lanes = s.lanes := by
  cases any : s.lanes.any Lane.transmitUsable
  · rw [dropTurnIfMute_of_mute any] at h ⊢
    rw [dropTurn_of_over (h.symm.trans (dropTurn_turn s))]
  · rw [dropTurnIfMute_of_any any]

/-! ### The DARK condition (R54) -/

/-- The DARK condition reads the states of the lanes alone. -/
theorem darkCondition_congr {x y : PerLane Lane} (h : ∀ l, (x.get l).state = (y.get l).state) :
    darkCondition x = darkCondition y := by
  have ha : x.a.state = y.a.state := h .a
  have hb : x.b.state = y.b.state := h .b
  simp only [darkCondition, Lane.enabled, ha, hb]

/-- With one lane in SURGE the DARK condition holds unless the other is enabled and out of SURGE. -/
theorem darkCondition_of_surge {x : PerLane Lane} {l : LaneId} (h : (x.get l).state = .surge) :
    darkCondition x = (!(x.get (otherLane l)).enabled || (x.get (otherLane l)).state == .surge) := by
  cases l
  all_goals
    simp only [PerLane.get, otherLane] at h ⊢
    simp [darkCondition, Lane.enabled, h]

/-- No lane is transmit-usable under the DARK condition. -/
theorem mute_of_darkCondition {x : PerLane Lane} (h : darkCondition x = true) : x.any Lane.transmitUsable = false := by
  have surges : ∀ y : Lane, (!y.enabled || y.state == .surge) = true → y.transmitUsable = false := by
    intro y hy
    cases hs : y.state <;> simp_all [Lane.enabled, Lane.transmitUsable]
  simp only [darkCondition, Bool.and_eq_true] at h
  obtain ⟨⟨_, ha⟩, hb⟩ := h
  simp [PerLane.any, surges _ ha, surges _ hb]

/-! ### Entry into SURGE -/

theorem otherLane_ne (l : LaneId) : otherLane l ≠ l := by
  cases l <;> decide

theorem eq_otherLane_of_ne {k l : LaneId} (h : k ≠ l) : k = otherLane l := by
  cases k <;> cases l <;> first | rfl | exact absurd rfl h

/-- The station as lane `l` has entered SURGE and LANE_CHANGED is given, before the rest of it meets the change. -/
def surged (l : LaneId) (cause : SurgeCause) (s : State) : State :=
  giveEvent (.laneChanged l (s.lanes.get l).state .surge (some cause)) (s.mapLane l (Lane.surge cause s.clock.timer))

theorem surged_lane (l : LaneId) (cause : SurgeCause) (s : State) :
    (surged l cause s).lanes.get l = (s.lanes.get l).surge cause s.clock.timer := by
  simp [surged]

theorem surged_other (l : LaneId) (cause : SurgeCause) (s : State) :
    (surged l cause s).lanes.get (otherLane l) = s.lanes.get (otherLane l) := by
  simp [surged, PerLane.get_set_of_ne _ _ (otherLane_ne l)]

/-- The DARK condition never ends at an entry into SURGE: the repair turn is judged, and DARK may begin (R54, R132). -/
theorem enterSurge_eq (l : LaneId) (cause : SurgeCause) (s : State) :
    enterSurge l cause s =
      if !darkCondition s.lanes && darkCondition (surged l cause s).lanes then darkOnset (dropTurnIfMute (surged l cause s))
      else dropTurnIfMute (surged l cause s) := by
  have dark : darkCondition (dropTurnIfMute (surged l cause s)).lanes = darkCondition (surged l cause s).lanes :=
    darkCondition_congr (dropTurnIfMute_lane_state _)
  have stays : darkCondition s.lanes = true → darkCondition (surged l cause s).lanes = true := by
    intro h
    rw [darkCondition_of_surge (l := l) (by rw [surged_lane]; rfl), surged_other]
    simp only [darkCondition, Bool.and_eq_true] at h
    cases l
    · exact h.2
    · exact h.1.2
  change laneChanged (darkCondition s.lanes) (surged l cause s) = _
  unfold laneChanged
  simp only [dark]
  cases hs : darkCondition s.lanes
  · rfl
  · simp [stays hs]

theorem surged_latched {l : LaneId} {s : State} (cause : SurgeCause) (h : (s.lanes.get l).state ≠ .surge) :
    (surged l cause s).mgmt.latched.surge = true := by
  simp [surged, Causes.union, Event.latches, h]

/-- Whether DARK begins or not, SURGE is latched, and the lanes and the repair turn are those that the end of the turn leaves. -/
theorem enterSurge_turn {l : LaneId} {s : State} (cause : SurgeCause) (h : (s.lanes.get l).state ≠ .surge) :
    let v := dropTurnIfMute (surged l cause s)
    let t := enterSurge l cause s
    t.mgmt.latched.surge = true ∧ t.repair.turn = v.repair.turn ∧ t.lanes = v.lanes := by
  intro v t
  have latched : v.mgmt.latched.surge = true := by simp [v, surged_latched cause h]
  have e : t = if !darkCondition s.lanes && darkCondition (surged l cause s).lanes then darkOnset v else v := enterSurge_eq l cause s
  by_cases onset : (!darkCondition s.lanes && darkCondition (surged l cause s).lanes) = true
  · have ended : v.repair.turn = false := by
      simp only [Bool.and_eq_true] at onset
      rw [dropTurnIfMute_turn, mute_of_darkCondition onset.2, Bool.and_false]
    rw [e, if_pos onset, ended]
    exact darkOnset_turnOver ⟨latched, ended, rfl⟩
  · rw [e, if_neg onset]
    exact ⟨latched, rfl, rfl⟩

/-- While the other lane is enabled and out of SURGE, DARK does not begin (R54). -/
theorem enterSurge_of_bright {l : LaneId} {s : State} (cause : SurgeCause) (he : (s.lanes.get (otherLane l)).enabled = true)
    (hs : (s.lanes.get (otherLane l)).state ≠ .surge) : enterSurge l cause s = dropTurnIfMute (surged l cause s) := by
  have bright : darkCondition (surged l cause s).lanes = false := by
    rw [darkCondition_of_surge (l := l) (by rw [surged_lane]; rfl), surged_other, he]
    simpa using hs
  rw [enterSurge_eq, bright, Bool.and_false]
  rfl

/-- What an entry into SURGE makes of a lane, and of the fields that it names no more of (R43, R46). -/
theorem Lane.surge_spec (cause : SurgeCause) (t : Nat) (x : Lane) :
    Lane.EntersSurge cause x (x.surge cause t) ∧ (x.surge cause t).violations = x.violationsCut
    ∧ (x.surge cause t).measuring = x.measuring ∧ (x.surge cause t).run = x.run ∧ (x.surge cause t).dominant = x.dominant := by
  by_cases h : x.Drives
  · have cuts : (x.drive == .contending || x.drive == .driving) = true := by simpa [Lane.Drives] using h
    simp [Lane.surge, Lane.EntersSurge, Lane.violationsCut, Lane.cutDrive, Lane.countViolations, cuts, h]
  · have stays : (x.drive == .contending || x.drive == .driving) = false := by simpa [Lane.Drives] using h
    simp [Lane.surge, Lane.EntersSurge, Lane.violationsCut, stays, h]

theorem Lane.surge_not_drives (cause : SurgeCause) (t : Nat) (x : Lane) : ¬ (x.surge cause t).Drives := by
  obtain ⟨⟨_, _, _, _, _, _, _, _, _, drive⟩, _⟩ := x.surge_spec cause t
  by_cases h : x.Drives
  · simp [Lane.Drives, drive, h]
  · rw [if_neg h] at drive
    rwa [Lane.Drives, drive]

/-- The lane that enters SURGE; the end of a repair turn finds no drive there to cut. -/
theorem enterSurge_lane {l : LaneId} {s : State} (cause : SurgeCause) (h : (s.lanes.get l).state ≠ .surge) :
    (enterSurge l cause s).lanes.get l = (s.lanes.get l).surge cause s.clock.timer := by
  rw [(enterSurge_turn cause h).2.2]
  rcases dropTurnIfMute_lanes_get (surged l cause s) l with e | e
  · rw [e, surged_lane]
  · rw [e, surged_lane, Lane.cutDrive_of_idle (Lane.surge_not_drives _ _ _)]

/-- The other lane stands, but for a re-send that ends with the repair turn. -/
theorem enterSurge_other {l : LaneId} {s : State} (cause : SurgeCause) (h : (s.lanes.get l).state ≠ .surge) :
    (enterSurge l cause s).lanes.get (otherLane l) = s.lanes.get (otherLane l)
    ∨ (enterSurge l cause s).lanes.get (otherLane l) = (s.lanes.get (otherLane l)).cutDrive := by
  rw [(enterSurge_turn cause h).2.2, ← surged_other l cause s]
  exact dropTurnIfMute_lanes_get _ _

theorem PerLane.any_eq_get {α : Type} (f : α → Bool) (x : PerLane α) : x.any f = (f (x.get .a) || f (x.get .b)) := rfl

/-- What an entry of lane `l` into SURGE leaves of the station, whatever its command wrote before on that lane. -/
theorem enterSurge_surgesOn {l : LaneId} {u : State} (cause : SurgeCause) (f : Lane → Lane)
    (hf : (f (u.lanes.get l)).state = (u.lanes.get l).state) (h : (u.lanes.get l).state ≠ .surge) :
    State.SurgesOn l (u.lanes.get l).state cause u (enterSurge l cause (u.mapLane l f)) := by
  have state : ((u.mapLane l f).lanes.get l).state = (u.lanes.get l).state := by simp [hf]
  have other : (u.mapLane l f).lanes.get (otherLane l) = u.lanes.get (otherLane l) := by
    simp [PerLane.get_set_of_ne _ _ (otherLane_ne l)]
  obtain ⟨latched, turn, lanes⟩ := enterSurge_turn (s := u.mapLane l f) cause (by rwa [state])
  have bright := enterSurge_of_bright (l := l) (s := u.mapLane l f) cause
  rw [other] at bright
  have mgmt : (surged l cause (u.mapLane l f)).mgmt = (giveEvent (.laneChanged l (u.lanes.get l).state .surge (some cause)) u).mgmt := by
    unfold surged
    rw [state]
    rfl
  refine ⟨latched, ?_, ?_, fun same => ?_, fun he hs => ?_⟩
  · rintro ⟨k, he, hs, ht⟩
    have hk : k = otherLane l := eq_otherLane_of_ne (fun hk => ht (by rw [hk, enterSurge_lane cause (by rwa [state])]; rfl))
    subst hk
    rw [bright he hs, dropTurnIfMute_eq]
    rfl
  · rw [turn, lanes, dropTurnIfMute_turn, PerLane.any_eq_get, ← dropTurnIfMute_transmitUsable _ .a,
      ← dropTurnIfMute_transmitUsable _ .b]
    rfl
  · have kept := dropTurnIfMute_lanes_of_turn (s := surged l cause (u.mapLane l f)) (turn.symm.trans same)
    rw [lanes, kept, surged_other, other]
  · rw [bright he hs, ← mgmt]
    simp

end Sys2Proof.Machine
end

section
/-! PROOF LAYER. The lead-in ticks of the station, read back (R23, R26, R27). -/

namespace Sys2Proof.Machine

open Sys2Proof

/-! ### The front end that contends -/

/-- A lane contends in the lead-in with the bit: the field is being contended for, and the value has the bit at the tick. -/
theorem State.contendsWith_iff {u : State} {field : LeadInField} {tick : Fin 7} {l : LaneId} {bit : Bool} :
    u.contendsWith field tick l bit = true ↔ (u.drive.content = .leadIn field ∧ (u.lanes.get l).drive = .contending)
      ∧ ∃ v, u.drive.leadIn = some v ∧ v.getLsbD (6 - tick.val) = bit := by
  unfold State.contendsWith leadInBit
  cases u.drive.leadIn <;> simp

/-- A bit that the value does not have at the tick is not contended with. -/
theorem State.contendsWith_of_other_bit {u : State} {field : LeadInField} {tick : Fin 7} {l : LaneId} {bit : Bool} {v : BitVec 7}
    (hv : u.drive.leadIn = some v) (h : v.getLsbD (6 - tick.val) = !bit) : u.contendsWith field tick l bit = false := by
  rw [Bool.eq_false_iff]
  intro hc
  obtain ⟨_, w, hw, hb⟩ := State.contendsWith_iff.mp hc
  obtain rfl : v = w := Option.some.inj (hv.symm.trans hw)
  exact Bool.not_ne_self bit (h.symm.trans hb)

theorem Lane.withdraw_of_contending {x : Lane} (h : x.drive = .contending) : x.withdraw = { x with drive := .withdrawn } := by
  simp [Lane.withdraw, h]

theorem Lane.withdraw_drive_ne (x : Lane) : x.withdraw.drive ≠ .contending := by
  unfold Lane.withdraw
  split
  · exact fun h => nomatch h
  · next h => simpa using h

theorem Lane.cutDrive_drive_ne {x : Lane} (h : x.drive ≠ .contending) : x.cutDrive.drive ≠ .contending := by
  unfold Lane.cutDrive
  split
  · exact fun h => nomatch h
  · exact h

theorem Lane.surge_drive_ne (cause : SurgeCause) (t : Nat) (x : Lane) : (x.surge cause t).drive ≠ .contending :=
  fun h => x.surge_not_drives cause t (.inl h)

/-! ### The lane that the sample shows dominant (R41) -/

/-- A sample of 20 dominant units shows an enabled lane at least so long dominant (R41). -/
theorem Lane.tell_dominantFor_20 (x : Lane) :
    x.tell (.dominantFor 20)
      = if x.state ≠ .off ∧ x.run < 20 then { x with run := 20, dominant := true, reported := .none } else x := by
  by_cases h : x.state ≠ .off ∧ x.run < 20
  · have short : (x.enabled && decide (x.run < 20)) = true := by simpa [Lane.enabled] using h
    have ne : 20 ≠ x.run := by omega
    rw [if_pos h, show x.tell (.dominantFor 20) = x.readRun 20 from if_pos short]
    simp [Lane.readRun, ne, Config.heldRun, Config.longRun]
  · have long : (x.enabled && decide (x.run < 20)) = false := by simpa [Lane.enabled] using h
    rw [if_neg h]
    exact if_neg (Bool.eq_false_iff.mp long)

/-! ### The two commands -/

theorem exec_arbitrationLoss {field : LeadInField} {tick : Fin 7} {l : LaneId} {s : State} (hs : s.holding = false)
    (hr : s.reaches (s.sampledAt field tick l) = true) :
    let u := reach (s.sampledAt field tick l) s
    exec (.arbitrationLoss field tick l) s
      = .next (if u.contendsWith field tick l true then withdrawAll (u.mapLane l (Lane.tell (.dominantFor 20))) else u) := by
  change running (dated _ _) s = _
  rw [running_of_free hs, dated_of_reaches _ hr]

theorem exec_driveFault {field : LeadInField} {tick : Fin 7} {l : LaneId} {s : State} (hs : s.holding = false)
    (hr : s.reaches (s.sampledAt field tick l) = true) :
    let u := reach (s.sampledAt field tick l) s
    exec (.driveFault field tick l) s = .next (if u.contendsWith field tick l false then driveFaultOn l u else u) := by
  change running (dated _ _) s = _
  rw [running_of_free hs, dated_of_reaches _ hr]

/-- The station after an echo mismatch in its lead-in, before policy FAULT is asked: one mismatch is counted on the lane, which was read
passive, and every front end withdraws (R26, R27, R41). -/
def faultCounted (l : LaneId) (u : State) : State := withdrawAll (u.mapLane l (fun x => (x.countViolations 1).endRun))

theorem faultCounted_lane (l k : LaneId) (u : State) :
    (faultCounted l u).lanes.get k = (if k = l then ((u.lanes.get l).countViolations 1).endRun else u.lanes.get k).withdraw := by
  unfold faultCounted withdrawAll
  rw [PerLane.get_map]
  split
  · next h => simp [h]
  · next h => simp [PerLane.get_set_of_ne _ _ h]

theorem faultCounted_not_contending (l k : LaneId) (u : State) : ((faultCounted l u).lanes.get k).drive ≠ .contending := by
  rw [faultCounted_lane]
  exact Lane.withdraw_drive_ne _

/-- The lane of a drive fault: read passive, counted once, and withdrawn. -/
theorem faultCounted_same {l : LaneId} {u : State} (h : (u.lanes.get l).drive = .contending) :
    (faultCounted l u).lanes.get l = { u.lanes.get l with
      violations := min 255 ((u.lanes.get l).violations + 1), run := 0, dominant := false, reported := .none,
      drive := .withdrawn } := by
  rw [faultCounted_lane, if_pos rfl, Lane.withdraw_of_contending (x := ((u.lanes.get l).countViolations 1).endRun) h]
  rfl

/-- Under policy FAULT a CLEAR or SUSPECT lane enters SURGE at a drive fault, under policy ARB none does (R27). -/
theorem driveFaultOn_eq {l : LaneId} {u : State} (h : (u.lanes.get l).drive = .contending) :
    driveFaultOn l u = if u.ctrl.option.policy = .fault ∧ ((u.lanes.get l).state = .clear ∨ (u.lanes.get l).state = .suspect)
      then enterSurge l .drive (faultCounted l u) else faultCounted l u := by
  change (if _ then _ else _) = _
  have state : ((faultCounted l u).lanes.get l).state = (u.lanes.get l).state := by rw [faultCounted_same h]
  refine if_congr ?_ rfl rfl
  simp only [Bool.and_eq_true, Bool.or_eq_true, beq_iff_eq]
  rw [show ((withdrawAll (u.mapLane l (fun x => (x.countViolations 1).endRun))).lanes.get l).state = _ from state]
  rfl

/-- A drive fault under policy FAULT on a CLEAR or SUSPECT lane (R27, R43, R44, R46): its drive, withdrawn, is not cut or counted again. -/
theorem driveFault_surges {l : LaneId} {u : State} (hd : (u.lanes.get l).drive = .contending)
    (hs : (u.lanes.get l).state ≠ .surge) :
    let x := u.lanes.get l
    let t := enterSurge l .drive (faultCounted l u)
    Lane.EntersSurge .drive { x with drive := .withdrawn } (t.lanes.get l)
    ∧ (t.lanes.get l).violations = min 255 (x.violations + 1) ∧ (t.lanes.get l).run = 0 ∧ (t.lanes.get l).dominant = false
    ∧ (∀ k : LaneId, (t.lanes.get k).drive ≠ .contending) ∧ t.drive.lost = true
    ∧ State.SurgesOn l x.state .drive (faultCounted l u) t := by
  intro x t
  have counted := faultCounted_same hd
  have state : ((faultCounted l u).lanes.get l).state = x.state := by rw [counted]
  have ne : ((faultCounted l u).lanes.get l).state ≠ .surge := by rwa [state]
  have lane := enterSurge_lane .drive ne
  obtain ⟨enters, violations, _, run, dominant⟩ :=
    Lane.surge_spec .drive (faultCounted l u).clock.timer ((faultCounted l u).lanes.get l)
  rw [← lane, counted] at enters violations run dominant
  have aside := enterSurge_surgesOn (u := faultCounted l u) .drive id rfl ne
  rw [state, State.mapLane, id, PerLane.set_get] at aside
  refine ⟨enters, violations, run, dominant, fun k => ?_, by simp [t, faultCounted], aside⟩
  by_cases hk : k = l
  · rw [hk, lane]
    exact Lane.surge_drive_ne _ _ _
  · obtain rfl := eq_otherLane_of_ne hk
    rcases enterSurge_other .drive ne with h | h
    · rw [h]
      exact faultCounted_not_contending _ _ _
    · rw [h]
      exact Lane.cutDrive_drive_ne (faultCounted_not_contending _ _ _)

/-- Settles O21: the tick that the station left passive, and the one that it drove dominant. -/
theorem leadInReadBackWithdraws : Obligations.LeadInReadBackWithdraws := by
  intro field tick l s hs start sampled u x contends withdrawn counted told usable
  have at_sample : s.sampledAt field tick l = sampled := by cases field <;> rfl
  have hctrl : u.ctrl = s.ctrl := by simp [u]
  have loss := exec_arbitrationLoss (field := field) (tick := tick) (l := l) hs
  have fault := exec_driveFault (field := field) (tick := tick) (l := l) hs
  rw [at_sample] at loss fault
  refine ⟨fun hr => ?_, fun hr hc => ?_, fun v hv hr hc => ⟨fun hb => ⟨?_, ?_⟩, fun hb => ⟨?_, fun hp => ?_, fun hp hx => ?_⟩⟩⟩
  · rw [← at_sample] at hr
    exact ⟨running_dated_of_not _ hs hr, running_dated_of_not _ hs hr⟩
  · have apart : ∀ bit, ¬ u.contendsWith field tick l bit = true := fun bit h => hc (State.contendsWith_iff.mp h).1
    exact ⟨(loss hr).trans (by rw [if_neg (apart true)]), (fault hr).trans (by rw [if_neg (apart false)])⟩
  · rw [loss hr, if_pos (State.contendsWith_iff.mpr ⟨hc, v, hv, hb⟩)]
    have tells : u.mapLane l (Lane.tell (.dominantFor 20)) = told := by
      rw [State.mapLane, Lane.tell_dominantFor_20]
      by_cases h : x.state ≠ .off ∧ x.run < 20
      · rw [if_pos h, show told = _ from if_pos h]
      · rw [if_neg h, show told = _ from if_neg h, PerLane.set_get]
    rw [tells]
    rfl
  · rw [fault hr, State.contendsWith_of_other_bit hv hb]
    rfl
  · rw [loss hr, State.contendsWith_of_other_bit hv hb]
    rfl
  · rw [fault hr, if_pos (State.contendsWith_iff.mpr ⟨hc, v, hv, hb⟩), driveFaultOn_eq hc.2, hctrl, if_neg hp]
    rfl
  · refine ⟨enterSurge l .drive (faultCounted l u), ?_, driveFault_surges hc.2 (fun h => ?_)⟩
    · rw [fault hr, if_pos (State.contendsWith_iff.mpr ⟨hc, v, hv, hb⟩), driveFaultOn_eq hc.2, hctrl, if_pos ⟨hp, hx⟩]
    · rcases hx with hx | hx <;> exact nomatch hx.symm.trans h

end Sys2Proof.Machine
end

section
/-! PROOF LAYER. The echo delay of a lane, measured (R24, R41, R43, R49, R51). -/

namespace Sys2Proof.Machine

open Sys2Proof

/-! ### The measured ticks -/

/-- A lead-in tick is dominant where the value has a 0 (R19, R25). -/
theorem leadInLevel_eq_true_iff {v : BitVec 7} {d : Nat} : leadInLevel v d = true ↔ d < 700 ∧ v.getLsbD (6 - d / 100) = false := by
  unfold leadInLevel
  rw [show Config.tickUnits = 100 from rfl]
  simp

/-- The tick of a lead-in that begins `d` units into it is measured if it is driven dominant after 20 units that were left passive (R24). -/
theorem measured_leadIn_iff (v : BitVec 7) (start t : Nat) :
    (start ≤ t ∧ (t - start) % 100 = 0 ∧ leadInLevel v (t - start) = true ∧ (t = start ∨ leadInLevel v (t - start - 1) = false))
      ↔ ∃ k : Fin 7, t = start + 100 * k.val ∧ v.getLsbD (6 - k.val) = false ∧ (k.val = 0 ∨ v.getLsbD (7 - k.val) = true) := by
  have before : ∀ k, 0 < k → k < 7 → (leadInLevel v (100 * k - 1) = false ↔ v.getLsbD (7 - k) = true) := by
    intro k h0 h7
    rw [← Bool.not_eq_true, leadInLevel_eq_true_iff, show (100 * k - 1) / 100 = k - 1 by omega, show 6 - (k - 1) = 7 - k by omega]
    simp only [show 100 * k - 1 < 700 by omega, true_and, Bool.not_eq_false]
  constructor
  · rintro ⟨hle, hmod, hlevel, hfirst⟩
    obtain ⟨hlt, hbit⟩ := leadInLevel_eq_true_iff.mp hlevel
    refine ⟨⟨(t - start) / 100, by omega⟩, by dsimp only; omega, hbit, ?_⟩
    dsimp only
    by_cases h0 : (t - start) / 100 = 0
    · exact .inl h0
    · refine .inr ((before _ (by omega) (by omega)).mp ?_)
      rw [show 100 * ((t - start) / 100) = t - start by omega]
      exact hfirst.resolve_left (by omega)
  · rintro ⟨k, rfl, hbit, hfirst⟩
    have hk := k.isLt
    rw [show start + 100 * k.val - start = 100 * k.val by omega]
    refine ⟨by omega, by omega, ?_, ?_⟩
    · rw [leadInLevel_eq_true_iff, show 100 * k.val / 100 = k.val by omega]
      exact ⟨by omega, hbit⟩
    · by_cases h0 : k.val = 0
      · exact .inl (by omega)
      · exact .inr ((before k.val (by omega) hk).mpr (hfirst.resolve_left h0))

/-- The first mark tick is the one that is measured (R24). -/
theorem State.measuredTick_of_mark {u : State} (h : u.drive.content = .mark) (t : Nat) : u.measuredTick t = decide (t = 0) := by
  unfold State.measuredTick
  rw [h]
  rfl

/-- The lead-in ticks that are measured (R24). -/
theorem State.measuredTick_of_leadIn {u : State} {field : LeadInField} {v : BitVec 7} (h : u.drive.content = .leadIn field)
    (hv : u.drive.leadIn = some v) (t : Nat) :
    u.measuredTick t = decide (∃ k : Fin 7, t = leadInStart field + 100 * k.val ∧ v.getLsbD (6 - k.val) = false
      ∧ (k.val = 0 ∨ v.getLsbD (7 - k.val) = true)) := by
  unfold State.measuredTick
  rw [h, hv, Bool.eq_iff_iff, decide_eq_true_eq, ← measured_leadIn_iff]
  simp only [Bool.and_eq_true, Bool.or_eq_true, decide_eq_true_eq, beq_iff_eq, Bool.not_eq_true', and_assoc]
  rfl

/-- Nothing else that a station drives is measured (R24). -/
theorem State.measuredTick_of_other {u : State} (hm : u.drive.content ≠ .mark)
    (hl : ∀ field v, u.drive.content = .leadIn field → u.drive.leadIn ≠ some v) (t : Nat) : u.measuredTick t = false := by
  unfold State.measuredTick
  split
  · next h => exact absurd h hm
  · next h hv => exact absurd hv (hl _ _ h)
  · rfl

theorem Lane.drivesTick_iff {x : Lane} {t : Nat} : x.drivesTick t = true
    ↔ x.drive = .contending ∨ x.drive = .driving ∨ (x.drive = .cut ∧ ∃ c, x.cutAt = some c ∧ t ≤ c) := by
  unfold Lane.drivesTick
  cases x.cutAt <;> simp [or_assoc]

/-! ### The two commands -/

theorem exec_echoMeasurement {l : LaneId} {value : BitVec 8} {r : Nat} {s : State} (hs : s.holding = false) (hr : s.reaches r = true) :
    let u := reach r s
    exec (.echoMeasurement l value r) s = .next (if 60 < value.toNat then writeLateEcho l value u
      else if u.measures l value.toNat r then writeEcho l value u else u) := by
  change running (dated _ _) s = _
  rw [running_of_free hs, dated_of_reaches _ hr]
  rfl

theorem exec_echoLate {l : LaneId} {r : Nat} {s : State} (hs : s.holding = false) (hr : s.reaches r = true) :
    let u := reach r s
    exec (.echoLate l r) s = .next (if u.measures l 61 r then echoLateOn l u else u) := by
  change running (dated _ _) s = _
  rw [running_of_free hs, dated_of_reaches _ hr]
  rfl

/-! ### A measurement within the limit -/

/-- The lane with a measurement written: the echo check is no longer owed, and the lane has risen from passive (R24, R41, R49). -/
def Lane.measured (value : BitVec 8) (x : Lane) : Lane :=
  { x.beginRun with echoDelay := value, measuring := false, echoOwed := false,
                    cause := if x.state == .settling then none else x.cause }

theorem writeEcho_eq (l : LaneId) (value : BitVec 8) (u : State) :
    writeEcho l value u = settleExit l (u.mapLane l (Lane.measured value)) := rfl

theorem mapLane_measured_get (l : LaneId) (value : BitVec 8) (u : State) :
    (u.mapLane l (Lane.measured value)).lanes.get l = (u.lanes.get l).measured value := PerLane.get_set_same _ _ _

theorem settleExit_of_not_settling {l : LaneId} {s : State} (h : (s.lanes.get l).state ≠ .settling) : settleExit l s = s := by
  simp [settleExit, h]

/-- A lane in SETTLING that owes no echo check leaves it when an exit count is met (R51). -/
theorem settleExit_of_settling {l : LaneId} {s : State} (h : (s.lanes.get l).state = .settling)
    (ho : (s.lanes.get l).echoOwed = false) :
    settleExit l s = if 4 ≤ (s.lanes.get l).marks ∨ 32 ≤ (s.lanes.get l).quiet then enterUsable l .clear s else s := by
  simp [settleExit, h, ho]

/-- Out of SETTLING a measurement writes the lane alone. -/
theorem writeEcho_of_not_settling {l : LaneId} {value : BitVec 8} {u : State} (h : (u.lanes.get l).state ≠ .settling) :
    writeEcho l value u = u.mapLane l (fun x => { x with
      echoDelay := value, measuring := false, echoOwed := false, run := 0, dominant := true, reported := .none }) := by
  rw [writeEcho_eq, settleExit_of_not_settling (by rw [mapLane_measured_get]; exact h)]
  simp [State.mapLane, Lane.measured, Lane.beginRun, h]

/-- A measurement on a SETTLING lane, whose exit it may let happen (R49, R51). -/
theorem writeEcho_of_settling {l : LaneId} {value : BitVec 8} {u : State} (h : (u.lanes.get l).state = .settling) :
    let x := u.lanes.get l
    let t := writeEcho l value u
    (t.lanes.get l).state = (if 4 ≤ x.marks ∨ 32 ≤ x.quiet then .clear else .settling)
    ∧ (t.lanes.get l).echoDelay = value ∧ (t.lanes.get l).echoOwed = false ∧ (t.lanes.get l).cause = none
    ∧ (t.lanes.get l).dominant = true ∧ (t.lanes.get l).run = 0
    ∧ (∀ k : LaneId, k ≠ l → t.lanes.get k = u.lanes.get k) ∧ State.LanesAside u t := by
  intro x t
  have lane := mapLane_measured_get l value u
  have e : t = if 4 ≤ x.marks ∨ 32 ≤ x.quiet then enterUsable l .clear (u.mapLane l (Lane.measured value))
      else u.mapLane l (Lane.measured value) := by
    have exit := settleExit_of_settling (l := l) (s := u.mapLane l (Lane.measured value))
    rw [lane] at exit
    exact exit h rfl
  by_cases exits : 4 ≤ x.marks ∨ 32 ≤ x.quiet
  · rw [if_pos exits] at e ⊢
    refine ⟨?_, ?_, ?_, ?_, ?_, ?_, fun k hk => ?_, fun _ => ?_⟩
    iterate 6 simp [e, enterUsable, Lane.measured, Lane.beginRun]
    · simp [e, enterUsable, PerLane.get_set_of_ne _ _ hk]
    · rw [e]
      rfl
  · rw [if_neg exits] at e ⊢
    rw [e, lane]
    refine ⟨h, rfl, rfl, by simp [Lane.measured, h], rfl, rfl, fun k hk => ?_, fun _ => rfl⟩
    exact PerLane.get_set_of_ne _ _ hk

/-! ### A measurement above the limit -/

theorem writeLateEcho_eq (l : LaneId) (value : BitVec 8) (u : State) : writeLateEcho l value u =
    if (u.lanes.get l).measuring then
      (if value.toNat < 255 then u.mapLane l (fun x => { x with
        echoDelay := value, measuring := false, run := 0, dominant := true, reported := .none })
      else u.mapLane l (fun x => { x with echoDelay := value, measuring := false }))
    else u := by
  unfold writeLateEcho
  by_cases h : value.toNat < 255
  · simp only [if_pos h]
    rfl
  · simp only [if_neg h]

/-- The lane whose measurement has reached 61 without a dominant reading: it was read passive, and the measurement runs on (R24, R41). -/
def Lane.measuresOn (x : Lane) : Lane := { x.endRun with measuring := true }

theorem mapLane_measuresOn_get (l : LaneId) (u : State) :
    (u.mapLane l Lane.measuresOn).lanes.get l = (u.lanes.get l).measuresOn := PerLane.get_set_same _ _ _

/-- On a lane in SURGE a late measurement owes the echo check alone (R43); any other lane enters SURGE. -/
theorem echoLateOn_eq (l : LaneId) (u : State) : echoLateOn l u =
    if (u.lanes.get l).state = .surge then u.mapLane l (fun x => { x with
      measuring := true, echoOwed := true, run := 0, dominant := false, reported := .none })
    else enterSurge l .echoLate (u.mapLane l Lane.measuresOn) := by
  change (if ((u.mapLane l Lane.measuresOn).lanes.get l).state == .surge then _ else _) = _
  rw [mapLane_measuresOn_get]
  refine if_congr beq_iff_eq ?_ rfl
  simp [State.mapLane, Lane.endRun]

/-- A late measurement puts a lane that drove its tick into SURGE (R38, R43, R44, R46, R49). -/
theorem echoLate_surges {l : LaneId} {u : State} (hs : (u.lanes.get l).state ≠ .surge)
    (hd : (u.lanes.get l).Drives ∨ (u.lanes.get l).drive = .cut) :
    let x := u.lanes.get l
    let t := enterSurge l .echoLate (u.mapLane l Lane.measuresOn)
    Lane.EntersSurge .echoLate x (t.lanes.get l) ∧ (t.lanes.get l).drive = .cut
    ∧ (t.lanes.get l).violations = x.violationsCut ∧ (t.lanes.get l).measuring = true
    ∧ (t.lanes.get l).run = 0 ∧ (t.lanes.get l).dominant = false
    ∧ State.SurgesOn l x.state .echoLate u t := by
  intro x t
  have before := mapLane_measuresOn_get l u
  have lane : t.lanes.get l = x.measuresOn.surge .echoLate u.clock.timer := by
    rw [show t.lanes.get l = _ from enterSurge_lane .echoLate (by rw [before]; exact hs), before]
    rfl
  obtain ⟨enters, violations, measuring, run, dominant⟩ := Lane.surge_spec .echoLate u.clock.timer x.measuresOn
  rw [← lane] at enters violations measuring run dominant
  refine ⟨enters, ?_, violations, measuring, run, dominant, enterSurge_surgesOn .echoLate Lane.measuresOn rfl hs⟩
  obtain ⟨_, _, _, _, _, _, _, _, _, drive⟩ := enters
  rw [drive]
  by_cases h : x.Drives
  · exact if_pos h
  · exact (if_neg h).trans (hd.resolve_left h)

/-- Settles O23: a measurement in its range, its final value above it, and the one that is late. -/
theorem echoDelayMeasured : Obligations.EchoDelayMeasured := by
  intro l r s hs hr u x start measured drives measures
  have taken : ∀ value, u.measures l value r = true ↔ measures value := by
    intro value
    have tick : ∀ t, u.measuredTick t = measured t := by
      intro t
      simp only [measured]
      split
      · next h => exact State.measuredTick_of_mark h t
      · next field v h hv =>
        rw [State.measuredTick_of_leadIn h hv, show leadInStart field = start field by cases field <;> rfl]
      · next hm hl => exact State.measuredTick_of_other hm hl t
    unfold State.measures
    rw [Bool.and_eq_true, Bool.and_eq_true, decide_eq_true_eq, and_assoc, tick, Lane.drivesTick_iff]
  have answers : ∀ value : BitVec 8, value.toNat ≤ 60 → exec (.echoMeasurement l value r) s
      = .next (if u.measures l value.toNat r then writeEcho l value u else u) := by
    intro value hv
    rw [exec_echoMeasurement hs hr, if_neg (by omega)]
  have late : exec (.echoLate l r) s = .next (if u.measures l 61 r then echoLateOn l u else u) := exec_echoLate hs hr
  refine ⟨fun value hv => ⟨fun hm => ?_, fun hm hx => ?_, fun hm hx => ?_⟩, fun value hv => ?_, fun hm => ?_, fun hm hx => ?_,
    fun hm hx => ?_⟩
  · rw [answers value hv, if_neg (mt (taken _).mp hm)]
  · rw [answers value hv, if_pos ((taken _).mpr hm), writeEcho_of_not_settling hx]
    rfl
  · exact ⟨_, by rw [answers value hv, if_pos ((taken _).mpr hm)], writeEcho_of_settling hx⟩
  · rw [exec_echoMeasurement hs hr, if_pos hv, writeLateEcho_eq]
    rfl
  · rw [late, if_neg (mt (taken _).mp hm)]
  · rw [late, if_pos ((taken _).mpr hm), echoLateOn_eq, if_pos hx]
    rfl
  · refine ⟨_, by rw [late, if_pos ((taken _).mpr hm), echoLateOn_eq, if_neg hx], echoLate_surges hx ?_⟩
    obtain ⟨_, _, driven⟩ := hm
    rcases driven with h | h | ⟨h, _⟩
    · exact .inl (.inl h)
    · exact .inl (.inr h)
    · exact .inr h

end Sys2Proof.Machine
end

section
/-! PROOF LAYER. HOLD_LANE (R30, R132, R179). -/

namespace Sys2Proof.Machine

open Sys2Proof

/-- A lane argument above 1 names no lane (section 11.6). -/
theorem laneOf_eq_none {b : Byte} (h : 1 < b.toNat) : laneOf b = none := by
  unfold laneOf
  split
  · omega
  · omega
  · rfl

/-- A two-valued argument: 0, 1, or none (section 11.6). -/
theorem flagOf_eq_none {b : Byte} (h : 1 < b.toNat) : flagOf b = none := by
  unfold flagOf
  split
  · omega
  · omega
  · rfl

theorem flagOf_of_zero {b : Byte} (h : b.toNat = 0) : flagOf b = some false := by
  simp [flagOf, h]

theorem flagOf_of_one {b : Byte} (h : b.toNat = 1) : flagOf b = some true := by
  simp [flagOf, h]

/-- HOLD_LANE when requests are taken. -/
theorem exec_holdLane {s : State} (lane hold : Byte) (hs : s.TakesRequests) :
    exec (.holdLane lane hold) s = .next (holdLane lane hold s) :=
  request_taken hs.1 hs.2

/-- The arguments above 1 are refused (R179). -/
theorem holdLane_badArg {lane hold : Byte} (s : State) (h : 1 < lane.toNat ∨ 1 < hold.toNat) :
    holdLane lane hold s = reply .badArg .none s := by
  unfold holdLane
  split
  · next hl hf =>
    rcases h with h | h
    · exact nomatch (laneOf_eq_none h).symm.trans hl
    · exact nomatch (flagOf_eq_none h).symm.trans hf
  · rfl

theorem holdLane_of {lane hold : Byte} {l : LaneId} {on : Bool} (s : State) (hl : laneOf lane = some l) (hf : flagOf hold = some on) :
    holdLane lane hold s = reply .done .none (setHold l on s) := by
  unfold holdLane
  rw [hl, hf]

/-- The lane with its hold set on: a drive is cut, and it stays out of the rest of the field (R30, R11). -/
def Lane.held (breaks : Bool) (x : Lane) : Lane :=
  { x.cutDrive with hold := true, admitted := false, markSpoiled := x.markSpoiled || breaks }

theorem setHold_off (l : LaneId) (s : State) : setHold l false s = s.mapLane l (fun x => { x with hold := false }) := rfl

/-- A hold set on, with what becomes of the repair turn (R132). -/
theorem setHold_on (l : LaneId) (s : State) :
    setHold l true s = dropTurnIfMute (s.mapLane l (Lane.held (s.holdBreaksMark l))) := rfl

/-- A state without a repair turn, or with a transmit-usable lane, has no turn to end. -/
theorem dropTurnIfMute_of_stays {s : State}
    (h : s.repair.turn = false ∨ (s.lanes.get .a).transmitUsable = true ∨ (s.lanes.get .b).transmitUsable = true) :
    dropTurnIfMute s = s := by
  by_cases any : s.lanes.any Lane.transmitUsable = true
  · exact dropTurnIfMute_of_any any
  · rw [dropTurnIfMute_of_mute (Bool.eq_false_iff.mpr any)]
    exact dropTurn_of_over (h.resolve_right (fun hl => any (by simpa [PerLane.any_eq_get] using hl)))

/-- The repair turn of a state with no transmit-usable lane ends, and with it a re-send that is driven (R132). -/
theorem dropTurnIfMute_of_turn {s : State} (ht : s.repair.turn = true) (ha : (s.lanes.get .a).transmitUsable = false)
    (hb : (s.lanes.get .b).transmitUsable = false) :
    dropTurnIfMute s = { s with
      lanes := if s.drive.content.isResend then s.lanes.map Lane.cutDrive else s.lanes
      repair := { s.repair with turn := false } } := by
  rw [dropTurnIfMute_of_mute (by rw [PerLane.any_eq_get, ha, hb]; rfl)]
  exact if_pos ht

/-- Settles O12: the arguments, the hold set off, and the hold set on with the repair turn that it leaves or ends. -/
theorem holdLaneSetsHold : Obligations.HoldLaneSetsHold := by
  intro lane hold s hs done
  have answers := exec_holdLane lane hold hs
  refine ⟨fun h => ?_, fun l hl => ?_⟩
  · rw [answers, holdLane_badArg s h]
    rfl
  · intro x
    refine ⟨fun h => ?_, fun h => ?_⟩
    · rw [answers, holdLane_of s hl (flagOf_of_zero h), setHold_off]
      rfl
    · intro breaks cut lanes
      rw [answers, holdLane_of s hl (flagOf_of_one h), setHold_on]
      refine ⟨fun stays => ?_, fun turn ha hb => ?_⟩
      · rw [dropTurnIfMute_of_stays stays]
        rfl
      · rw [dropTurnIfMute_of_turn (s := s.mapLane l (Lane.held (s.holdBreaksMark l))) turn ha hb]
        rfl

end Sys2Proof.Machine
end

section
/-! PROOF LAYER. The moments inside a round that no command marks (log 3): the end of a notice body, the answer position, the repair
lead-in and the first symbol of a slot. -/

namespace Sys2Proof.Machine

open Sys2Proof

/-! ### What time leaves of the front ends -/

theorem Lane.elapse_front (r d n : Nat) (x : Lane) :
    (x.elapse r d n).drive = x.drive ∧ (x.elapse r d n).contributing = x.contributing
    ∧ (x.elapse r d n).admitted = x.admitted := by
  unfold Lane.elapse
  rw [Lane.countTicks_frame]
  obtain ⟨run, dominant, reported, e⟩ := (dropStale r x).passRun_frame d
  rw [e]
  exact ⟨rfl, rfl, rfl⟩

/-- Time passes a moment on its way. -/
def State.crosses (s : State) (r m : Nat) : Bool := s.clock.timer < m && m ≤ r

theorem State.crosses_iff {s : State} {r m : Nat} : s.crosses r m = true ↔ s.clock.timer < m ∧ m ≤ r := by
  simp [State.crosses]

/-- The drive and the notices of a station after time has passed are those that the moments on the way leave. -/
theorem reach_moments {r : Nat} {s : State} (h : s.clock.timer < r) (hr : r ≤ s.horizon) :
    let u := passMoments (s.crosses r) s
    (reach r s).notices = u.notices ∧ (reach r s).drive = u.drive ∧ ∀ l : LaneId,
      ((reach r s).lanes.get l).drive = (u.lanes.get l).drive
      ∧ ((reach r s).lanes.get l).contributing = (u.lanes.get l).contributing
      ∧ ((reach r s).lanes.get l).admitted = (u.lanes.get l).admitted := by
  intro u
  rw [reach_of_within h hr]
  refine ⟨rfl, rfl, fun l => ?_⟩
  simp only [PerLane.get_map]
  exact Lane.elapse_front _ _ _ _

/-! ### The moments, one by one -/

/-- The accept and roll-call positions begin at 1800 + 100 x station number, the dissent position at 3400 (R93, R97). -/
theorem State.answerAt_range {s : State} {m : Nat} (h : s.answerAt = some m) :
    1800 ≤ m ∧ m ≤ 3400 ∧ ((s.notices.plan == some .dissent) = true ↔ m = 3400) := by
  have station := s.station.isLt
  have numbered : 1800 + 100 * s.station.toNat ≤ 3300 := by omega
  unfold State.answerAt at h
  rcases hp : s.notices.plan with _ | (_ | _ | _)
  all_goals rw [hp] at h
  · exact nomatch h
  · obtain rfl : 1800 + 100 * s.station.toNat = m := Option.some.inj h
    refine ⟨by omega, by omega, fun hd => (nomatch hd), fun hm => absurd hm (by omega)⟩
  · obtain rfl : 3400 = m := Option.some.inj h
    decide
  · obtain rfl : 1800 + 100 * s.station.toNat = m := Option.some.inj h
    refine ⟨by omega, by omega, fun hd => (nomatch hd), fun hm => absurd hm (by omega)⟩

@[simp] theorem driveOn_drive (test : Lane → Bool) (c : DriveContent) (s : State) :
    (driveOn test c s).drive = { s.drive with content := if s.lanes.any test then c else s.drive.content } := rfl

theorem driveOn_lane_drive (test : Lane → Bool) (c : DriveContent) (s : State) (l : LaneId) :
    ((driveOn test c s).lanes.get l).drive = if test (s.lanes.get l) then .driving else (s.lanes.get l).drive := by
  simp only [driveOn, PerLane.get_map]
  split <;> rfl

/-- The end of a notice body in flight (R22, R28). -/
theorem endNoticeBody_of_flight {s : State} {f : Flight} (hf : s.notices.flight = some f) (hc : s.drive.content = .noticeBody) :
    (endNoticeBody s).notices = { s.notices with
      flight := some { f with sent := { a := s.lanes.a.drive == .driving, b := s.lanes.b.drive == .driving } } } := by
  unfold endNoticeBody
  rw [hf, hc]

theorem endNoticeBody_of_not {s : State} (h : s.notices.flight = none ∨ s.drive.content ≠ .noticeBody) : endNoticeBody s = s := by
  unfold endNoticeBody
  split
  · next hf hc =>
    rcases h with h | h
    · exact nomatch h.symm.trans hf
    · exact absurd hc h
  · rfl

/-- The answer position of the plan begins (R93, R97). -/
theorem startAnswer_drive {s : State} {m : Nat} (h : s.answerAt = some m) :
    (startAnswer s).drive = { s.drive with
      content := if s.lanes.any Lane.entered then (if m = 3400 then .dissent else .accept) else s.drive.content } := by
  unfold startAnswer
  rw [driveOn_drive]
  simp only [(State.answerAt_range h).2.2]

theorem startAnswer_lane_drive (s : State) (l : LaneId) :
    ((startAnswer s).lanes.get l).drive = if (s.lanes.get l).entered then .driving else (s.lanes.get l).drive :=
  driveOn_lane_drive _ _ _ _

/-- The repair lead-in with nothing to contend for: a field begins, and nothing is driven (R22, R130). -/
theorem startRepairLeadIn_of_not {s : State}
    (h : s.repair.queue = [] ∨ ¬ (s.ctrl.mode = .joined ∧ s.lanes.any Lane.transmitUsable = true)) :
    startRepairLeadIn s = beginField 3600 s := by
  unfold startRepairLeadIn
  dsimp only
  split
  · rfl
  · next head rest hq =>
    rw [beginField_repair] at hq
    split
    · next hm =>
      have mute := (h.resolve_left (by rw [hq]; exact List.cons_ne_nil _ _)) ∘ And.intro (by simpa using hm)
      exact if_neg mute
    · rfl

/-- The repair lead-in with a re-send queued, in JOINED: the station contends with the head's priority and its own number (R25, R130). -/
theorem startRepairLeadIn_of_contends {s : State} {head : Resend} {rest : List Resend} (hq : s.repair.queue = head :: rest)
    (hm : s.ctrl.mode = .joined) (hu : s.lanes.any Lane.transmitUsable = true) :
    (startRepairLeadIn s).drive = { content := .leadIn .repairWindow, leadIn := some (head.priority ++ s.ctrl.option.station),
                                    lost := false, handed := s.drive.handed, drove := none }
    ∧ ∀ l : LaneId, ((startRepairLeadIn s).lanes.get l).drive
        = if (s.lanes.get l).transmitUsable then .contending else .notDriving := by
  have e : startRepairLeadIn s = contendOn (fun l => ((beginField 3600 s).lanes.get l).transmitUsable) .repairWindow
      (leadInValue head.priority s.station) (beginField 3600 s) := by
    unfold startRepairLeadIn
    dsimp only
    rw [beginField_repair, hq]
    exact if_pos (by simp [hm])
  have usable : ∀ l, ((beginField 3600 s).lanes.get l).transmitUsable = (s.lanes.get l).transmitUsable := fun l => by cases l <;> rfl
  rw [e]
  refine ⟨?_, fun l => ?_⟩
  · rw [PerLane.any_eq_get] at hu
    rw [contendOn_drive, usable, usable, if_pos hu]
    rfl
  · rw [contendOn_lane_drive, usable, beginField_lanes, PerLane.get_map]
    rfl

/-- The repair lead-in begins a field on both lanes, whoever contends (R21). -/
theorem startRepairLeadIn_begun (s : State) (l : LaneId) :
    ((startRepairLeadIn s).lanes.get l).contributing = (s.lanes.get l).receiveUsable
    ∧ ((startRepairLeadIn s).lanes.get l).admitted = (s.lanes.get l).transmitUsable := by
  have begun : (startRepairLeadIn s).FieldBegun := by
    unfold startRepairLeadIn
    dsimp only
    split
    · exact beginField_begun _ _
    · split
      · exact contendOn_begun _ _ _ (beginField_begun _ _)
      · exact beginField_begun _ _
  obtain ⟨contributing, admitted⟩ := begun l
  obtain ⟨state, _, _, _, _, _, _, _, _, _, _, _, _, _, _, hold, _⟩ := startRepairLeadIn_agrees s l
  refine ⟨contributing.trans ?_, admitted.trans ?_⟩
  · simp only [Lane.receiveUsable, state]
  · simp only [Lane.transmitUsable, state, hold]

/-- The block handed over goes out at its first symbol: the station's own in JOINED, a re-send during the repair turn (R116, R133). -/
def State.sendsHanded (s : State) (b : Block) : Prop := if b.header.resend then s.repair.turn = true else s.ctrl.mode = .joined

theorem State.sendsHanded_iff {s : State} {b : Block} :
    (if b.header.resend then s.repair.turn else s.ctrl.mode == .joined) = true ↔ s.sendsHanded b := by
  unfold State.sendsHanded
  split
  · rfl
  · exact beq_iff_eq

theorem startSlotDrive_of_not {s : State} {n : Nat} {b : Block} (hh : s.drive.handed = some (n, b)) (h : ¬ s.sendsHanded b) :
    startSlotDrive s = s := by
  unfold startSlotDrive
  rw [hh]
  exact if_neg (mt State.sendsHanded_iff.mp h)

/-- The first symbol of a slot whose block is sent, on every lane that may be entered (R21, R116, R133). -/
theorem startSlotDrive_of_sends {s : State} {n : Nat} {b : Block} (hh : s.drive.handed = some (n, b)) (h : s.sendsHanded b) :
    (startSlotDrive s).drive = { s.drive with
      content := if s.lanes.any Lane.entered then .block b else s.drive.content
      drove := if s.lanes.any Lane.entered then some b else none }
    ∧ ∀ l : LaneId, ((startSlotDrive s).lanes.get l).drive = if (s.lanes.get l).entered then .driving else (s.lanes.get l).drive := by
  have e : startSlotDrive s = { driveOn Lane.entered (.block b) s with
      drive := { (driveOn Lane.entered (.block b) s).drive with drove := if s.lanes.any Lane.entered then some b else none } } := by
    unfold startSlotDrive
    rw [hh]
    exact if_pos (State.sendsHanded_iff.mpr h)
  rw [e]
  exact ⟨rfl, driveOn_lane_drive Lane.entered (.block b) s⟩

/-! ### The moments in their order -/

theorem applyIf_answerAt {c : Bool} {f : State → State} (h : ∀ u, (f u).notices.plan = u.notices.plan ∧ (f u).ctrl = u.ctrl)
    (u : State) : (applyIf c f u).answerAt = u.answerAt := by
  cases c
  · rfl
  · simp [applyIf, State.answerAt, State.station, h]

theorem applyIf_handed {c : Bool} {f : State → State} (h : ∀ u, (f u).drive.handed = u.drive.handed) (u : State) :
    (applyIf c f u).drive.handed = u.drive.handed := by
  cases c
  · rfl
  · exact h u

theorem startRepairLeadIn_handed (s : State) : (startRepairLeadIn s).drive.handed = s.drive.handed := by
  unfold startRepairLeadIn
  dsimp only
  split
  · rfl
  · split
    · rw [contendOn_drive]
      split <;> rfl
    · rfl

/-- The moments that are passed, each told by the state that time starts from. -/
theorem passMoments_eq (crossed : Nat → Bool) (s : State) : passMoments crossed s =
    applyIf (s.drive.handed.any (fun x => crossed (5100 + 800 * x.1))) startSlotDrive
      (applyIf (crossed 3600) startRepairLeadIn
        (applyIf (s.answerAt.any (fun m => crossed (m + 100))) endAnswer
          (applyIf (s.answerAt.any crossed) startAnswer (applyIf (crossed 1518) endNoticeBody s)))) := by
  unfold passMoments
  dsimp only
  simp only [applyIf_answerAt (f := endNoticeBody) (fun u => by simp), applyIf_answerAt (f := startAnswer) (fun u => by simp),
    applyIf_handed (f := endNoticeBody) (fun u => by simp), applyIf_handed (f := startAnswer) (fun u => rfl),
    applyIf_handed (f := endAnswer) (fun u => rfl), applyIf_handed startRepairLeadIn_handed]
  rcases s.answerAt with _ | m <;> rcases s.drive.handed with _ | ⟨n, b⟩ <;> rfl

/-- The moments between two readings, given which of them are passed. -/
theorem passMoments_of {r : Nat} {s : State} {body begins ends repair symbol : Bool} (hbody : s.crosses r 1518 = body)
    (hbegins : s.answerAt.any (s.crosses r) = begins) (hends : s.answerAt.any (fun m => s.crosses r (m + 100)) = ends)
    (hrepair : s.crosses r 3600 = repair) (hsymbol : s.drive.handed.any (fun x => s.crosses r (5100 + 800 * x.1)) = symbol) :
    passMoments (s.crosses r) s = applyIf symbol startSlotDrive (applyIf repair startRepairLeadIn
      (applyIf ends endAnswer (applyIf begins startAnswer (applyIf body endNoticeBody s)))) := by
  rw [passMoments_eq, hbody, hbegins, hends, hrepair, hsymbol]

theorem State.crosses_eq_false {s : State} {r m : Nat} (h : ¬ (s.clock.timer < m ∧ m ≤ r)) : s.crosses r m = false :=
  Bool.eq_false_iff.mpr (mt State.crosses_iff.mp h)

/-- No moment of the answer position is passed. -/
theorem State.answerAt_any_eq_false {s : State} {f : Nat → Bool} (h : ∀ m, s.answerAt = some m → f m = false) :
    s.answerAt.any f = false := by
  rcases e : s.answerAt with _ | m
  · rfl
  · exact h m e

theorem State.answerAt_any_eq {s : State} {m : Nat} (f : Nat → Bool) (h : s.answerAt = some m) : s.answerAt.any f = f m := by
  rw [h]
  rfl

theorem State.handed_any_eq_false {s : State} {f : Nat → Bool}
    (h : ∀ n b, s.drive.handed = some (n, b) → f (5100 + 800 * n) = false) :
    s.drive.handed.any (fun x => f (5100 + 800 * x.1)) = false := by
  rcases e : s.drive.handed with _ | ⟨n, b⟩
  · rfl
  · exact h n b e

section Passages
variable {r : Nat} {s : State}

/-- From a reading after the notice body on, its end is not passed. -/
theorem State.no_bodyEnd (h : 1518 ≤ s.clock.timer) : s.crosses r 1518 = false := State.crosses_eq_false (by omega)

theorem State.no_repairLeadIn (h : r < 3600 ∨ 3600 ≤ s.clock.timer) : s.crosses r 3600 = false := State.crosses_eq_false (by omega)

/-- Up to reading 5000 no slot has begun. -/
theorem State.no_symbol (h : r ≤ 5000) : s.drive.handed.any (fun x => s.crosses r (5100 + 800 * x.1)) = false :=
  State.handed_any_eq_false (f := s.crosses r) (fun _ _ _ => State.crosses_eq_false (by omega))

/-- From reading 3500 on the answer field is past. -/
theorem State.no_answer (h : 3500 ≤ s.clock.timer) :
    s.answerAt.any (s.crosses r) = false ∧ s.answerAt.any (fun m => s.crosses r (m + 100)) = false := by
  refine ⟨State.answerAt_any_eq_false (fun m hm => ?_), State.answerAt_any_eq_false (fun m hm => ?_)⟩
  all_goals
    obtain ⟨_, _, _⟩ := State.answerAt_range hm
    exact State.crosses_eq_false (by omega)

/-- A passage over the end of the notice body, up to the answer field at most. -/
theorem passMoments_at_bodyEnd (h0 : s.clock.timer < 1518) (h1 : 1518 ≤ r) (h2 : r ≤ 1800) : passMoments (s.crosses r) s
    = applyIf (decide (r = 1800 ∧ s.answerAt = some 1800)) startAnswer (endNoticeBody s) := by
  refine passMoments_of (begins := decide _) (ends := false) (State.crosses_iff.mpr ⟨h0, h1⟩) ?_ ?_
    (State.no_repairLeadIn (.inl (by omega))) (State.no_symbol (by omega))
  · rcases e : s.answerAt with _ | m
    · simp
    · obtain ⟨_, _, _⟩ := State.answerAt_range e
      rw [Option.any_some, Bool.eq_iff_iff, State.crosses_iff, decide_eq_true_eq, Option.some_inj]
      omega
  · refine State.answerAt_any_eq_false (fun m hm => ?_)
    obtain ⟨_, _, _⟩ := State.answerAt_range hm
    exact State.crosses_eq_false (by omega)

/-- A passage over the beginning of the station's answer position, and within it. -/
theorem passMoments_at_answer {m : Nat} (ha : s.answerAt = some m) (h0 : 1518 ≤ s.clock.timer) (h1 : s.clock.timer < m) (h2 : m ≤ r)
    (h3 : r < m + 100) : passMoments (s.crosses r) s = startAnswer s := by
  obtain ⟨_, _, _⟩ := State.answerAt_range ha
  refine passMoments_of (begins := true) (ends := false) (State.no_bodyEnd h0) ?_ ?_
    (State.no_repairLeadIn (.inl (by omega))) (State.no_symbol (by omega))
  · rw [State.answerAt_any_eq _ ha]
    exact State.crosses_iff.mpr ⟨h1, h2⟩
  · rw [State.answerAt_any_eq _ ha]
    exact State.crosses_eq_false (by omega)

/-- A passage over the end of the station's answer position, whether it began on the way or before. -/
theorem passMoments_at_answerEnd {m : Nat} (ha : s.answerAt = some m) (h0 : 1518 ≤ s.clock.timer) (h1 : s.clock.timer < m + 100)
    (h2 : m + 100 ≤ r) (h3 : r < 3600) :
    passMoments (s.crosses r) s = endAnswer (applyIf (s.crosses r m) startAnswer s) := by
  refine passMoments_of (ends := true) (State.no_bodyEnd h0) (State.answerAt_any_eq _ ha) ?_ (State.no_repairLeadIn (.inl h3))
    (State.no_symbol (by omega))
  rw [State.answerAt_any_eq _ ha]
  exact State.crosses_iff.mpr ⟨h1, h2⟩

/-- A passage over the beginning of the repair lead-in, within the repair window and the guard interval before it. -/
theorem passMoments_at_repairLeadIn (h0 : 3500 ≤ s.clock.timer) (h1 : s.clock.timer < 3600) (h2 : 3600 ≤ r) (h3 : r ≤ 5000) :
    passMoments (s.crosses r) s = startRepairLeadIn s :=
  passMoments_of (State.no_bodyEnd (by omega)) (State.no_answer h0).1 (State.no_answer h0).2 (State.crosses_iff.mpr ⟨h1, h2⟩)
    (State.no_symbol h3)

/-- A passage over the first symbol of the slot that a block was handed over for. -/
theorem passMoments_at_symbol {n : Nat} {b : Block} (hh : s.drive.handed = some (n, b)) (h0 : 3600 ≤ s.clock.timer)
    (h1 : s.clock.timer < 5100 + 800 * n) (h2 : 5100 + 800 * n ≤ r) : passMoments (s.crosses r) s = startSlotDrive s := by
  have after : 3500 ≤ s.clock.timer := by omega
  refine passMoments_of (symbol := true) (State.no_bodyEnd (by omega)) (State.no_answer after).1 (State.no_answer after).2
    (State.no_repairLeadIn (.inr h0)) ?_
  rw [hh]
  exact State.crosses_iff.mpr ⟨h1, h2⟩

/-- A passage over none of the moments. -/
theorem passMoments_between (hbody : s.crosses r 1518 = false) (hrepair : s.crosses r 3600 = false)
    (hanswer : ∀ m, s.answerAt = some m → s.crosses r m = false ∧ s.crosses r (m + 100) = false)
    (hsymbol : ∀ n b, s.drive.handed = some (n, b) → s.crosses r (5100 + 800 * n) = false) : passMoments (s.crosses r) s = s :=
  passMoments_of hbody (State.answerAt_any_eq_false (fun m hm => (hanswer m hm).1))
    (State.answerAt_any_eq_false (fun m hm => (hanswer m hm).2)) hrepair (State.handed_any_eq_false hsymbol)

end Passages

/-- The end of the notice body, and with it the answer position of station 0 if the passage ends at 1800. -/
theorem bodyEnd_spec {s : State} {answers : Prop} [Decidable answers] (h : answers → s.answerAt = some 1800) :
    let u := applyIf (decide answers) startAnswer (endNoticeBody s)
    u.drive = (if answers ∧ s.lanes.any Lane.entered = true then { s.drive with content := .accept } else s.drive)
    ∧ (∀ l : LaneId, (u.lanes.get l).drive
        = if answers ∧ (s.lanes.get l).entered = true then .driving else (s.lanes.get l).drive)
    ∧ u.notices = (endNoticeBody s).notices := by
  have hdrive : (endNoticeBody s).drive = s.drive := by simp
  have hlanes : (endNoticeBody s).lanes = s.lanes := by simp
  by_cases ha : answers
  · have at1800 : (endNoticeBody s).answerAt = some 1800 := by
      rw [← h ha]
      simp [State.answerAt, State.station]
    intro u
    have e : u = startAnswer (endNoticeBody s) := by simp [u, applyIf, ha]
    rw [e, startAnswer_drive at1800, hdrive, hlanes]
    refine ⟨?_, fun l => ?_, by simp⟩
    · cases s.lanes.any Lane.entered <;> simp [ha]
    · rw [startAnswer_lane_drive, hlanes]
      simp [ha]
  · simp [applyIf, ha]

/-- Settles O3: which moments are passed in each passage of time, and what each of them does. -/
theorem momentsInsideRoundDrive : Obligations.MomentsInsideRoundDrive := by
  intro r s h hr t from0 passes drives usable entered enters station position
  obtain ⟨notices, drive, lanes⟩ := reach_moments h hr
  have place : position = s.answerAt := by
    simp only [position, State.answerAt, station]
    rcases s.notices.plan with _ | (_ | _ | _) <;> rfl
  have apart : ∀ m, ¬ passes m → s.crosses r m = false := fun m => State.crosses_eq_false
  rw [place]
  refine ⟨fun ⟨h0, h1⟩ h2 => ?_, fun m ha h0 ⟨h1, h2⟩ h3 => ?_, fun m ha h0 ⟨h1, h2⟩ h3 => ?_, fun h0 ⟨h1, h2⟩ h3 => ?_,
    fun n b hh h0 ⟨h1, h2⟩ => ?_, fun hb hc ha hs => ?_⟩
  · rw [passMoments_at_bodyEnd h0 h1 h2] at notices drive lanes
    obtain ⟨udrive, ulanes, unotices⟩ := bodyEnd_spec (s := s) (answers := r = 1800 ∧ s.answerAt = some 1800) And.right
    refine ⟨drive.trans udrive, fun l => (lanes l).1.trans (ulanes l), fun f hf hc => ?_, fun hn => ?_⟩
    · exact (notices.trans unotices).trans (endNoticeBody_of_flight hf hc)
    · exact (notices.trans unotices).trans (by rw [endNoticeBody_of_not hn])
  · rw [passMoments_at_answer ha h0 h1 h2 h3] at notices drive lanes
    exact ⟨notices.trans (by simp), drive.trans (startAnswer_drive ha), fun l => (lanes l).1.trans (startAnswer_lane_drive s l)⟩
  · rw [passMoments_at_answerEnd ha h0 h1 h2 h3] at notices drive lanes
    refine ⟨notices.trans ?_, drive.trans ?_, fun l => (lanes l).1.trans ?_⟩
    · cases s.crosses r m <;> simp [applyIf]
    · cases s.crosses r m <;> rfl
    · simp [endAnswer]
  · intro contends
    rw [passMoments_at_repairLeadIn h0 h1 h2 h3] at notices drive lanes
    refine ⟨notices.trans (by simp), fun l => ?_, fun head rest hq hc => ?_, fun hn => ?_⟩
    · obtain ⟨_, contributing, admitted⟩ := lanes l
      obtain ⟨c, a⟩ := startRepairLeadIn_begun s l
      exact ⟨contributing.trans c, admitted.trans a⟩
    · obtain ⟨d, ls⟩ := startRepairLeadIn_of_contends hq hc.1 hc.2
      exact ⟨drive.trans d, fun l => (lanes l).1.trans (ls l)⟩
    · rw [startRepairLeadIn_of_not hn] at drive lanes
      exact ⟨drive, fun l => (lanes l).1.trans (by simp [Lane.beginField])⟩
  · intro goes
    rw [passMoments_at_symbol hh h0 h1 h2] at notices drive lanes
    refine ⟨notices.trans (by simp), fun hg => ?_, fun hg => ?_⟩
    · obtain ⟨d, ls⟩ := startSlotDrive_of_sends hh hg
      exact ⟨drive.trans d, fun l => (lanes l).1.trans (ls l)⟩
    · rw [startSlotDrive_of_not hh hg] at drive lanes
      exact ⟨drive, fun l => (lanes l).1⟩
  · rw [passMoments_between (apart _ hb) (apart _ hc) (fun m hm => ⟨apart _ (ha m hm).1, apart _ (ha m hm).2⟩)
      (fun n b hh => apart _ (hs n b hh))] at notices drive lanes
    exact ⟨notices, drive, fun l => (lanes l).1⟩

end Sys2Proof.Machine
end

section
/-! PROOF LAYER. The copies of a lane and the merged results (R31 to R34, R193). -/

namespace Sys2Proof.Machine

open Sys2Proof

/-! ### Copies -/

theorem Copy.isIdle_iff {α : Type} {c : Copy α} : c.isIdle = true ↔ c = .idle := by
  cases c <;> simp [Copy.isIdle]

/-- A lane is read in a field if it contributes to it and stays receive-usable until its close (R31). -/
theorem Lane.copyErased_eq_false_iff {x : Lane} : x.copyErased = false ↔ x.contributing = true ∧ x.lostAt = none := by
  simp [Lane.copyErased]

/-- A header that does not fail against its own fields (R193). -/
theorem BlockHeader.faulty_eq_false_iff {h : BlockHeader} :
    h.faulty = false ↔ h.length.toNat ≤ 256 ∧ (h.fill = true → h.length = 0) := by
  simp [BlockHeader.faulty]

theorem noticeCopy_idle_iff {x : Lane} {r : NoticeReading} :
    noticeCopy x r = .idle ↔ (x.contributing = true ∧ x.lostAt = none) ∧ r = .passiveThroughout := by
  rw [← Lane.copyErased_eq_false_iff]
  unfold noticeCopy
  cases x.copyErased
  · cases r with
    | frame v b c =>
      dsimp only
      rw [if_neg Bool.false_ne_true]
      split <;> simp
    | passiveThroughout => simp
    | dominantThroughout => simp
    | other => simp
  · simp

/-- A notice is read whole with no violation and a good check (R31). -/
theorem noticeCopy_valid_iff {x : Lane} {r : NoticeReading} {n : Notice} :
    noticeCopy x r = .valid n ↔ (x.contributing = true ∧ x.lostAt = none) ∧ x.fieldFlaw = false
      ∧ ∃ body, r = .frame n.leadIn body (noticeCheck n.leadIn body) ∧ n.body = NoticeBody.ofBits body := by
  rw [← Lane.copyErased_eq_false_iff]
  unfold noticeCopy
  cases x.copyErased
  · cases r with
    | frame v b c =>
      obtain ⟨leadIn, body⟩ := n
      dsimp only
      rw [if_neg Bool.false_ne_true]
      constructor
      · intro h
        split at h
        · next hc =>
          simp only [Bool.and_eq_true, Bool.not_eq_true', beq_iff_eq] at hc
          obtain ⟨flaw, rfl⟩ := hc
          cases h
          exact ⟨rfl, flaw, b, rfl, rfl⟩
        · exact nomatch h
      · rintro ⟨-, flaw, _, h, rfl⟩
        cases h
        simp [flaw]
    | passiveThroughout => simp
    | dominantThroughout => simp
    | other => simp
  · simp

/-- What a lane must hold for a block on it to be read (R31): in a slot the guard interval too. -/
theorem blockErased_eq_false_iff {x : Lane} {inSlot : Bool} : (x.copyErased || (inSlot && x.guardFlaw)) = false
    ↔ x.contributing = true ∧ x.lostAt = none ∧ (inSlot = true → x.guardFlaw = false) := by
  rw [Bool.or_eq_false_iff, Lane.copyErased_eq_false_iff, and_assoc]
  cases inSlot <;> simp

theorem blockCopy_idle_iff {x : Lane} {inSlot : Bool} {r : BlockReading} : blockCopy inSlot x r = .idle
    ↔ (x.contributing = true ∧ x.lostAt = none ∧ (inSlot = true → x.guardFlaw = false)) ∧ r = .passiveThroughout := by
  rw [← blockErased_eq_false_iff]
  unfold blockCopy
  cases x.copyErased || (inSlot && x.guardFlaw)
  · cases r with
    | frame head hc payload bc =>
      dsimp only
      rw [if_neg Bool.false_ne_true]
      split <;> simp
    | passiveThroughout => simp
    | dominantThroughout => simp
    | other => simp
  · simp

/-- A block is read whole with no violation, good checks, and a header that stands against its own fields (R31, R193). -/
theorem blockCopy_valid_iff {x : Lane} {inSlot : Bool} {r : BlockReading} {b : Block} : blockCopy inSlot x r = .valid b
    ↔ (x.contributing = true ∧ x.lostAt = none ∧ (inSlot = true → x.guardFlaw = false)) ∧ x.fieldFlaw = false
      ∧ b.check = check32 b.payload ∧ b.payload.length = b.header.length.toNat ∧ b.header.length.toNat ≤ 256
      ∧ (b.header.fill = true → b.header.length = 0)
      ∧ ∃ head, r = .frame head (headerCheckOf head) b.payload b.check ∧ b.header = BlockHeader.ofBits head := by
  rw [← blockErased_eq_false_iff]
  unfold blockCopy
  cases x.copyErased || (inSlot && x.guardFlaw)
  · cases r with
    | frame head hc payload bc =>
      obtain ⟨header, pay, check⟩ := b
      dsimp only
      rw [if_neg Bool.false_ne_true]
      constructor
      · intro h
        split at h
        · next hv =>
          simp only [Bool.and_eq_true, Bool.not_eq_true', beq_iff_eq, BlockHeader.faulty_eq_false_iff] at hv
          obtain ⟨⟨⟨⟨flaw, rfl⟩, size, fill⟩, length⟩, rfl⟩ := hv
          cases h
          exact ⟨rfl, flaw, rfl, length, size, fill, head, rfl, rfl⟩
        · exact nomatch h
      · rintro ⟨-, flaw, good, length, size, fill, _, h, rfl⟩
        cases h
        have whole : (BlockHeader.ofBits head).faulty = false := BlockHeader.faulty_eq_false_iff.mpr ⟨size, fill⟩
        simp [flaw, whole, length, good]
    | passiveThroughout => simp
    | dominantThroughout => simp
    | other => simp
  · simp

/-! ### Merged copies -/

/-- Every contributing lane is IDLE, and one is (R32, R33). -/
theorem bothIdle_iff {α β : Type} {x : Copy α} {y : Copy β} {a b : Bool} :
    ((x.isIdle || !a) && (y.isIdle || !b) && (x.isIdle || y.isIdle)) = true
      ↔ (x = .idle ∨ a = false) ∧ (y = .idle ∨ b = false) ∧ (x = .idle ∨ y = .idle) := by
  simp only [Bool.and_eq_true, Bool.or_eq_true, Bool.not_eq_true', Copy.isIdle_iff, and_assoc]

theorem mergeBlocks_of_left {a b : Bool} {p : Block} {y : Copy Block} : mergeBlocks a b (.valid p) y = .valid p := rfl

theorem mergeBlocks_of_right {a b : Bool} {p : Block} {x : Copy Block} (h : x.isValid = false) :
    mergeBlocks a b x (.valid p) = .valid p := by
  cases x with
  | valid q => exact nomatch h
  | erased => rfl
  | idle => rfl

theorem mergeBlocks_of_neither {a b : Bool} {x y : Copy Block} (hx : x.isValid = false) (hy : y.isValid = false) :
    mergeBlocks a b x y = if (x.isIdle || !a) && (y.isIdle || !b) && (x.isIdle || y.isIdle) then .idle else .erased := by
  cases x with
  | valid q => exact nomatch hx
  | erased => cases y with
    | valid q => exact nomatch hy
    | erased => rfl
    | idle => rfl
  | idle => cases y with
    | valid q => exact nomatch hy
    | erased => rfl
    | idle => rfl

theorem mergeNotices_of_both {a b : Bool} {p q : Notice} :
    mergeNotices a b (.valid p) (.valid q) = if p = q then .valid p else .divergent p q := rfl

theorem mergeNotices_of_left {a b : Bool} {p : Notice} {y : Copy Notice} (h : y.isValid = false) :
    mergeNotices a b (.valid p) y = .valid p := by
  cases y with
  | valid q => exact nomatch h
  | erased => rfl
  | idle => rfl

theorem mergeNotices_of_right {a b : Bool} {p : Notice} {x : Copy Notice} (h : x.isValid = false) :
    mergeNotices a b x (.valid p) = .valid p := by
  cases x with
  | valid q => exact nomatch h
  | erased => rfl
  | idle => rfl

theorem mergeNotices_of_neither {a b : Bool} {x y : Copy Notice} (hx : x.isValid = false) (hy : y.isValid = false) :
    mergeNotices a b x y = if (x.isIdle || !a) && (y.isIdle || !b) && (x.isIdle || y.isIdle) then .idle else .erased := by
  cases x with
  | valid q => exact nomatch hx
  | erased => cases y with
    | valid q => exact nomatch hy
    | erased => rfl
    | idle => rfl
  | idle => cases y with
    | valid q => exact nomatch hy
    | erased => rfl
    | idle => rfl

/-! ### The answer field (R34) -/

/-- The lane contributes, and stays receive-usable up to the reading. -/
theorem Lane.reads_iff {x : Lane} {t : Nat} :
    (x.contributing && x.usableUntil t) = true ↔ x.contributing = true ∧ ∀ c, x.lostAt = some c → t ≤ c := by
  unfold Lane.usableUntil
  cases x.lostAt <;> simp

/-- The bits set one by one where a test holds. -/
theorem getLsbD_foldl_twoPow {w : Nat} (f : Nat → Bool) (n : Nat) {i : Nat} (hi : i < w) :
    ((List.range n).foldl (fun acc p => if f p then acc ||| BitVec.twoPow w p else acc) (0 : BitVec w)).getLsbD i
      = (decide (i < n) && f i) := by
  induction n with
  | zero => simp
  | succ n ih =>
    rw [List.range_succ, List.foldl_append, List.foldl_cons, List.foldl_nil]
    by_cases hf : f n = true
    · rw [if_pos hf, BitVec.getLsbD_or, ih, BitVec.getLsbD_twoPow]
      by_cases hin : i = n
      · subst hin
        simp [hi, hf]
      · have lt : i < n + 1 ↔ i < n := by omega
        simp [lt, Ne.symm hin]
    · rw [if_neg hf, ih]
      by_cases hin : i = n
      · subst hin
        simp [hf]
      · have lt : i < n + 1 ↔ i < n := by omega
        simp [lt]

/-- The merged answer field of one lane at least that was receive-usable for all of it. -/
theorem mergeAnswers_of_read {ls : PerLane Lane} {a b : AnswerReading}
    (h : (ls.a.readsAnswerField || ls.b.readsAnswerField) = true) :
    (mergeAnswers ls a b).read = true
    ∧ (∀ p : Fin 16, (mergeAnswers ls a b).accepts.getLsbD p.val = mergedAccept ls a b p.val)
    ∧ (mergeAnswers ls a b).dissent
        = ((ls.a.readsPosition Config.dissentAt && a.dissent) || (ls.b.readsPosition Config.dissentAt && b.dissent)) := by
  unfold mergeAnswers
  rw [if_pos h]
  refine ⟨rfl, fun p => ?_, rfl⟩
  rw [getLsbD_foldl_twoPow (mergedAccept ls a b) 16 p.isLt, decide_eq_true p.isLt, Bool.true_and]

theorem mergeAnswers_of_unread {ls : PerLane Lane} {a b : AnswerReading}
    (h : (ls.a.readsAnswerField || ls.b.readsAnswerField) = false) :
    mergeAnswers ls a b = { read := false, accepts := 0, dissent := false } := by
  unfold mergeAnswers
  rw [h]
  rfl

/-- Settles O53: the copies, their merging with what it carries, and the answer field. -/
theorem mergedResults : Obligations.MergedResults := by
  refine ⟨fun x r => ⟨noticeCopy_idle_iff, fun n => noticeCopy_valid_iff⟩,
    fun x inSlot r => ⟨blockCopy_idle_iff, fun b => blockCopy_valid_iff⟩, fun s inSlot a b => ?_, fun s a b => ?_, fun ls a b => ?_⟩
  · intro m x y bothIdle
    refine ⟨rfl, rfl, rfl, fun p hx => ?_, fun p hx hy => ?_, fun hx hy => ?_⟩
    · change mergeBlocks _ _ x y = _
      rw [hx]
      exact mergeBlocks_of_left
    · change mergeBlocks _ _ x y = _
      rw [hy]
      exact mergeBlocks_of_right hx
    · have e : m.copy = _ := mergeBlocks_of_neither hx hy
      exact ⟨fun h => e.trans (if_pos (bothIdle_iff.mpr h)), fun h => e.trans (if_neg (mt bothIdle_iff.mp h))⟩
  · intro m x y bothIdle
    refine ⟨fun p q hx hy => ?_, fun p hx hy => ?_, fun p hx hy => ?_, fun hx hy => ?_⟩
    · have e : m = if p = q then .valid p else .divergent p q := by
        change mergeNotices _ _ x y = _
        rw [hx, hy]
        exact mergeNotices_of_both
      exact ⟨fun h => e.trans (if_pos h), fun h => e.trans (if_neg h)⟩
    · change mergeNotices _ _ x y = _
      rw [hx]
      exact mergeNotices_of_left hy
    · change mergeNotices _ _ x y = _
      rw [hy]
      exact mergeNotices_of_right hx
    · have e : m = _ := mergeNotices_of_neither hx hy
      exact ⟨fun h => e.trans (if_pos (bothIdle_iff.mpr h)), fun h => e.trans (if_neg (mt bothIdle_iff.mp h))⟩
  · intro ans until_
    have field : (ls.a.readsAnswerField || ls.b.readsAnswerField) = true ↔ until_ ls.a 3500 ∨ until_ ls.b 3500 := by
      rw [Bool.or_eq_true]
      exact or_congr Lane.reads_iff Lane.reads_iff
    by_cases h : (ls.a.readsAnswerField || ls.b.readsAnswerField) = true
    · obtain ⟨read, accepts, dissent⟩ := mergeAnswers_of_read (a := a) (b := b) h
      refine ⟨⟨fun _ => field.mp h, fun _ => read⟩, fun hn => (nomatch read.symm.trans hn), fun _ => ⟨fun p => ?_, ?_⟩⟩
      · have ends : 1800 + 100 * p.val + 100 = 1900 + 100 * p.val := by omega
        rw [accepts, mergedAccept, Bool.or_eq_true, Bool.and_eq_true, Bool.and_eq_true, ← ends]
        exact or_congr (and_congr_left' Lane.reads_iff) (and_congr_left' Lane.reads_iff)
      · rw [dissent, Bool.or_eq_true, Bool.and_eq_true, Bool.and_eq_true]
        exact or_congr (and_congr_left' Lane.reads_iff) (and_congr_left' Lane.reads_iff)
    · have e : ans = _ := mergeAnswers_of_unread (Bool.eq_false_iff.mpr h)
      rw [e]
      exact ⟨⟨fun hr => (nomatch hr), fun hr => absurd (field.mpr hr) h⟩, fun _ => ⟨rfl, rfl⟩, fun hr => nomatch hr⟩

end Sys2Proof.Machine
end

section
/-! PROOF LAYER. The checks as registers into which bits are shifted, and the formats of notices and blocks (sections 11.3 and 11.4). -/

namespace Sys2Proof.Machine

open Sys2Proof

/-! ### Bits in their order -/

/-- The bits of a vector, most significant first. -/
def bitsMsbFirst (w : Nat) (x : BitVec w) : List Bool := (List.range w).map (fun i => x.getLsbD (w - 1 - i))

theorem bitsMsbFirst_setWidth_succ {w : Nat} (x : BitVec w) :
    bitsMsbFirst (w + 1) (x.setWidth (w + 1)) = false :: bitsMsbFirst w x := by
  unfold bitsMsbFirst
  rw [List.range_succ_eq_map, List.map_cons, List.map_map, List.cons.injEq]
  refine ⟨?_, List.map_congr_left (fun i hi => ?_)⟩
  · simp
  · have lt : i < w := List.mem_range.mp hi
    simp only [Function.comp, BitVec.getLsbD_setWidth]
    rw [show w + 1 - 1 - i.succ = w - 1 - i by omega]
    simp
    omega

/-- The bytes of a vector, in their order, hold its bits in their order. -/
theorem flatMap_bytesOf {w : Nat} (n : Nat) (x : BitVec w) :
    (bytesOf n x).flatMap (bitsMsbFirst 8) = (List.range (8 * n)).map (fun i => x.getLsbD (8 * n - 1 - i)) := by
  induction n with
  | zero => rfl
  | succ n ih =>
    have front : bytesOf (n + 1) x = x.extractLsb' (8 * n) 8 :: bytesOf n x := by
      unfold bytesOf
      rw [List.range_succ_eq_map, List.map_cons, List.map_map, List.cons.injEq]
      refine ⟨rfl, List.map_congr_left (fun i _ => ?_)⟩
      simp only [Function.comp]
      rw [show n + 1 - 1 - i.succ = n - 1 - i by omega]
    rw [front, List.flatMap_cons, ih, show 8 * (n + 1) = 8 + 8 * n by omega, List.range_add, List.map_append, List.map_map]
    congr 1
    · refine List.map_congr_left (fun i hi => ?_)
      have lt : i < 8 := List.mem_range.mp hi
      rw [BitVec.getLsbD_extractLsb', decide_eq_true (by omega), Bool.true_and]
      congr 1
      omega
    · refine List.map_congr_left (fun i hi => ?_)
      simp only [Function.comp]
      congr 1
      omega

/-! ### The registers (R191, R192) -/

/-- A check register of generator `g` that the bits are shifted into, from all ones. -/
def checkRegister {w : Nat} (g : BitVec w) (bits : List Bool) : BitVec w := bits.foldl (checkBit g) (BitVec.allOnes w)

theorem checkBit_eq {w : Nat} (g r : BitVec w) (b : Bool) : checkBit g r b = if r.msb = b then r <<< 1 else (r <<< 1) ^^^ g := by
  unfold checkBit
  by_cases h : r.msb = b <;> simp [h]

theorem checkByte_eq {w : Nat} (g r : BitVec w) (x : Byte) : checkByte g r x = (bitsMsbFirst 8 x).foldl (checkBit g) r := by
  have order : bitsMsbFirst 8 x = [7, 6, 5, 4, 3, 2, 1, 0].map (fun i => x.getLsbD i) := rfl
  rw [order, List.foldl_map, checkByte]

theorem foldl_checkByte {w : Nat} (g r : BitVec w) (bytes : List Byte) :
    bytes.foldl (checkByte g) r = (bytes.flatMap (bitsMsbFirst 8)).foldl (checkBit g) r := by
  rw [List.foldl_flatMap]
  exact congrArg (fun f => bytes.foldl f r) (funext fun r => funext (checkByte_eq g r))

theorem check16_eq (bytes : List Byte) : check16 bytes = checkRegister checkGen16 (bytes.flatMap (bitsMsbFirst 8)) :=
  foldl_checkByte _ _ _

theorem check32_eq (bytes : List Byte) : check32 bytes = checkRegister checkGen32 (bytes.flatMap (bitsMsbFirst 8)) :=
  foldl_checkByte _ _ _

theorem noticeCheck_eq (v : BitVec 7) (body : BitVec 48) :
    noticeCheck v body = checkRegister checkGen16 (false :: bitsMsbFirst 7 v ++ bitsMsbFirst 48 body) := by
  rw [noticeCheck, check16_eq, List.flatMap_cons, bitsMsbFirst_setWidth_succ, flatMap_bytesOf]
  rfl

theorem headerCheckOf_eq (head : BitVec 64) : headerCheckOf head = checkRegister checkGen16 (bitsMsbFirst 64 head) := by
  rw [headerCheckOf, check16_eq, flatMap_bytesOf]
  rfl

/-- A generator from the exponents of its terms below the leading one. -/
def generatorOf (w : Nat) (exponents : List Nat) : BitVec w := exponents.foldl (fun g i => g ||| BitVec.twoPow w i) 0

theorem generatorOf_16 : generatorOf 16 [15, 11, 10, 8, 7, 4, 2, 0] = checkGen16 := by decide

theorem generatorOf_32 : generatorOf 32 [30, 27, 24, 21, 17, 16, 13, 9, 7, 4, 3, 0] = checkGen32 := by decide

/-! ### The notice body (section 11.3) -/

theorem NoticeKind.ofCode_code (k : NoticeKind) : NoticeKind.ofCode k.code = k := by
  cases k <;> rfl

/-- The body fields of a vector of any width. -/
def NoticeBody.fieldsOf {n : Nat} (x : BitVec n) : NoticeBody :=
  { kind := .ofCode (x.extractLsb' 46 2), epoch := x.extractLsb' 38 8, tag := x.extractLsb' 32 6,
    target := x.extractLsb' 28 4, first := x.extractLsb' 12 16, count := x.extractLsb' 7 5 }

theorem NoticeBody.ofBits_eq (x : BitVec 48) : NoticeBody.ofBits x = NoticeBody.fieldsOf x := rfl

/-- Every body field lies where it was put. -/
theorem NoticeBody.ofBits_bits (x : NoticeBody) : NoticeBody.ofBits x.bits = x := by
  rw [NoticeBody.ofBits_eq]
  change NoticeBody.fieldsOf (x.kind.code ++ x.epoch ++ x.tag ++ x.target ++ x.first ++ x.count ++ (0 : BitVec 7)) = x
  simp (disch := decide) only [NoticeBody.fieldsOf, BitVec.extractLsb'_append_eq_of_le, BitVec.extractLsb'_append_eq_of_add_le,
    BitVec.extractLsb'_eq_self, Nat.reduceSub, NoticeKind.ofCode_code]

/-- The seven pad bits of a body are ignored. -/
theorem NoticeBody.ofBits_pad (x : BitVec 41) (pad : BitVec 7) :
    NoticeBody.ofBits (x ++ pad) = NoticeBody.ofBits (x ++ (0 : BitVec 7)) := by
  rw [NoticeBody.ofBits_eq, NoticeBody.ofBits_eq]
  change NoticeBody.fieldsOf (x ++ pad) = NoticeBody.fieldsOf (x ++ (0 : BitVec 7))
  simp (disch := decide) only [NoticeBody.fieldsOf, BitVec.extractLsb'_append_eq_of_le]

/-! ### The block header (section 11.4) -/

/-- The header fields of a vector of any width. -/
def BlockHeader.fieldsOf {n : Nat} (x : BitVec n) : BlockHeader :=
  { owner := x.extractLsb' 60 4, tag := x.extractLsb' 54 6, gen := x.extractLsb' 50 4, seq := x.extractLsb' 34 16,
    fill := x.getLsbD 33, resend := x.getLsbD 32, index := x.extractLsb' 27 5, epoch := x.extractLsb' 19 8,
    length := x.extractLsb' 10 9 }

theorem BlockHeader.ofBits_eq (x : BitVec 64) : BlockHeader.ofBits x = BlockHeader.fieldsOf x := rfl

/-- Every header field lies where it was put. -/
theorem BlockHeader.ofBits_bits (h : BlockHeader) : BlockHeader.ofBits h.bits = h := by
  rw [BlockHeader.ofBits_eq]
  change BlockHeader.fieldsOf (h.owner ++ h.tag ++ h.gen ++ h.seq ++ BitVec.ofBool h.fill ++ BitVec.ofBool h.resend ++ h.index
    ++ h.epoch ++ h.length ++ (0 : BitVec 10)) = h
  simp (disch := decide) only [BlockHeader.fieldsOf, BitVec.extractLsb'_append_eq_of_le, BitVec.extractLsb'_append_eq_of_add_le,
    BitVec.extractLsb'_eq_self, BitVec.getLsbD_append, Nat.reduceSub, Nat.reduceLT, if_true, if_false, BitVec.getLsbD_ofBool,
    decide_true, Bool.true_and]

/-- The ten pad bits of a header are ignored. -/
theorem BlockHeader.ofBits_pad (x : BitVec 54) (pad : BitVec 10) :
    BlockHeader.ofBits (x ++ pad) = BlockHeader.ofBits (x ++ (0 : BitVec 10)) := by
  rw [BlockHeader.ofBits_eq, BlockHeader.ofBits_eq]
  change BlockHeader.fieldsOf (x ++ pad) = BlockHeader.fieldsOf (x ++ (0 : BitVec 10))
  simp (disch := decide) only [BlockHeader.fieldsOf, BitVec.extractLsb'_append_eq_of_le, BitVec.getLsbD_append,
    Nat.reduceLT, Nat.reduceSub, if_false]

/-! ### Read clean (R31, R193) -/

/-- A notice driven as its format says is read with every field. -/
theorem noticeCopy_asRead {f : Flight} {l : Lane} (hc : l.contributing = true) (hl : l.lostAt = none) (hf : l.fieldFlaw = false) :
    noticeCopy l f.asRead = .valid { leadIn := f.leadIn, body := f.body } :=
  noticeCopy_valid_iff.mpr ⟨⟨hc, hl⟩, hf, f.body.bits, rfl, (NoticeBody.ofBits_bits f.body).symm⟩

/-- Settles O57: the checks as registers, the formats, and what is read of them. -/
theorem cleanNoticesAndBlocksReadBack : Obligations.CleanNoticesAndBlocksReadBack := by
  refine ⟨?_, NoticeBody.ofBits_bits, BlockHeader.ofBits_bits, NoticeBody.ofBits_pad, BlockHeader.ofBits_pad,
    fun f l hc hl hf => noticeCopy_asRead hc hl hf, fun b l inSlot hc hl hf hg hlen hsize hfill hcheck => ?_⟩
  · intro generator register bitsOf covered g16 g32
    have registers : ∀ (w : Nat) (g : BitVec w) (bits : List Bool), register w g bits = checkRegister g bits := by
      intro w g bits
      simp only [register, checkRegister, funext (fun r => funext (checkBit_eq g r))]
    have h16 : g16 = checkGen16 := generatorOf_16
    have h32 : g32 = checkGen32 := generatorOf_32
    simp only [registers, h16, h32]
    exact ⟨fun bytes => ⟨check16_eq bytes, check32_eq bytes⟩, noticeCheck_eq, headerCheckOf_eq, check32_eq []⟩
  · have stands : b.header.fill = true → b.header.length = 0 := by
      intro h
      rw [hfill h] at hlen
      exact BitVec.eq_of_toNat_eq hlen
    exact blockCopy_valid_iff.mpr ⟨⟨hc, hl, fun _ => hg⟩, hf, hcheck, hlen.symm, by omega, stands, b.header.bits, rfl,
      (BlockHeader.ofBits_bits b.header).symm⟩

end Sys2Proof.Machine
end

section
/-! PROOF LAYER. The stretches of a lane's activity and their free violations (R39), and the dominant run that activity shows (R41). -/

namespace Sys2Proof.Machine

open Sys2Proof

/-! ### Merged runs -/

theorem mergeRuns_cons_of_empty {r : LevelRun} (rest : List LevelRun) (h : r.length = 0) : mergeRuns (r :: rest) = mergeRuns rest := by
  cases e : mergeRuns rest <;> simp [mergeRuns, e, h]

theorem mergeRuns_cons_of_last {r : LevelRun} {rest : List LevelRun} (h : r.length ≠ 0) (e : mergeRuns rest = []) :
    mergeRuns (r :: rest) = [r] := by
  simp [mergeRuns, e, h]

theorem mergeRuns_cons_of_same {r x : LevelRun} {rest more : List LevelRun} (h : r.length ≠ 0) (e : mergeRuns rest = x :: more)
    (hd : x.dominant = r.dominant) : mergeRuns (r :: rest) = { r with length := r.length + x.length } :: more := by
  simp [mergeRuns, e, h, hd]

theorem mergeRuns_cons_of_change {r x : LevelRun} {rest more : List LevelRun} (h : r.length ≠ 0) (e : mergeRuns rest = x :: more)
    (hd : x.dominant ≠ r.dominant) : mergeRuns (r :: rest) = r :: x :: more := by
  simp [mergeRuns, e, h, hd]

/-- A merged run is never shorter than the shortest of the runs. -/
theorem mergeRuns_length_ge {n : Nat} (runs : List LevelRun) (h : ∀ r ∈ runs, n ≤ r.length) : ∀ r ∈ mergeRuns runs, n ≤ r.length := by
  induction runs with
  | nil => exact h
  | cons r rest ih =>
    obtain ⟨hr, hrest⟩ := List.forall_mem_cons.mp h
    have ih := ih hrest
    by_cases h0 : r.length = 0
    · rwa [mergeRuns_cons_of_empty rest h0]
    cases e : mergeRuns rest with
    | nil =>
      rw [mergeRuns_cons_of_last h0 e]
      simpa using hr
    | cons x more =>
      rw [e] at ih
      by_cases hd : x.dominant = r.dominant
      · rw [mergeRuns_cons_of_same h0 e hd]
        exact List.forall_mem_cons.mpr ⟨Nat.le_add_right_of_le hr, (List.forall_mem_cons.mp ih).2⟩
      · rw [mergeRuns_cons_of_change h0 e hd]
        exact List.forall_mem_cons.mpr ⟨hr, ih⟩

/-! ### Steady levels -/

theorem splitStretches_of_short (before : Option Bool) (levels rest : List LevelRun) {r : LevelRun} (h : r.length < Config.steadyTime) :
    splitStretches before levels (r :: rest) = splitStretches before (levels ++ [r]) rest := by
  simp [splitStretches, h]

/-- A steady level without shorter ones before it begins anew. -/
theorem splitStretches_of_steady_first (before : Option Bool) (rest : List LevelRun) {r : LevelRun} (h : Config.steadyTime ≤ r.length) :
    splitStretches before [] (r :: rest) = splitStretches (some r.dominant) [] rest := by
  cases before <;> simp [splitStretches, Nat.not_lt.mpr h]

/-- A steady level ends the stretch of shorter ones before it. -/
theorem splitStretches_of_steady_after (b : Bool) {levels : List LevelRun} (hl : levels ≠ []) {r : LevelRun}
    (h : Config.steadyTime ≤ r.length) : splitStretches (some b) levels [r] = [⟨b, levels, r.dominant⟩] := by
  obtain ⟨x, more, rfl⟩ := List.exists_cons_of_ne_nil hl
  simp [splitStretches, Nat.not_lt.mpr h]

/-- Between steady levels alone there is no stretch. -/
theorem splitStretches_of_steady (before : Option Bool) (runs : List LevelRun) (h : ∀ r ∈ runs, Config.steadyTime ≤ r.length) :
    splitStretches before [] runs = [] := by
  induction runs generalizing before with
  | nil => rfl
  | cons r rest ih =>
    obtain ⟨hr, hrest⟩ := List.forall_mem_cons.mp h
    rw [splitStretches_of_steady_first before rest hr]
    exact ih _ hrest

theorem freeViolations_of_steady (activity : List LevelRun) (h : ∀ r ∈ activity, 300 ≤ r.length) : freeViolations activity = 0 := by
  unfold freeViolations stretchesOf
  rw [splitStretches_of_steady none _ (mergeRuns_length_ge activity h)]
  rfl

/-! ### One stretch -/

/-- Levels held for less than 30 units, up to a steady one, are one stretch. -/
theorem splitStretches_short (b : Bool) (levels short : List LevelRun) (after : LevelRun) (hs : ∀ r ∈ short, r.length < Config.steadyTime)
    (ha : Config.steadyTime ≤ after.length) (hl : levels ++ short ≠ []) :
    splitStretches (some b) levels (short ++ [after]) = [⟨b, levels ++ short, after.dominant⟩] := by
  induction short generalizing levels with
  | nil =>
    rw [List.append_nil] at hl ⊢
    exact splitStretches_of_steady_after b hl ha
  | cons r rest ih =>
    obtain ⟨hr, hrest⟩ := List.forall_mem_cons.mp hs
    rw [List.cons_append, splitStretches_of_short _ _ _ hr, ih _ hrest (by simp), List.append_assoc]
    rfl

/-- The one stretch of activity between two steady levels. -/
theorem stretchesOf_single {before after : LevelRun} {levels : List LevelRun} (hb : 300 ≤ before.length) (ha : 300 ≤ after.length)
    (hl : levels ≠ []) (hs : ∀ r ∈ levels, 0 < r.length ∧ r.length < 300)
    (halt : List.IsChain (fun (x y : LevelRun) => x.dominant ≠ y.dominant) (before :: levels ++ [after])) :
    stretchesOf (before :: levels ++ [after]) = [⟨before.dominant, levels, after.dominant⟩] := by
  have pos : ∀ r ∈ before :: levels ++ [after], r.length ≠ 0 := by
    intro r hr
    simp only [List.cons_append, List.mem_cons, List.mem_append, List.not_mem_nil, or_false] at hr
    rcases hr with rfl | hr | rfl
    · omega
    · exact (hs r hr).1.ne'
    · omega
  unfold stretchesOf
  rw [mergeRuns_of_alternating _ pos halt, List.cons_append, splitStretches_of_steady_first none _ hb]
  exact splitStretches_short before.dominant [] levels after (fun r hr => (hs r hr).2) ha hl

/-- The elements of a stretch up to its last change. -/
def Stretch.seen (x : Stretch) : List Bool :=
  (if x.before then [true, true, true] else []) ++ x.levels.flatMap (fun r => List.replicate (r.length / 2) r.dominant)

theorem Stretch.elements_eq (x : Stretch) :
    x.elements = x.seen ++ List.replicate ((10 - x.seen.length % 10) % 10) x.after := rfl

theorem fieldElements_length (bytes : List Byte) : (fieldElements bytes).length = 10 * (bytes.length + 1) := by
  simp [fieldElements, fieldSymbols, symbolElements_length, Nat.mul_comm, List.flatMap_map, List.length_flatMap]
  omega

/-- A stretch is completed to whole symbols: of all completions by fewer than ten elements only one has whole symbols for its length. -/
theorem Stretch.elements_eq_fieldElements_iff (x : Stretch) (bytes : List Byte) :
    x.elements = fieldElements bytes ↔ ∃ rest < 10, x.seen ++ List.replicate rest x.after = fieldElements bytes := by
  rw [Stretch.elements_eq]
  constructor
  · exact fun h => ⟨_, Nat.mod_lt _ (by decide), h⟩
  · rintro ⟨rest, hrest, h⟩
    have whole := congrArg List.length h
    rw [List.length_append, List.length_replicate, fieldElements_length] at whole
    rwa [show (10 - x.seen.length % 10) % 10 = rest by omega]

/-- A stretch whose levels resolve into line elements has some. -/
theorem Stretch.seen_length_pos {x : Stretch} (hl : x.levels ≠ []) (hs : ∀ r ∈ x.levels, 0 < r.length)
    (even : ∀ r ∈ x.levels, r.length % 2 = 0) : 0 < x.seen.length := by
  obtain ⟨r, more, e⟩ := List.exists_cons_of_ne_nil hl
  have hr : r ∈ x.levels := by simp [e]
  have pos := hs r hr
  have whole := even r hr
  simp only [Stretch.seen, e, List.flatMap_cons, List.length_append, List.length_replicate]
  omega

/-- A stretch is clean exactly if its levels resolve into line elements, and these are a start symbol and whole symbols (R39). -/
theorem Stretch.clean_iff {x : Stretch} (hl : x.levels ≠ []) (hs : ∀ r ∈ x.levels, 0 < r.length) :
    x.clean = true ↔ (∀ r ∈ x.levels, r.length % 2 = 0) ∧ ∃ (bytes : List Byte) (rest : Nat), rest < 10
      ∧ x.seen ++ List.replicate rest x.after = fieldElements bytes := by
  have reads : x.clean = true ↔ (∀ r ∈ x.levels, r.length % 2 = 0)
      ∧ ∃ bytes, readField (x.elements.length / 10 - 1) 0 x.elements = .ok bytes := by
    unfold Stretch.clean
    cases readField (x.elements.length / 10 - 1) 0 x.elements <;> simp
  rw [reads]
  refine and_congr_right fun even => exists_congr fun bytes => ?_
  have pos := Stretch.seen_length_pos hl hs even
  have length : x.elements.length = 10 * (x.elements.length / 10 - 1 + 1) := by
    rw [Stretch.elements_eq, List.length_append, List.length_replicate]
    omega
  rw [readField_ok_iff _ 0 _ (Nat.zero_le _) length, Stretch.elements_eq_fieldElements_iff]
  refine ⟨fun h => h.2, fun h => ⟨?_, h⟩⟩
  have whole := congrArg List.length ((Stretch.elements_eq_fieldElements_iff x bytes).mpr h)
  rw [fieldElements_length] at whole
  omega

/-- The free violations of activity with one stretch (R39). -/
theorem freeViolations_of_single {activity : List LevelRun} {x : Stretch} (h : stretchesOf activity = [x]) :
    freeViolations activity = if x.clean then 0 else x.violations := by
  unfold freeViolations
  rw [h]
  cases e : x.clean <;> simp [e]

/-! ### A steady level between two parts of the activity -/

/-- A run with levels before it and after it keeps its level where it merges with its neighbours, and parts the merged runs. -/
theorem mergeRuns_append_cons (earlier : List LevelRun) (r : LevelRun) (later : List LevelRun) (hr : r.length ≠ 0) :
    ∃ (front : List LevelRun) (p q m : LevelRun) (rest : List LevelRun), mergeRuns (earlier ++ [r]) = front ++ [p]
      ∧ mergeRuns (r :: later) = q :: rest ∧ mergeRuns (earlier ++ r :: later) = front ++ m :: rest
      ∧ (p.dominant = r.dominant ∧ q.dominant = r.dominant ∧ m.dominant = r.dominant)
      ∧ r.length ≤ p.length ∧ r.length ≤ q.length ∧ r.length ≤ m.length := by
  induction earlier with
  | nil =>
    have first : ∃ q rest, mergeRuns (r :: later) = q :: rest ∧ q.dominant = r.dominant ∧ r.length ≤ q.length := by
      cases e : mergeRuns later with
      | nil => exact ⟨r, [], mergeRuns_cons_of_last hr e, rfl, le_rfl⟩
      | cons x more =>
        by_cases hd : x.dominant = r.dominant
        · exact ⟨_, _, mergeRuns_cons_of_same hr e hd, rfl, Nat.le_add_right _ _⟩
        · exact ⟨_, _, mergeRuns_cons_of_change hr e hd, rfl, le_rfl⟩
    obtain ⟨q, rest, e, hd, hl⟩ := first
    exact ⟨[], r, q, q, rest, mergeRuns_cons_of_last hr rfl, e, e, ⟨rfl, hd, hd⟩, le_rfl, hl, hl⟩
  | cons x earlier ih =>
    obtain ⟨front, p, q, m, rest, ep, eq, em, ⟨hp, hq, hm⟩, lp, lq, lm⟩ := ih
    by_cases hx : x.length = 0
    · exact ⟨front, p, q, m, rest, (mergeRuns_cons_of_empty _ hx).trans ep, eq, (mergeRuns_cons_of_empty _ hx).trans em,
        ⟨hp, hq, hm⟩, lp, lq, lm⟩
    cases front with
    | nil =>
      by_cases hd : r.dominant = x.dominant
      · exact ⟨[], _, q, _, rest, mergeRuns_cons_of_same hx ep (hp.trans hd), eq, mergeRuns_cons_of_same hx em (hm.trans hd),
          ⟨hd.symm, hq, hd.symm⟩, Nat.le_add_left_of_le lp, lq, Nat.le_add_left_of_le lm⟩
      · exact ⟨[x], p, q, m, rest, mergeRuns_cons_of_change hx ep (hp ▸ hd), eq, mergeRuns_cons_of_change hx em (hm ▸ hd),
          ⟨hp, hq, hm⟩, lp, lq, lm⟩
    | cons y front =>
      by_cases hd : y.dominant = x.dominant
      · exact ⟨_ :: front, p, q, m, rest, mergeRuns_cons_of_same hx ep hd, eq, mergeRuns_cons_of_same hx em hd, ⟨hp, hq, hm⟩,
          lp, lq, lm⟩
      · exact ⟨x :: y :: front, p, q, m, rest, mergeRuns_cons_of_change hx ep hd, eq, mergeRuns_cons_of_change hx em hd,
          ⟨hp, hq, hm⟩, lp, lq, lm⟩

/-- How long a steady level holds makes no difference to the stretch that it ends. -/
theorem splitStretches_end_congr (before : Option Bool) (levels front : List LevelRun) {p m : LevelRun} (hp : Config.steadyTime ≤ p.length)
    (hm : Config.steadyTime ≤ m.length) (hd : p.dominant = m.dominant) :
    splitStretches before levels (front ++ [p]) = splitStretches before levels (front ++ [m]) := by
  induction front generalizing before levels with
  | nil => cases before <;> cases levels <;> simp [splitStretches, Nat.not_lt.mpr hp, Nat.not_lt.mpr hm, hd]
  | cons x front ih =>
    by_cases hx : x.length < Config.steadyTime
    · simp only [List.cons_append, splitStretches_of_short _ _ _ hx, ih]
    · cases before <;> cases levels <;> simp [splitStretches, hx, ih]

/-- A steady level parts the stretches before it from those after it (R39). -/
theorem stretchesOf_append_steady (earlier later : List LevelRun) {steady : LevelRun} (h : 300 ≤ steady.length) :
    stretchesOf (earlier ++ steady :: later) = stretchesOf (earlier ++ [steady]) ++ stretchesOf (steady :: later) := by
  obtain ⟨front, p, q, m, rest, ep, eq, em, ⟨hp, hq, hm⟩, lp, lq, lm⟩ := mergeRuns_append_cons earlier steady later (by omega)
  have steadied : ∀ x : LevelRun, steady.length ≤ x.length → Config.steadyTime ≤ x.length := fun x hx => h.trans hx
  have begins : splitStretches none [] (q :: rest) = splitStretches (some m.dominant) [] rest := by
    rw [splitStretches_of_steady_first none rest (steadied q lq), hq, hm]
  unfold stretchesOf
  rw [em, ep, eq, splitStretches_append_steady none [] front m rest (steadied m lm), begins,
    splitStretches_end_congr none [] front (steadied p lp) (steadied m lm) (hp.trans hm.symm)]

theorem freeViolations_append_steady (earlier later : List LevelRun) {steady : LevelRun} (h : 300 ≤ steady.length) :
    freeViolations (earlier ++ steady :: later) = freeViolations (earlier ++ [steady]) + freeViolations (steady :: later) := by
  unfold freeViolations
  rw [stretchesOf_append_steady earlier later h, List.filter_append, List.map_append, List.sum_append]

/-! ### The statement -/

/-- Settles O54: steady levels, one stretch between two of them, the parts on the two sides of one, and the dominant run shown. -/
theorem stretchesCountFreeViolations : Obligations.StretchesCountFreeViolations := by
  refine ⟨freeViolations_of_steady, fun before after levels hb ha hl hs halt => ?_, fun earlier later steady h =>
    freeViolations_append_steady earlier later h, fun x y h => runShown_congr x y h, fun later hlater halt => ?_⟩
  · intro activity seen clean
    let x : Stretch := ⟨before.dominant, levels, after.dominant⟩
    have counted : freeViolations activity = if x.clean then 0 else x.violations :=
      freeViolations_of_single (stretchesOf_single hb ha hl hs halt)
    have judged : x.clean = true ↔ clean := Stretch.clean_iff hl (fun r hr => (hs r hr).1)
    refine ⟨fun h => ?_, fun h => ?_⟩
    · rw [counted, if_pos (judged.mpr h)]
    · rw [counted, if_neg (mt judged.mp h)]
      rfl
  · intro units
    have broken : ∀ r ∈ later, readsPassive r = false := by
      intro r hr
      simp only [readsPassive_eq, Bool.and_eq_false_iff, beq_eq_false_iff_ne, decide_eq_false_iff_not, Nat.not_le, ne_eq]
      exact (Classical.em (r.dominant = false)).symm.imp_right (hlater r hr).2
    refine ⟨runShown_dominant later (mergeRuns_of_alternating later (fun r hr => (hlater r hr).1.ne') halt) broken,
      fun earlier passive hp h2 hhead => ?_⟩
    refine runShown_append earlier passive later hp h2 (mergeRuns_of_alternating _ ?_ ?_) broken
    · exact List.forall_mem_cons.mpr ⟨by omega, fun r hr => (hlater r hr).1.ne'⟩
    · cases later with
      | nil => exact List.IsChain.singleton _
      | cons r rest => exact List.isChain_cons_cons.mpr ⟨by rw [hp, hhead r rfl]; decide, halt⟩

end Sys2Proof.Machine
end

section
/-! PROOF LAYER. The answer field: its last position that does not read dominant (R31, R41). -/

namespace Sys2Proof

theorem trailing_of_all {l : List Bool} (h : ∀ x ∈ l, x = true) : trailing l = l.length := by
  have : l.reverse.takeWhile id = l.reverse := List.takeWhile_eq_self_iff.mpr (fun x hx => h x (List.mem_reverse.mp hx))
  rw [trailing, this, List.length_reverse]

theorem trailing_append_false (front : List Bool) {later : List Bool} (h : ∀ x ∈ later, x = true) :
    trailing (front ++ false :: later) = later.length := by
  have all : later.reverse.takeWhile id = later.reverse :=
    List.takeWhile_eq_self_iff.mpr (fun x hx => h x (List.mem_reverse.mp hx))
  rw [trailing, List.reverse_append, List.reverse_cons, List.append_assoc, List.takeWhile_append, all]
  simp

/-- The positions of an answer field: sixteen accept positions and the dissent position. -/
def AnswerReading.positions (r : AnswerReading) : List Bool := (List.range 16).map (fun p => r.accepts.getLsbD p) ++ [r.dissent]

theorem AnswerReading.positions_length (r : AnswerReading) : r.positions.length = 17 := by simp [AnswerReading.positions]

theorem AnswerReading.levelShown_eq (r : AnswerReading) : r.levelShown =
    if trailing r.positions < r.positions.length then .passiveWithin (100 * trailing r.positions + 20) else .nothing := rfl

/-- After position `k`, which does not read dominant, the positions all do: the field shows the lane passive within those and 20 units. -/
theorem AnswerReading.levelShown_of_last {r : AnswerReading} {k : Nat} (hk : k < 17) (h : r.positions[k]? = some false)
    (later : ∀ i, k < i → i < 17 → r.positions[i]? = some true) : r.levelShown = .passiveWithin (100 * (16 - k) + 20) := by
  have hl := r.positions_length
  have cut : r.positions = r.positions.take k ++ false :: r.positions.drop (k + 1) := by
    rw [← List.getElem_of_getElem? h |>.2, List.cons_getElem_drop_succ, List.take_append_drop]
  have count : trailing r.positions = 16 - k := by
    rw [cut, trailing_append_false _ (fun x hx => ?_), List.length_drop, hl]
    · omega
    · obtain ⟨i, hi, rfl⟩ := List.mem_iff_getElem.mp hx
      rw [List.length_drop] at hi
      have e := later (k + 1 + i) (by omega) (by omega)
      rw [List.getElem_drop]
      exact (List.getElem?_eq_some_iff.mp e).2
  rw [AnswerReading.levelShown_eq, count, hl, if_pos (by omega)]

/-- A field in which every position reads dominant shows nothing. -/
theorem AnswerReading.levelShown_of_all {r : AnswerReading} (h : ∀ x ∈ r.positions, x = true) : r.levelShown = .nothing := by
  rw [AnswerReading.levelShown_eq, trailing_of_all h, if_neg (lt_irrefl _)]

theorem AnswerReading.positions_accept (r : AnswerReading) (i : Fin 16) : r.positions[i.val]? = some (r.accepts.getLsbD i.val) := by
  simp [AnswerReading.positions, List.getElem?_append]

theorem AnswerReading.positions_dissent (r : AnswerReading) : r.positions[16]? = some r.dissent := by
  simp [AnswerReading.positions]

/-- The accept positions and the dissent position are all the positions. -/
theorem AnswerReading.forall_positions {P : Nat → Prop} (accept : ∀ i : Fin 16, P i.val) (dissent : P 16) :
    ∀ i < 17, P i := by
  intro i hi
  rcases Nat.lt_succ_iff_lt_or_eq.mp hi with h | rfl
  · exact accept ⟨i, h⟩
  · exact dissent

/-- What an answer field shows of the dominant run, in the words of the statement (R31). -/
theorem AnswerReading.levelShown_spec (r : AnswerReading) :
    (r.dissent = false → r.levelShown = .passiveWithin 20)
    ∧ (∀ k : Fin 16, r.dissent = true → r.accepts.getLsbD k.val = false →
        (∀ i : Fin 16, k < i → r.accepts.getLsbD i.val = true) → r.levelShown = .passiveWithin (1620 - 100 * k.val))
    ∧ (r.dissent = true → (∀ i : Fin 16, r.accepts.getLsbD i.val = true) → r.levelShown = .nothing) := by
  refine ⟨fun h => ?_, fun k hd hk later => ?_, fun hd h => AnswerReading.levelShown_of_all fun x hx => ?_⟩
  · exact AnswerReading.levelShown_of_last (k := 16) (by decide) (by rw [r.positions_dissent, h]) (by omega)
  · have shown := AnswerReading.levelShown_of_last (r := r) (k := k.val) (by omega) (by rw [r.positions_accept, hk]) (fun i hi hl =>
      forall_positions (P := fun i => k.val < i → r.positions[i]? = some true)
        (fun i hi => by rw [r.positions_accept, later i hi]) (fun _ => by rw [r.positions_dissent, hd]) i hl hi)
    rw [shown]
    congr 1
    omega
  · obtain ⟨i, hi, rfl⟩ := List.mem_iff_getElem.mp hx
    have all := forall_positions (P := fun i => r.positions[i]? = some true) (fun i => by rw [r.positions_accept, h])
      (by rw [r.positions_dissent, hd]) i (r.positions_length ▸ hi)
    exact (List.getElem?_eq_some_iff.mp all).2

end Sys2Proof
end

section
/-! PROOF LAYER. Dominant runs and violations at the monitors (R20, R38, R39, R41, R43, R45): LONG_RUN, HELD_RUN, CODE_VIOLATION and
UNCLEAN_STRETCH. -/

namespace Sys2Proof.Machine

open Sys2Proof

/-- A change of one lane writes that lane's value. -/
theorem State.mapLane_eq (s : State) (l : LaneId) (f : Lane → Lane) : s.mapLane l f = { s with lanes := s.lanes.set l (f (s.lanes.get l)) } :=
  rfl

theorem Lane.enabled_iff {x : Lane} : x.enabled = true ↔ x.state ≠ .off := by
  simp [Lane.enabled]

/-- An entry into SURGE leaves the window and the reports of the dominant run alone. -/
theorem Lane.surge_monitor (cause : SurgeCause) (t : Nat) (x : Lane) :
    (x.surge cause t).windowCounter = x.windowCounter ∧ (x.surge cause t).reported = x.reported
    ∧ (x.surge cause t).windowHeld = x.windowHeld := by
  unfold Lane.surge Lane.cutDrive Lane.countViolations
  dsimp only
  split <;> exact ⟨rfl, rfl, rfl⟩

/-! ### Long runs (R41, R43, R45) -/

theorem exec_longRun {l : LaneId} {r : Nat} {s : State} (hs : s.holding = false) (hr : s.reaches r = true) :
    let u := reach r s
    exec (.longRun l r) s = .next (if (u.lanes.get l).givesLongRun then longRunOn l u else u) := by
  change running (dated _ _) s = _
  rw [running_of_free hs, dated_of_reaches _ hr]

theorem Lane.givesLongRun_iff {x : Lane} : x.givesLongRun = true ↔ x.state ≠ .off ∧ (x.reported = .none ∨ 2400 ≤ x.run) := by
  simp only [Lane.givesLongRun, Bool.and_eq_true, Bool.or_eq_true, Lane.enabled_iff, beq_iff_eq, decide_eq_true_eq]
  exact Iff.rfl

/-- The lane whose dominant run has given its long run: the window is held (R41). -/
def Lane.runsLong (x : Lane) : Lane := { x with run := 1200, dominant := true, reported := .long, windowHeld := true }

theorem mapLane_runsLong_get (l : LaneId) (u : State) : (u.mapLane l Lane.runsLong).lanes.get l = (u.lanes.get l).runsLong :=
  PerLane.get_set_same _ _ _

/-- A long run puts a usable lane into SURGE (R43). -/
theorem longRunOn_of_usable {l : LaneId} {u : State} (ho : (u.lanes.get l).state ≠ .off) (hs : (u.lanes.get l).state ≠ .surge) :
    longRunOn l u = enterSurge l .long (u.mapLane l Lane.runsLong) := by
  simp only [longRunOn, State.mapLane_lanes, PerLane.get_set_same]
  cases h : (u.lanes.get l).state with
  | off => exact absurd h ho
  | surge => exact absurd h hs
  | clear => rfl
  | suspect => rfl
  | settling => rfl

/-- In SURGE a long run takes the place of a weaker cause, and else changes the dominant run alone (R45). -/
theorem longRunOn_of_surge {l : LaneId} {u : State} (hs : (u.lanes.get l).state = .surge) :
    longRunOn l u =
      if (u.lanes.get l).cause = some .chatter ∨ (u.lanes.get l).cause = some .drive ∨ (u.lanes.get l).cause = some .echoLate then
        changeCause l .long (u.mapLane l Lane.runsLong)
      else u.mapLane l Lane.runsLong := by
  simp only [longRunOn, State.mapLane_lanes, PerLane.get_set_same, hs]
  split <;> next h => simp only [h]; rfl

/-- What a long run leaves of a usable lane and of the station (R38, R41, R43, R44, R46). -/
theorem longRun_surges {l : LaneId} {u : State} (hs : (u.lanes.get l).state ≠ .surge) :
    let x := u.lanes.get l
    let t := enterSurge l .long (u.mapLane l Lane.runsLong)
    Lane.EntersSurge .long x (t.lanes.get l)
    ∧ (t.lanes.get l).violations = x.violationsCut ∧ (t.lanes.get l).windowCounter = x.windowCounter
    ∧ (t.lanes.get l).run = 1200 ∧ (t.lanes.get l).dominant = true ∧ (t.lanes.get l).reported = .long
    ∧ (t.lanes.get l).windowHeld = true ∧ State.SurgesOn l x.state .long u t := by
  intro x t
  have lane : t.lanes.get l = x.runsLong.surge .long u.clock.timer := by
    rw [show t.lanes.get l = _ from enterSurge_lane .long (by rw [mapLane_runsLong_get]; exact hs), mapLane_runsLong_get]
    rfl
  obtain ⟨enters, violations, -, run, dominant⟩ := Lane.surge_spec .long u.clock.timer x.runsLong
  obtain ⟨counter, reported, held⟩ := Lane.surge_monitor .long u.clock.timer x.runsLong
  rw [← lane] at enters violations run dominant counter reported held
  exact ⟨enters, violations, counter, run, dominant, reported, held, enterSurge_surgesOn .long Lane.runsLong rfl hs⟩

/-! ### Held runs (R41, R45) -/

theorem exec_heldRun {l : LaneId} {r : Nat} {s : State} (hs : s.holding = false) (hr : s.reaches r = true) :
    let u := reach r s
    exec (.heldRun l r) s = .next (if (u.lanes.get l).reported = .long ∧ (u.lanes.get l).run = 50000 then heldRunOn l u else u) := by
  change running (dated _ _) s = _
  rw [running_of_free hs, dated_of_reaches _ hr]
  simp only [Bool.and_eq_true, beq_iff_eq]
  rfl

/-- The lane whose dominant run has given its held run: the window is held (R41). -/
def Lane.runsHeld (x : Lane) : Lane := { x with reported := .held, windowHeld := true }

/-- A held run takes the place of the cause LONG of a SURGE lane (R45). -/
theorem heldRunOn_eq (l : LaneId) (u : State) : heldRunOn l u =
    if (u.lanes.get l).state = .surge ∧ (u.lanes.get l).cause = some .long then changeCause l .held (u.mapLane l Lane.runsHeld)
    else u.mapLane l Lane.runsHeld := by
  simp only [heldRunOn, State.mapLane_lanes, PerLane.get_set_same, Bool.and_eq_true, beq_iff_eq]
  rfl

/-- A change of cause, after a change of the lane, in the words of the statement. -/
theorem changeCause_mapLane (l : LaneId) (cause : SurgeCause) (f : Lane → Lane) (u : State) : changeCause l cause (u.mapLane l f) =
    giveEvent (.laneChanged l .surge .surge (some cause))
      { u with lanes := u.lanes.set l { f (u.lanes.get l) with cause := some cause } } := by
  simp [changeCause, State.mapLane]

/-! ### Framed violations (R20, R36, R38) -/

theorem exec_codeViolation {l : LaneId} {kind : ViolationKind} {r : Nat} {s : State} (hs : s.holding = false)
    (hr : s.reaches r = true) :
    exec (.codeViolation l kind r) s = .next (if arisesAt kind r then framedReport l kind (reach r s) else reach r s) := by
  change running (dated _ _) s = _
  rw [running_of_free hs, dated_of_reaches _ hr]

/-- The violation counter of a lane after a framed violation: it counts on an enabled lane of a station that is aligned (R36, R38). -/
def Lane.framed (validCount : Nat) (x : Lane) : Nat :=
  if 1 ≤ validCount ∧ x.state ≠ .off then min 255 (x.violations + 1) else x.violations

/-- A framed violation and what else its report writes of the lane, as one change. -/
theorem countFramed_mapLane (l : LaneId) (f : Lane → Lane) (u : State) : (countFramed l u).mapLane l f
    = u.mapLane l (fun x => f { x with violations := x.framed u.clock.validCount }) := by
  have counts : (u.aligned && (u.lanes.get l).enabled) = true ↔ 1 ≤ u.clock.validCount ∧ (u.lanes.get l).state ≠ .off := by
    rw [Bool.and_eq_true, Lane.enabled_iff, State.aligned, decide_eq_true_eq]
  unfold countFramed
  by_cases h : 1 ≤ u.clock.validCount ∧ (u.lanes.get l).state ≠ .off
  · rw [if_pos (counts.mpr h)]
    simp [State.mapLane, Lane.framed, Lane.countViolations, h]
  · rw [if_neg (mt counts.mp h), State.mapLane, State.mapLane]
    simp only [Lane.framed, if_neg h]

/-- A violation in the field, or in the mark, counts once in it (R20, R38). -/
theorem framedReport_field {l : LaneId} {kind : ViolationKind} {u : State} {n : Nat} (hk : kind ≠ .guardInterval)
    (hn : u.clock.validCount = n) : framedReport l kind u =
      if (u.lanes.get l).fieldFlaw then u
      else u.mapLane l (fun x => { x with fieldFlaw := true, violations := x.framed n }) := by
  subst hn
  cases kind with
  | guardInterval => exact absurd rfl hk
  | field => exact congrArg (ite _ _) (countFramed_mapLane l (fun x => { x with fieldFlaw := true }) u)
  | mark => exact congrArg (ite _ _) (countFramed_mapLane l (fun x => { x with fieldFlaw := true }) u)

theorem Lane.changeLevel_eq (x : Lane) : x.changeLevel =
    if x.dominant then { x with run := 0, dominant := false, reported := .none }
    else if x.state ≠ .off then { x with run := 0, dominant := true, reported := .none } else x := by
  simp only [Lane.changeLevel, ← Lane.enabled_iff]
  rfl

/-- The violation counter has no part in a change of level. -/
theorem Lane.changeLevel_withViolations (n : Nat) (x : Lane) :
    ({ x with violations := n } : Lane).changeLevel = { x.changeLevel with violations := n } := by
  rw [Lane.changeLevel_eq, Lane.changeLevel_eq]
  dsimp only
  by_cases hd : x.dominant = true
  · rw [if_pos hd, if_pos hd]
  · by_cases ho : x.state ≠ .off
    · rw [if_neg hd, if_neg hd, if_pos ho, if_pos ho]
    · rw [if_neg hd, if_neg hd, if_neg ho, if_neg ho]

/-- A change of level in a guard interval counts once in it, apart from the field, and is told to the dominant-run timer (R20, R41). -/
theorem framedReport_guard {l : LaneId} {u : State} {n : Nat} (hn : u.clock.validCount = n) : framedReport l .guardInterval u =
    if (u.lanes.get l).guardFlaw then u.mapLane l Lane.changeLevel
    else u.mapLane l (fun x => { x.changeLevel with guardFlaw := true, violations := x.framed n }) := by
  subst hn
  refine congrArg (ite _ _) ((countFramed_mapLane l _ u).trans (congrArg (u.mapLane l) (funext fun x => ?_)))
  rw [Lane.changeLevel_withViolations]

/-- A report that can arise, and only the first of its field, changes the state. -/
theorem ite_first_report {p : Prop} [Decidable p] {arises flaw : Bool} {u v : State} (h : arises = true ↔ p) :
    (if arises then (if flaw then u else v) else u) = if p ∧ flaw = false then v else u := by
  rw [if_congr h rfl rfl]
  by_cases hp : p <;> cases flaw <;> simp [hp]

theorem inGuard_iff {t : Nat} : inGuard t = true
    ↔ (3500 ≤ t ∧ t < 3600) ∨ (5000 ≤ t ∧ t < 24200 ∧ (t - 5000) % 800 < 100) ∨ (24200 ≤ t ∧ t < 24800) := by
  simp only [inGuard, Bool.or_eq_true, Bool.and_eq_true, decide_eq_true_eq, and_assoc, or_assoc]
  exact Iff.rfl

theorem inCodedField_iff {t : Nat} : inCodedField t = true ↔ (800 ≤ t ∧ t < 1800) ∨ (3600 ≤ t ∧ t < 24200) := by
  simp only [inCodedField, Bool.or_eq_true, Bool.and_eq_true, decide_eq_true_eq]
  exact Iff.rfl

/-! ### The activity of a lane (R36, R39, R41) -/

theorem exec_uncleanStretch {l : LaneId} {activity : List LevelRun} {s : State} (hs : s.holding = false) :
    exec (.uncleanStretch l activity) s
      = .next (if (s.lanes.get l).enabled then s.mapLane l (countActivity s.aligned activity) else s) := running_of_free hs

/-- The violation counter of a lane after its activity: free violations count while the station is not aligned (R38, R39). -/
def Lane.unframed (validCount : Nat) (activity : List LevelRun) (x : Lane) : Nat :=
  if validCount = 0 then min 255 (x.violations + freeViolations activity) else x.violations

/-- The free violations count while the station is not aligned, and the activity tells of the dominant run (R38, R39). -/
theorem countActivity_eq (s : State) (activity : List LevelRun) (x : Lane) : countActivity s.aligned activity x =
    Lane.tell (runShown activity) { x with violations := x.unframed s.clock.validCount activity } := by
  have aligned : s.aligned = !decide (s.clock.validCount = 0) := by
    unfold State.aligned
    rw [← decide_not]
    exact decide_eq_decide.mpr Nat.one_le_iff_ne_zero
  unfold countActivity
  rw [aligned]
  by_cases h : s.clock.validCount = 0 <;> simp [h, Lane.countViolations, Lane.unframed]

theorem Lane.tell_passiveWithin_zero (x : Lane) : x.tell (.passiveWithin 0) = { x with run := 0, dominant := false, reported := .none } := by
  rw [show x.tell (.passiveWithin 0) = if 0 ≤ x.run then x.endRun else x from rfl, if_pos (Nat.zero_le _), Lane.endRun]

/-- A run of another length than the counted one, as a reading shows it: above 1200 it has given its long run (R41). -/
theorem Lane.readRun_of_ne {n : Nat} {x : Lane} (h : n ≠ x.run) : x.readRun n =
    { x with run := min 50000 n, dominant := decide (0 < n), reported := if n ≤ 1200 then .none else .long,
             windowHeld := x.windowHeld || decide (1200 < n) } := if_neg h

theorem Lane.readRun_self (x : Lane) : x.readRun x.run = x := if_pos rfl

/-- A rise within the activity gives the run since (R41). -/
theorem Lane.tell_risen {x : Lane} (hx : x.state ≠ .off) (n : Nat) : x.tell (.risen n) =
    if n = x.run then { x with dominant := true }
    else { x with run := min 50000 n, dominant := true, reported := if n ≤ 1200 then .none else .long,
                  windowHeld := x.windowHeld || decide (1200 < n) } := by
  rw [show x.tell (.risen n) = { x.readRun n with dominant := true } from if_pos (Lane.enabled_iff.mpr hx)]
  split
  · next h => rw [h, Lane.readRun_self]
  · next h => rw [Lane.readRun_of_ne h]

/-- A lane dominant throughout its activity has run for so long at the least (R41). -/
theorem Lane.tell_dominantFor {x : Lane} (hx : x.state ≠ .off) (n : Nat) : x.tell (.dominantFor n) =
    if n ≤ x.run then x
    else { x with run := min 50000 n, dominant := true, reported := if n ≤ 1200 then .none else .long,
                  windowHeld := x.windowHeld || decide (1200 < n) } := by
  have test : (x.enabled && decide (x.run < n)) = true ↔ ¬ n ≤ x.run := by
    rw [Lane.enabled_iff.mpr hx, Bool.true_and, decide_eq_true_eq, Nat.not_le]
  rw [show x.tell (.dominantFor n) = if x.enabled && decide (x.run < n) then x.readRun n else x from rfl, if_congr test rfl rfl, ite_not]
  split
  · rfl
  · next h => rw [Lane.readRun_of_ne (by omega), decide_eq_true (by omega : 0 < n)]

end Sys2Proof.Machine
end

section
/-! PROOF LAYER. The closes of the fields: what their readings make of the dominant runs (R41). -/

namespace Sys2Proof.Machine

open Sys2Proof

/-- What a reading makes of a dominant run depends on the run and on whether the lane is enabled. -/
theorem Lane.tell_runView_congr (shown : LevelShown) {x y : Lane} (h : y.runView = x.runView) (hs : y.state = x.state) :
    (y.tell shown).runView = (x.tell shown).runView := by
  simp only [Lane.runView, Prod.mk.injEq] at h
  obtain ⟨run, dominant, reported⟩ := h
  unfold Lane.tell Lane.readRun Lane.endRun Lane.enabled
  rw [run, hs]
  cases shown with
  | passiveWithin n => by_cases hn : n ≤ x.run <;> simp [hn, Lane.runView, run, dominant, reported]
  | dominantFor n =>
    by_cases hn : (x.state != .off && decide (x.run < n)) = true <;> by_cases he : n = x.run <;>
      simp [hn, he, Lane.runView, run, dominant, reported]
  | risen n =>
    by_cases hn : (x.state != .off) = true <;> by_cases he : n = x.run <;> simp [hn, he, Lane.runView, run, dominant, reported]
  | nothing => simp [Lane.runView, run, dominant, reported]

theorem tellLevels_runs_congr (a b : LevelShown) {s t : State} (h : t.runs = s.runs)
    (hs : ∀ l, (t.lanes.get l).state = (s.lanes.get l).state) : (tellLevels a b t).runs = (tellLevels a b s).runs :=
  congrArg₂ PerLane.mk (Lane.tell_runView_congr a (State.runView_of_runs h .a) (hs .a))
    (Lane.tell_runView_congr b (State.runView_of_runs h .b) (hs .b))

theorem tellLevels_runs_of_lanes (a b : LevelShown) {s t : State} (h : t.lanes = s.lanes) :
    (tellLevels a b t).runs = (tellLevels a b s).runs :=
  tellLevels_runs_congr a b (State.runs_of_lanes h) (fun l => by rw [h])

theorem countHeader_lane_state (id : LaneId) (r : BlockReading) (s : State) (l : LaneId) :
    ((countHeader id r s).lanes.get l).state = (s.lanes.get l).state := by
  unfold countHeader countFramed
  split
  · split
    · by_cases h : l = id
      · simp [h, Lane.countViolations]
      · simp [PerLane.get_set_of_ne _ _ h]
    · rfl
  · rfl

/-- The violation of a bad header has no part in the dominant runs. -/
theorem tellLevels_countHeader_runs (a b : LevelShown) (x y : BlockReading) (s : State) :
    (tellLevels a b (countHeader .b y (countHeader .a x s))).runs = (tellLevels a b s).runs :=
  tellLevels_runs_congr a b (by simp) (fun l => by rw [countHeader_lane_state, countHeader_lane_state])

theorem dropAnswer_runs (s : State) : (dropAnswer s).runs = s.runs := rfl

theorem clearHanded_runs (n : Nat) (s : State) : (clearHanded n s).runs = s.runs := rfl

theorem learnHeader_runs (m : Copy Block) (s : State) : (learnHeader m s).runs = s.runs := State.runs_of_lanes (by simp)

theorem takeResents_runs (m : Copy Block) (s : State) : (takeResents m s).runs = s.runs := State.runs_of_lanes (by simp)

theorem takeMarks_runs (a b : MarkReading) (leadInFirst : Bool) (s : State) :
    (takeMarks a b leadInFirst s).runs = (tellLevels (a.levelShown 800) (b.levelShown 800) s).runs := closeMark_runs _ _ _ _

theorem closeNotice_runs (a b : NoticeReading) (order : CloseOrder) (s : State) :
    (closeNotice a b order s).runs = (tellLevels a.levelShown b.levelShown s).runs := by
  have answers : ∀ (c : Bool) (t : State), (applyIf c startAnswer t).runs = t.runs := by
    intro c t
    cases c
    · rfl
    · exact startAnswer_runs t
  unfold closeNotice
  dsimp only
  rw [answers, beginField_runs, foldl_runs _ (fun s step => noticeStep_runs _ _ _ s step)]
  exact tellLevels_runs_of_lanes _ _ (by split <;> simp)

theorem closeAnswers_runs (a b : AnswerReading) (sendFirst : Bool) (s : State) :
    (closeAnswers a b sendFirst s).runs = (tellLevels a.levelShown b.levelShown s).runs := by
  unfold closeAnswers
  dsimp only
  rw [beginField_runs, dropAnswer_runs]
  split
  · exact State.runs_of_lanes (by simp)
  · rw [loseAnswers_runs]
    rfl

theorem closeRepair_runs (a b : BlockReading) (s : State) :
    (closeRepair a b s).runs = (tellLevels (a.levelShown 1400) (b.levelShown 1400) s).runs := by
  unfold closeRepair
  dsimp only
  rw [beginField_runs, takeResents_runs, learnHeader_runs, takeHeader_runs]
  exact tellLevels_countHeader_runs _ _ a b s

theorem passSlot_runs (n : Nat) (a b : BlockReading) (order : List PassStep) (s : State) :
    (passSlot n a b order s).runs = (tellLevels (a.levelShown 800) (b.levelShown 800) s).runs := by
  unfold passSlot
  dsimp only
  rw [beginField_runs, clearHanded_runs, foldl_runs _ (fun s step => passStep_runs _ _ s step)]
  exact tellLevels_countHeader_runs _ _ a b s

/-- A field event that is due tells what its readings show. -/
theorem told_of_fieldEvent {k : Nat} {f : State → State} {s t : State} {a b : LevelShown} (hs : s.holding = false)
    (hd : s.due k = true) (e : running (fieldEvent k f) s = .next t) (hf : ∀ u, (f u).runs = (tellLevels a b u).runs) :
    Lane.Told a (atEvent k s).lanes.a t.lanes.a ∧ Lane.Told b (atEvent k s).lanes.b t.lanes.b := by
  rw [running_fieldEvent_of_due f hs hd] at e
  cases e
  exact told_of_runs a b _ _ (hf _)

end Sys2Proof.Machine
end

section
/-! PROOF LAYER. Runs and violations at the monitors, settled. -/

namespace Sys2Proof.Machine

open Sys2Proof

/-- Settles O51: the reports of the dominant run, the violations, the activity, and what each close tells of the dominant runs. -/
theorem monitorsTakeRunsAndViolations : Obligations.MonitorsTakeRunsAndViolations := by
  refine ⟨fun l r s hs hr => ?_, fun s t hs => ?_, fun levels h => levelShown_allDominant levels h 800, levelShown_ticks,
    fun _ _ _ => rfl, fun header check payload blockCheck field h => levelShown_block header check payload blockCheck field h,
    fun r => r.levelShown_spec, rfl, rfl, rfl, rfl, rfl, rfl, fun _ => ⟨rfl, rfl, rfl⟩⟩
  · intro u x become long passive counted changed first guarded coded
    have count : u.clock.validCount = s.clock.validCount := by simp [u]
    have gives : x.givesLongRun = true ↔ first := Lane.givesLongRun_iff
    have longs := exec_longRun (l := l) hs hr
    have helds := exec_heldRun (l := l) hs hr
    have codes := fun kind => exec_codeViolation (l := l) (kind := kind) hs hr
    refine ⟨fun h => ?_, fun h hx => ?_, fun h hx hc => ?_, fun h hx h1 h2 h3 => ?_, fun h => ?_, fun h1 h2 hx hc => ?_,
      fun h1 h2 h => ?_, ?_, ?_, ?_, fun activity => ?_⟩
    · rw [longs, if_neg (mt gives.mp h)]
    · exact ⟨_, by rw [longs, if_pos (gives.mpr h), longRunOn_of_usable h.1 hx], longRun_surges hx⟩
    · rw [longs, if_pos (gives.mpr h), longRunOn_of_surge hx, if_pos hc, changeCause_mapLane]
      rfl
    · rw [longs, if_pos (gives.mpr h), longRunOn_of_surge hx, if_neg (by rintro (h | h | h) <;> contradiction)]
      rfl
    · rw [helds, if_neg h]
    · rw [helds, if_pos ⟨h1, h2⟩, heldRunOn_eq, if_pos ⟨hx, hc⟩, changeCause_mapLane]
      rfl
    · rw [helds, if_pos ⟨h1, h2⟩, heldRunOn_eq, if_neg h]
      rfl
    · rw [codes, framedReport_field (by decide) count]
      exact congrArg _ (ite_first_report inCodedField_iff)
    · rw [codes, framedReport_field (by decide) count]
      exact congrArg _ (ite_first_report decide_eq_true_iff)
    · have level : changed = x.changeLevel := (Lane.changeLevel_eq x).symm
      rw [codes, framedReport_guard count, level]
      exact congrArg _ (if_congr inGuard_iff rfl rfl)
    · intro now violations become judged ran
      have taken := exec_uncleanStretch (l := l) (activity := activity) hs
      refine ⟨fun h => by rw [taken, if_neg (mt Lane.enabled_iff.mp (not_not.mpr h))], fun h => ?_⟩
      have tells : ∀ y, judged.tell (runShown activity) = y → become y := by
        rintro _ rfl
        change exec _ _ = _
        rw [taken, if_pos (Lane.enabled_iff.mpr h), State.mapLane_eq, countActivity_eq]
        rfl
      refine ⟨fun e => tells _ ?_, fun n e => tells _ ?_, fun n e => tells _ ?_⟩
      · rw [e, Lane.tell_passiveWithin_zero]
      · rw [e]
        exact Lane.tell_risen (x := judged) h n
      · rw [e]
        exact Lane.tell_dominantFor (x := judged) h n
  · intro told
    refine ⟨fun a b leadInFirst hd e => ?_, fun a b order hd e => ?_, fun a b sendFirst hd e => ?_, fun a b hd e => ?_,
      fun n a b order hd e => ?_⟩
    · exact told_of_fieldEvent hs hd e (takeMarks_runs a b leadInFirst)
    · exact told_of_fieldEvent hs hd (checked_next e).2 (closeNotice_runs a b order)
    · exact told_of_fieldEvent hs hd e (closeAnswers_runs a b sendFirst)
    · exact told_of_fieldEvent hs hd e (closeRepair_runs a b)
    · exact told_of_fieldEvent hs hd (checked_next e).2 (passSlot_runs n.val a b order)

end Sys2Proof.Machine
end

section
/-! PROOF LAYER. What the station makes of a change of its lanes: the end of the repair turn, and the beginning and the end of DARK (R54, R66,
R132, R169, R170). -/

namespace Sys2Proof.Machine

open Sys2Proof

/-! ### A lane whose drive may have been cut (R22, R132) -/

/-- The lane stands, or its drive has been cut. -/
def Lane.SameOrCut (x y : Lane) : Prop := y = x ∨ y = x.cutDrive

theorem Lane.SameOrCut.refl (x : Lane) : x.SameOrCut x := .inl rfl

theorem Lane.cutDrive_eq (x : Lane) : x.cutDrive = { x with drive := if x.Drives then .cut else x.drive } := by
  by_cases h : x.Drives
  · have cuts : (x.drive == .contending || x.drive == .driving) = true := by simpa [Lane.Drives] using h
    rw [Lane.cutDrive, if_pos cuts, if_pos h]
  · rw [Lane.cutDrive_of_idle h, if_neg h]

theorem Lane.cutDrive_not_drives (x : Lane) : ¬ x.cutDrive.Drives := by
  rw [Lane.cutDrive_eq]
  by_cases h : x.Drives
  · simp [Lane.Drives, h]
  · simpa only [Lane.Drives, if_neg h] using h

theorem Lane.cutDrive_cutDrive (x : Lane) : x.cutDrive.cutDrive = x.cutDrive := Lane.cutDrive_of_idle x.cutDrive_not_drives

theorem Lane.SameOrCut.trans {x y z : Lane} (h : x.SameOrCut y) (g : y.SameOrCut z) : x.SameOrCut z := by
  rcases h with rfl | rfl
  · exact g
  · rcases g with rfl | rfl
    · exact .inr rfl
    · exact .inr x.cutDrive_cutDrive

theorem Lane.SameOrCut.state {x y : Lane} (h : x.SameOrCut y) : y.state = x.state := by
  rcases h with rfl | rfl
  · rfl
  · exact x.cutDrive_state

theorem Lane.SameOrCut.cause {x y : Lane} (h : x.SameOrCut y) : y.cause = x.cause := by
  rcases h with rfl | rfl
  · rfl
  · rw [Lane.cutDrive_eq]

/-- The lanes of two states agree, but for drives that were cut. -/
def State.LanesSameOrCut (v t : State) : Prop := ∀ k, (v.lanes.get k).SameOrCut (t.lanes.get k)

theorem State.LanesSameOrCut.trans {s v t : State} (h : s.LanesSameOrCut v) (g : v.LanesSameOrCut t) : s.LanesSameOrCut t :=
  fun k => (h k).trans (g k)

theorem State.LanesSameOrCut.of_eq {v t : State} (h : t.lanes = v.lanes) : v.LanesSameOrCut t := fun _ => h ▸ .refl _

theorem State.LanesSameOrCut.dark {v t : State} (h : v.LanesSameOrCut t) : darkCondition t.lanes = darkCondition v.lanes :=
  darkCondition_congr fun k => (h k).state

theorem dropTurn_sameOrCut (s : State) : s.LanesSameOrCut (dropTurn s) := dropTurn_lanes_get s

theorem dropTurnIfMute_sameOrCut (s : State) : s.LanesSameOrCut (dropTurnIfMute s) := dropTurnIfMute_lanes_get s

theorem changeMode_sameOrCut (m : Mode) (cause : ModeCause) (s : State) : s.LanesSameOrCut (changeMode m cause s) := by
  intro k
  rw [show (changeMode m cause s).lanes = (if m == .joined then s else dropTurn s).lanes from rfl]
  split
  · exact .refl _
  · exact dropTurn_sameOrCut s k

theorem enterDark_sameOrCut (back : Mode) (s : State) : s.LanesSameOrCut (enterDark back s) := by
  have flight : s.LanesSameOrCut (endFlightOnLeaving (discardLearning s)) := .of_eq (by simp)
  exact flight.trans (changeMode_sameOrCut .dark .darkOnset _)

theorem darkOnset_sameOrCut (s : State) : s.LanesSameOrCut (darkOnset s) := by
  unfold darkOnset
  split
  iterate 3 exact enterDark_sameOrCut _ s
  iterate 3 exact .of_eq rfl

theorem enterResync_sameOrCut (cause : ModeCause) (epoch : Epoch) (s : State) : s.LanesSameOrCut (enterResync cause epoch s) :=
  (changeMode_sameOrCut .resync cause s).trans (.of_eq rfl)

/-! ### What a change of the lanes leaves of the station -/

/-- Only the lanes, the repair turn and the management port differ; a turn that is over stays over, and a latched SURGE stays latched. -/
def State.LanesOnly (s t : State) : Prop :=
  t = { s with lanes := t.lanes, repair := { s.repair with turn := t.repair.turn }, mgmt := t.mgmt }
  ∧ (s.repair.turn = false → t.repair.turn = false) ∧ (s.mgmt.latched.surge = true → t.mgmt.latched.surge = true)

theorem State.LanesOnly.refl (s : State) : s.LanesOnly s := ⟨rfl, id, id⟩

theorem State.LanesOnly.trans {s v t : State} (h : s.LanesOnly v) (g : v.LanesOnly t) : s.LanesOnly t := by
  obtain ⟨hv, hturn, hlatch⟩ := h
  obtain ⟨ht, gturn, glatch⟩ := g
  refine ⟨?_, gturn ∘ hturn, glatch ∘ hlatch⟩
  rw [ht, hv]

theorem State.LanesOnly.ctrl {s t : State} (h : s.LanesOnly t) : t.ctrl = s.ctrl := by rw [h.1]

theorem State.LanesOnly.clock {s t : State} (h : s.LanesOnly t) : t.clock = s.clock := by rw [h.1]

theorem State.LanesOnly.mapLane (s : State) (l : LaneId) (f : Lane → Lane) : s.LanesOnly (s.mapLane l f) := ⟨rfl, id, id⟩

theorem State.LanesOnly.event (s : State) (e : Event) : s.LanesOnly (giveEvent e s) := ⟨rfl, id, giveEvent_surge_latched e⟩

theorem State.LanesOnly.dropTurnIfMute (s : State) : s.LanesOnly (dropTurnIfMute s) := by
  refine ⟨?_, fun h => by rw [dropTurnIfMute_turn, h, Bool.false_and], fun h => by simpa using h⟩
  conv_lhs => rw [dropTurnIfMute_eq]
  simp

/-! ### The beginning of DARK (R103, R169) -/

/-- DARK has begun: learning, the flight, the answer plan and the repair turn have ended; a roll call goes on (R65, R66, R103, R132, R169). -/
def State.BeginsDark (s t : State) : Prop :=
  t.ctrl = { s.ctrl with
    mode := .dark, darkRounds := some 0, returnMode := some s.ctrl.mode, alone := none, lockTaken := none, startCount := none }
  ∧ t.table = { s.table with learning := none } ∧ t.repair.turn = false ∧ t.mgmt.latched.surge = true
  ∧ t.notices.flight = none ∧ t.notices.plan = none ∧ t.notices.tentative = none
  ∧ t.notices.rollCall = s.notices.rollCall
  ∧ (∀ q ∈ t.notices.queue, q.inFlight = false) ∧ t.recv = s.recv ∧ t.hold = s.hold ∧ t.pending = s.pending

/-- The modes that a station leaves for DARK (R162, R169). -/
def Mode.LeavesForDark (m : Mode) : Prop := m = .listening ∨ m = .joined ∨ m = .resync

/-- The notices as no flight is under way. -/
def State.FlightOver (s : State) : Prop := s.notices.flight = none ∧ ∀ q ∈ s.notices.queue, q.inFlight = false

theorem clearFlight_over (s : State) : (clearFlight s).FlightOver := ⟨rfl, by simp⟩

theorem removeInFlight_over (s : State) : (removeInFlight s).FlightOver := ⟨rfl, by simp [removeInFlight]⟩

theorem withdrawnEnds_notices_table (q : Queued) (o : OutcomeRecord) (s : State) :
    (withdrawnEnds q o s).notices = s.notices ∧ (withdrawnEnds q o s).table = s.table := by simp

theorem endFlightLost_over (s : State) : (endFlightLost s).FlightOver := by
  unfold endFlightLost
  split
  · exact clearFlight_over s
  · split
    · unfold State.FlightOver
      rw [(withdrawnEnds_notices_table _ _ _).1]
      exact removeInFlight_over s
    · exact clearFlight_over s

theorem carryPending_of_not_learning {s : State} (h : s.table.learning = none) : carryPending s = s := by
  simp [carryPending, h]

/-- The end of a flight without an answer, while nothing is learned: the table stands (R95, R101). -/
theorem endFlightUnanswered_over {s : State} (h : s.table.learning = none) :
    (endFlightUnanswered s).FlightOver ∧ (endFlightUnanswered s).table = s.table := by
  unfold endFlightUnanswered
  split
  · exact ⟨clearFlight_over s, rfl⟩
  · split
    · exact ⟨removeInFlight_over s, rfl⟩
    · rw [carryPending_of_not_learning (by simpa using h)]
      exact ⟨clearFlight_over _, rfl⟩
    iterate 2 exact ⟨clearFlight_over s, rfl⟩

/-- A flight that ends as the station leaves, while nothing is learned: the answer plan has ended with it, and the table stands (R103). -/
theorem endFlightOnLeaving_over {s : State} (h : s.table.learning = none) :
    (endFlightOnLeaving s).FlightOver ∧ (endFlightOnLeaving s).table = s.table := by
  unfold endFlightOnLeaving
  split
  · have ends := endFlightUnanswered_over (s := recordUnread (recordSent s)) (by simpa using h)
    exact ⟨ends.1, ends.2.trans (by simp)⟩
  · exact ⟨endFlightLost_over s, by simp⟩

/-- The station enters DARK, once its repair turn has ended and SURGE is latched. -/
theorem enterDark_begins {s : State} (turn : s.repair.turn = false) (latched : s.mgmt.latched.surge = true) :
    s.BeginsDark (enterDark s.ctrl.mode s) := by
  obtain ⟨latched', turn', -⟩ := enterDark_turnOver (lanes := s.lanes) s.ctrl.mode ⟨latched, turn, rfl⟩
  obtain ⟨⟨flight, queue⟩, table⟩ := endFlightOnLeaving_over (s := discardLearning s) rfl
  have notices : (enterDark s.ctrl.mode s).notices = (endFlightOnLeaving (discardLearning s)).notices := by simp [enterDark]
  refine ⟨?_, ?_, turn', latched', ?_, ?_, ?_, ?_, ?_, ?_, ?_, ?_⟩
  · simp [enterDark, changeMode]
  · exact (show (enterDark s.ctrl.mode s).table = (endFlightOnLeaving (discardLearning s)).table by simp [enterDark]).trans table
  · rw [notices, flight]
  · rw [notices]; rfl
  · rw [notices]; rfl
  · simp
  · rw [notices]; exact queue
  · simp
  · simp
  · simp

theorem darkOnset_begins {s : State} (turn : s.repair.turn = false) (latched : s.mgmt.latched.surge = true)
    (mode : s.ctrl.mode.LeavesForDark) : s.BeginsDark (darkOnset s) := by
  have enters := enterDark_begins turn latched
  unfold darkOnset
  rcases mode with h | h | h
  all_goals rw [h] at enters ⊢; exact enters

theorem State.BeginsDark.before {s v t : State} (h : s.LanesOnly v) (g : v.BeginsDark t) : s.BeginsDark t := by
  obtain ⟨hv, -⟩ := h
  rw [hv] at g
  exact g

theorem State.BeginsDark.after {s v t : State} (h : s.BeginsDark v) (g : v.LanesOnly t) : s.BeginsDark t := by
  obtain ⟨ctrl, table, turn, latched, rest⟩ := h
  obtain ⟨ht, gturn, glatch⟩ := g
  refine ⟨?_, ?_, gturn turn, glatch latched, ?_⟩
  · rw [ht]; exact ctrl
  · rw [ht]; exact table
  · rw [ht]; exact rest

/-! ### The end of DARK (R66, R170) -/

/-- DARK has ended: to JOINED after a short spell without a pending claim, to LISTENING if the station came from there, and otherwise to
RESYNC, learning from the station's own epoch (R66, R170). -/
def State.EndsDark (s t : State) : Prop :=
  t.ctrl.darkRounds = none ∧ t.ctrl.returnMode = none
  ∧ ∀ back : Mode, s.ctrl.returnMode = some back → ∀ spell : Nat, s.ctrl.darkRounds = some spell →
    let claims := ∃ q ∈ s.notices.queue, q.pending = true
    (back = .joined → spell < 64 → ¬ claims → t.ctrl.mode = .joined ∧ t.table = s.table)
    ∧ (back = .joined ∧ (64 ≤ spell ∨ claims) ∨ back = .resync → t.ctrl.mode = .resync
        ∧ ∃ L, t.table.learning = some L ∧ L.epoch = some s.table.epoch ∧ L.rounds = 0)
    ∧ (back = .listening → t.ctrl.mode = .listening ∧ t.ctrl.alone = some 0 ∧ t.ctrl.lockTaken = some false
        ∧ t.table = s.table)

theorem pendingRuns_isEmpty_iff {s : State} : (pendingRuns s).isEmpty = true ↔ ¬ ∃ q ∈ s.notices.queue, q.pending = true := by
  unfold pendingRuns
  split
  · next q h => simpa using ⟨q, List.mem_of_find?_eq_some h, by simpa using List.find?_some h⟩
  · next h => simpa using h

@[simp] theorem changeMode_ctrl (m : Mode) (cause : ModeCause) (s : State) :
    (changeMode m cause s).ctrl = { s.ctrl with mode := m } := by
  unfold changeMode
  split <;> simp

/-- The station as DARK ends, before its next mode: the state of the mode is gone. -/
def State.lit (s : State) : State := { s with ctrl := { s.ctrl with darkRounds := none, returnMode := none } }

theorem darkEnd_of_joined {s : State} (hm : s.ctrl.mode = .dark) (hb : s.ctrl.returnMode = some .joined) :
    darkEnd s = if s.ctrl.darkRounds.getD 0 < 64 ∧ ¬ ∃ q ∈ s.notices.queue, q.pending = true then changeMode .joined .darkEnd s.lit
      else enterResync .darkEnd s.table.epoch s.lit := by
  unfold darkEnd
  simp only [State.lit, hm, hb, Bool.and_eq_true, decide_eq_true_eq, pendingRuns_isEmpty_iff]
  rfl

theorem darkEnd_of_resync {s : State} (hm : s.ctrl.mode = .dark) (hb : s.ctrl.returnMode = some .resync) :
    darkEnd s = enterResync .darkEnd s.table.epoch s.lit := by
  unfold darkEnd
  simp only [State.lit, hm, hb]

/-- From any other return mode, or none, the station goes to LISTENING. -/
theorem darkEnd_of_other {s : State} (hm : s.ctrl.mode = .dark) (hj : s.ctrl.returnMode ≠ some .joined)
    (hr : s.ctrl.returnMode ≠ some .resync) :
    darkEnd s = { changeMode .listening .darkEnd s.lit with
      ctrl := { (changeMode .listening .darkEnd s.lit).ctrl with alone := some 0, lockTaken := some false } } := by
  unfold darkEnd
  simp only [State.lit, hm]

theorem enterResync_ctrl (cause : ModeCause) (epoch : Epoch) (s : State) :
    (enterResync cause epoch s).ctrl = { s.ctrl with mode := .resync } := by simp [enterResync]

/-- Entry into RESYNC begins learning, from the given epoch (R66). -/
theorem enterResync_learns (cause : ModeCause) (epoch : Epoch) (s : State) :
    ∃ L, (enterResync cause epoch s).table.learning = some L ∧ L.epoch = some epoch ∧ L.rounds = 0 := ⟨_, rfl, rfl, rfl⟩

theorem darkEnd_sameOrCut (s : State) : s.LanesSameOrCut (darkEnd s) := by
  have change : ∀ m, s.LanesSameOrCut (changeMode m .darkEnd s.lit) := fun m => changeMode_sameOrCut m .darkEnd s.lit
  have resync : s.LanesSameOrCut (enterResync .darkEnd s.table.epoch s.lit) := enterResync_sameOrCut .darkEnd s.table.epoch s.lit
  unfold darkEnd
  split
  · dsimp only
    split
    · split
      · exact change .joined
      · exact resync
    · exact resync
    · exact change .listening
  iterate 5 exact .of_eq rfl

theorem darkEnd_ends {s : State} (mode : s.ctrl.mode = .dark) : s.EndsDark (darkEnd s) := by
  have ended : (darkEnd s).ctrl.darkRounds = none ∧ (darkEnd s).ctrl.returnMode = none := by
    unfold darkEnd
    simp only [mode]
    (repeat' split) <;> simp [enterResync_ctrl]
  refine ⟨ended.1, ended.2, fun back hb spell hd => ⟨fun hj short quiet => ?_, fun h => ?_, fun hl => ?_⟩⟩
  · rw [darkEnd_of_joined mode (by rw [hb, hj]), hd, if_pos ⟨short, quiet⟩]
    simp [State.lit]
  · have resync : darkEnd s = enterResync .darkEnd s.table.epoch s.lit := by
      rcases h with ⟨hj, h⟩ | hr
      · rw [darkEnd_of_joined mode (by rw [hb, hj]), hd]
        refine if_neg fun ⟨short, quiet⟩ => ?_
        rcases h with long | claims
        · exact absurd short (by simpa using long)
        · exact quiet claims
      · exact darkEnd_of_resync mode (by rw [hb, hr])
    rw [resync]
    exact ⟨by rw [enterResync_ctrl], enterResync_learns _ _ _⟩
  · rw [darkEnd_of_other mode (by rw [hb, hl]; decide) (by rw [hb, hl]; decide)]
    simp [State.lit]

theorem State.EndsDark.before {s v t : State} (h : s.LanesOnly v) (g : v.EndsDark t) : s.EndsDark t := by
  obtain ⟨hv, -⟩ := h
  rw [hv] at g
  exact g

theorem State.EndsDark.after {s v t : State} (h : s.EndsDark v) (g : v.LanesOnly t) : s.EndsDark t := by
  obtain ⟨ht, -⟩ := g
  rw [ht]
  exact h

/-! ### The station meets a change of its lanes (R54, R132) -/

/-- What the station, whose lanes have changed from `s` to `v`, makes of it: where the DARK condition holds as before, the repair turn may
end; DARK begins or ends with the condition (R54, R132). -/
inductive State.Meets (s v : State) : State → Prop
  | stands (same : darkCondition v.lanes = darkCondition s.lanes) : Meets s v v
  | turn (same : darkCondition v.lanes = darkCondition s.lanes) : Meets s v (dropTurnIfMute v)
  | begins (before : darkCondition s.lanes = false) (after : darkCondition v.lanes = true) : Meets s v (darkOnset (dropTurnIfMute v))
  | ends (before : darkCondition s.lanes = true) (after : darkCondition v.lanes = false) : Meets s v (darkEnd (dropTurnIfMute v))

theorem laneChanged_meets (s v : State) : s.Meets v (laneChanged (darkCondition s.lanes) v) := by
  have judged : darkCondition (dropTurnIfMute v).lanes = darkCondition v.lanes := (dropTurnIfMute_sameOrCut v).dark
  unfold laneChanged
  dsimp only
  rw [judged]
  cases before : darkCondition s.lanes <;> cases after : darkCondition v.lanes
  · exact .turn (after.trans before.symm)
  · exact .begins before after
  · exact .ends before after
  · exact .turn (after.trans before.symm)

theorem State.Meets.sameOrCut {s v t : State} (h : s.Meets v t) : v.LanesSameOrCut t := by
  cases h with
  | stands => exact .of_eq rfl
  | turn => exact dropTurnIfMute_sameOrCut v
  | begins => exact (dropTurnIfMute_sameOrCut v).trans (darkOnset_sameOrCut _)
  | ends => exact (dropTurnIfMute_sameOrCut v).trans (darkEnd_sameOrCut _)

theorem State.Meets.dark {s v t : State} (h : s.Meets v t) : darkCondition t.lanes = darkCondition v.lanes := h.sameOrCut.dark

/-- While the DARK condition neither begins nor ends, the repair turn alone may end. -/
theorem State.Meets.lanesOnly {s v t : State} (h : s.Meets v t) (same : darkCondition t.lanes = darkCondition s.lanes) :
    v.LanesOnly t ∧ t.mgmt = v.mgmt := by
  rw [h.dark] at same
  cases h with
  | stands => exact ⟨.refl v, rfl⟩
  | turn => exact ⟨.dropTurnIfMute v, by simp⟩
  | begins before after => rw [before, after] at same; exact nomatch same
  | ends before after => rw [before, after] at same; exact nomatch same

theorem State.Meets.beginsDark {s v t : State} (h : s.Meets v t) (before : darkCondition s.lanes = false)
    (after : darkCondition t.lanes = true) (latched : v.mgmt.latched.surge = true) (mode : v.ctrl.mode.LeavesForDark) :
    v.BeginsDark t := by
  rw [h.dark] at after
  cases h with
  | stands same => rw [before, after] at same; exact nomatch same
  | turn same => rw [before, after] at same; exact nomatch same
  | begins =>
    refine .before (.dropTurnIfMute v) (darkOnset_begins ?_ (by simpa using latched) (by simpa using mode))
    rw [dropTurnIfMute_turn, mute_of_darkCondition after, Bool.and_false]
  | ends held => rw [before] at held; exact nomatch held

theorem State.Meets.endsDark {s v t : State} (h : s.Meets v t) (before : darkCondition s.lanes = true)
    (after : darkCondition t.lanes = false) (mode : v.ctrl.mode = .dark) : v.EndsDark t := by
  rw [h.dark] at after
  cases h with
  | stands same => rw [before, after] at same; exact nomatch same
  | turn same => rw [before, after] at same; exact nomatch same
  | begins held => rw [before] at held; exact nomatch held
  | ends => exact .before (.dropTurnIfMute v) (darkEnd_ends (by simpa using mode))

end Sys2Proof.Machine
end

section
/-! PROOF LAYER. The judgement of a window and the close of both windows (R37, R40, R42, R48, R50, R51). -/

namespace Sys2Proof.Machine

open Sys2Proof

/-! ### The judgement of one lane -/

/-- The lane in CLEAR or SUSPECT, its counts 0 (R42, R51). -/
def Lane.turns (new : LaneState) (x : Lane) : Lane := { x with state := new, cause := none, rounds := 0, quiet := 0, marks := 0 }

/-- The quiet-window count of a SETTLING lane after a window that was not noisy (R50). -/
def Lane.countQuiet (x : Lane) : Lane := { x with quiet := min 32 (x.quiet + 1) }

/-- What the judgement of a window at reading `time` makes of a lane; a count of violations from `threshold` on is noisy (R42, R48, R50, R51). -/
def Lane.judged (threshold time : Nat) (x : Lane) : Lane :=
  match x.state with
  | .off => x
  | .clear => if threshold ≤ x.violations then x.turns .suspect else x
  | .suspect => if threshold ≤ x.violations then x.surge .chatter time else x.turns .clear
  | .surge => if threshold ≤ x.violations ∨ x.windowHeld = true then x else x.settle time
  | .settling =>
    if threshold ≤ x.violations then x.surge .chatter time
    else if x.countQuiet.exits then x.countQuiet.turns .clear else x.countQuiet

/-- The events of a lane's change: LANE_CHANGED if its state has changed (R53). -/
def tellLane (l : LaneId) (x y : Lane) (v : State) : State :=
  if y.state = x.state then v else giveEvent (.laneChanged l x.state y.state y.cause) v

theorem tellLane_of_eq {l : LaneId} {x y : Lane} (h : y.state = x.state) (v : State) : tellLane l x y v = v := if_pos h

theorem tellLane_of_ne {l : LaneId} {x y : Lane} (h : y.state ≠ x.state) (v : State) :
    tellLane l x y v = giveEvent (.laneChanged l x.state y.state y.cause) v := if_neg h

theorem tellLane_lanesOnly (l : LaneId) (x y : Lane) (v : State) : v.LanesOnly (tellLane l x y v) := by
  unfold tellLane
  split
  · exact .refl v
  · exact .event v _

@[simp] theorem tellLane_lanes (l : LaneId) (x y : Lane) (v : State) : (tellLane l x y v).lanes = v.lanes := by
  unfold tellLane
  split <;> rfl

theorem tellLane_latched {l : LaneId} {x y : Lane} (h : y.state ≠ x.state) (hy : y.state = .surge) (v : State) :
    (tellLane l x y v).mgmt.latched.surge = true := by
  rw [tellLane_of_ne h, hy]
  rw [hy] at h
  simp [Causes.union, Event.latches, h.symm]

theorem tellLane_mgmt_congr (l : LaneId) (x y : Lane) {v w : State} (round : v.clock.round = w.clock.round) (mgmt : v.mgmt = w.mgmt) :
    (tellLane l x y v).mgmt = (tellLane l x y w).mgmt := by
  unfold tellLane
  split
  · exact mgmt
  · exact giveEvent_mgmt_congr _ round mgmt

/-- Lane `l` takes the value `y`, and its change is told. -/
def State.change (s : State) (l : LaneId) (y : Lane) : State := tellLane l (s.lanes.get l) y { s with lanes := s.lanes.set l y }

theorem State.change_lane (s : State) (l : LaneId) (y : Lane) : (s.change l y).lanes.get l = y := by simp [State.change]

theorem State.change_other (s : State) (l : LaneId) (y : Lane) : (s.change l y).lanes.get (otherLane l) = s.lanes.get (otherLane l) := by
  simp [State.change, PerLane.get_set_of_ne _ _ (otherLane_ne l)]

theorem State.change_lanesOnly (s : State) (l : LaneId) (y : Lane) : s.LanesOnly (s.change l y) :=
  (State.LanesOnly.mapLane s l (fun _ => y)).trans (tellLane_lanesOnly _ _ _ _)

theorem State.change_self (s : State) (l : LaneId) : s.change l (s.lanes.get l) = s := by
  rw [State.change, tellLane_of_eq rfl, PerLane.set_get]

/-- A lane that is enabled and out of SURGE keeps the station out of the DARK condition. -/
theorem darkCondition_of_bright {x : PerLane Lane} {l : LaneId} (ho : (x.get l).state ≠ .off) (hs : (x.get l).state ≠ .surge) :
    darkCondition x = false := by
  cases l
  all_goals
    simp only [PerLane.get] at ho hs
    simp [darkCondition, Lane.enabled, ho, hs]

/-- A change between states out of SURGE, or none, leaves the DARK condition. -/
theorem State.change_dark_of_bright {s : State} {l : LaneId} {y : Lane} (ho : (s.lanes.get l).state ≠ .off)
    (hs : (s.lanes.get l).state ≠ .surge) (yo : y.state ≠ .off) (ys : y.state ≠ .surge) :
    darkCondition (s.change l y).lanes = darkCondition s.lanes := by
  rw [darkCondition_of_bright (l := l) ho hs, darkCondition_of_bright (l := l)]
  all_goals rwa [State.change_lane]

theorem enterUsable_eq {l : LaneId} {new : LaneState} {s : State} (h : new ≠ (s.lanes.get l).state) :
    enterUsable l new s = s.change l ((s.lanes.get l).turns new) := by
  unfold State.change
  rw [tellLane_of_ne h]
  rfl

theorem enterSurge_change {l : LaneId} {s : State} (cause : SurgeCause) (h : (s.lanes.get l).state ≠ .surge) :
    enterSurge l cause s = laneChanged (darkCondition s.lanes) (s.change l ((s.lanes.get l).surge cause s.clock.timer)) := by
  unfold State.change
  rw [tellLane_of_ne (y := (s.lanes.get l).surge cause s.clock.timer) h.symm]
  rfl

theorem enterSettling_eq {l : LaneId} {s : State} (h : (s.lanes.get l).state = .surge) :
    enterSettling l s = laneChanged (darkCondition s.lanes) (s.change l ((s.lanes.get l).settle s.clock.timer)) := by
  unfold State.change enterSettling
  rw [tellLane_of_ne (y := (s.lanes.get l).settle s.clock.timer) (by rw [h]; exact nofun), h]
  simp [State.mapLane, Lane.settle]

theorem chatterThreshold_eq (c : BitVec 2) : chatterThreshold c = 4 * 2 ^ c.toNat := by
  revert c
  decide

/-- The threshold of the station's chatter class (R40). -/
abbrev State.threshold (s : State) : Nat := 4 * 2 ^ s.ctrl.option.chatter.toNat

theorem State.noisy_iff {s : State} {l : LaneId} : s.noisy l = true ↔ s.threshold ≤ (s.lanes.get l).violations := by
  rw [State.noisy, chatterThreshold_eq, decide_eq_true_eq]

/-- A quiet window of a SETTLING lane, which may meet an exit count (R50, R51). -/
theorem settleExit_countQuiet {l : LaneId} {s : State} (h : (s.lanes.get l).state = .settling) :
    settleExit l (s.mapLane l Lane.countQuiet) = s.change l (if (s.lanes.get l).countQuiet.exits
      then (s.lanes.get l).countQuiet.turns .clear else (s.lanes.get l).countQuiet) := by
  have lane : (s.mapLane l Lane.countQuiet).lanes.get l = (s.lanes.get l).countQuiet := PerLane.get_set_same _ _ _
  rw [settleExit_eq, lane]
  split
  · rw [State.change, tellLane_of_ne (by rw [h]; exact nofun), h, State.mapLane_mapLane]
    rfl
  · rw [State.change, tellLane_of_eq (show (s.lanes.get l).countQuiet.state = (s.lanes.get l).state from rfl)]
    rfl

/-- The state machine gives the lane its judged value, and the station meets the change. -/
theorem judgeWindow_meets (l : LaneId) (s : State) :
    s.Meets (s.change l ((s.lanes.get l).judged s.threshold s.clock.timer)) (judgeWindow l s) := by
  have noisy : s.noisy l = decide (s.threshold ≤ (s.lanes.get l).violations) := Bool.eq_iff_iff.mpr (by simpa using State.noisy_iff)
  have stays : s.Meets (s.change l (s.lanes.get l)) s := by
    rw [State.change_self]
    exact .stands rfl
  unfold judgeWindow Lane.judged
  cases h : (s.lanes.get l).state with
  | off => simpa only [h] using stays
  | clear =>
    simp only [h, noisy, decide_eq_true_eq]
    split
    · rw [enterUsable_eq (by rw [h]; exact nofun)]
      exact .stands (State.change_dark_of_bright (by rw [h]; exact nofun) (by rw [h]; exact nofun) nofun nofun)
    · exact stays
  | suspect =>
    simp only [h, noisy, decide_eq_true_eq]
    split
    · rw [enterSurge_change .chatter (by rw [h]; exact nofun)]
      exact laneChanged_meets _ _
    · rw [enterUsable_eq (by rw [h]; exact nofun)]
      exact .stands (State.change_dark_of_bright (by rw [h]; exact nofun) (by rw [h]; exact nofun) nofun nofun)
  | surge =>
    by_cases held : s.threshold ≤ (s.lanes.get l).violations ∨ (s.lanes.get l).windowHeld = true
    · have judged : ¬ (!s.noisy l && !(s.lanes.get l).windowHeld) = true := by
        rcases held with held | held <;> simp [noisy, held]
      simp only [h, if_neg judged, if_pos held]
      exact stays
    · have judged : (!s.noisy l && !(s.lanes.get l).windowHeld) = true := by
        simpa [noisy] using held
      simp only [h, if_pos judged, if_neg held]
      rw [enterSettling_eq h]
      exact laneChanged_meets _ _
  | settling =>
    simp only [h, noisy, decide_eq_true_eq]
    split
    · rw [enterSurge_change .chatter (by rw [h]; exact nofun)]
      exact laneChanged_meets _ _
    · change s.Meets _ (settleExit l (s.mapLane l Lane.countQuiet))
      rw [settleExit_countQuiet h]
      refine .stands (State.change_dark_of_bright (by rw [h]; exact nofun) (by rw [h]; exact nofun) ?_ ?_)
      all_goals
        split
        · exact nofun
        · rw [show (s.lanes.get l).countQuiet.state = _ from h]
          exact nofun

/-! ### The close of one window -/

/-- What the close of its window makes of an enabled lane (R37, R40, R41). -/
def Lane.closed (threshold time run : Nat) (x : Lane) : Lane := ((x.readRun run).judged threshold time).newWindow

theorem Lane.newWindow_sameOrCut {x y : Lane} (h : x.SameOrCut y) : x.newWindow.SameOrCut y.newWindow := by
  rcases h with rfl | rfl
  · exact .refl _
  · refine .inr ?_
    rw [Lane.cutDrive_eq, Lane.cutDrive_eq]
    rfl

theorem Lane.readRun_state (run : Nat) (x : Lane) : (x.readRun run).state = x.state := by
  obtain ⟨_, _, _, _, e, -⟩ := Lane.readRun_spec run x
  rw [e]

theorem Lane.judged_ne_off {threshold time : Nat} {x : Lane} (h : x.state ≠ .off) : (x.judged threshold time).state ≠ .off := by
  unfold Lane.judged
  cases hx : x.state with
  | off => exact absurd hx h
  | clear => dsimp only; split <;> simp [Lane.turns, hx]
  | suspect => dsimp only; split <;> simp [Lane.turns, Lane.surge]
  | surge => dsimp only; split <;> simp [Lane.settle, hx]
  | settling => dsimp only; (repeat' split) <;> simp [Lane.turns, Lane.countQuiet, Lane.surge, hx]

theorem closeWindow_of_off {l : LaneId} {run : Nat} {s : State} (h : (s.lanes.get l).state = .off) : closeWindow l run s = s := by
  simp [closeWindow, Lane.enabled, h]

theorem closeWindow_of_on {l : LaneId} {run : Nat} {s : State} (h : (s.lanes.get l).state ≠ .off) : closeWindow l run s =
    (judgeWindow l (s.mapLane l (Lane.readRun run))).mapLane l Lane.newWindow := if_pos (Lane.enabled_iff.mpr h)

/-- The station as a window has been judged, the lane's run read before, and the station has not met the change yet. -/
def windowChange (l : LaneId) (run : Nat) (s : State) : State :=
  (s.mapLane l (Lane.readRun run)).change l (((s.lanes.get l).readRun run).judged s.threshold s.clock.timer)

theorem judgeWindow_readRun_meets (l : LaneId) (run : Nat) (s : State) :
    (s.mapLane l (Lane.readRun run)).Meets (windowChange l run s) (judgeWindow l (s.mapLane l (Lane.readRun run))) := by
  have meets := judgeWindow_meets l (s.mapLane l (Lane.readRun run))
  rw [show (s.mapLane l (Lane.readRun run)).lanes.get l = (s.lanes.get l).readRun run from PerLane.get_set_same _ _ _] at meets
  exact meets

theorem windowChange_lanesOnly (l : LaneId) (run : Nat) (s : State) : s.LanesOnly (windowChange l run s) :=
  (State.LanesOnly.mapLane s l _).trans (State.change_lanesOnly _ _ _)

theorem windowChange_lane (l : LaneId) (run : Nat) (s : State) :
    (windowChange l run s).lanes.get l = ((s.lanes.get l).readRun run).judged s.threshold s.clock.timer := State.change_lane _ _ _

theorem windowChange_other (l : LaneId) (run : Nat) (s : State) :
    (windowChange l run s).lanes.get (otherLane l) = s.lanes.get (otherLane l) :=
  (State.change_other _ _ _).trans (PerLane.get_set_of_ne _ _ (otherLane_ne l))

/-- A change of a lane that keeps its state keeps the DARK condition. -/
theorem State.mapLane_dark {s : State} {l : LaneId} {f : Lane → Lane} (h : (f (s.lanes.get l)).state = (s.lanes.get l).state) :
    darkCondition (s.mapLane l f).lanes = darkCondition s.lanes := by
  refine darkCondition_congr fun k => ?_
  by_cases hk : k = l
  · subst hk
    rw [State.mapLane, PerLane.get_set_same, h]
  · rw [State.mapLane, PerLane.get_set_of_ne _ _ hk]

/-- The lane whose window closes. -/
theorem closeWindow_lane {l : LaneId} {run : Nat} {s : State} (h : (s.lanes.get l).state ≠ .off) :
    ((s.lanes.get l).closed s.threshold s.clock.timer run).SameOrCut ((closeWindow l run s).lanes.get l) := by
  have judged := (judgeWindow_readRun_meets l run s).sameOrCut l
  rw [windowChange_lane] at judged
  rw [closeWindow_of_on h, State.mapLane, PerLane.get_set_same]
  exact Lane.newWindow_sameOrCut judged

/-- The other lane stands, but for a re-send that ends with the repair turn. -/
theorem closeWindow_other (l : LaneId) (run : Nat) (s : State) :
    (s.lanes.get (otherLane l)).SameOrCut ((closeWindow l run s).lanes.get (otherLane l)) := by
  by_cases h : (s.lanes.get l).state = .off
  · rw [closeWindow_of_off h]
    exact .refl _
  · have judged := (judgeWindow_readRun_meets l run s).sameOrCut (otherLane l)
    rw [windowChange_other] at judged
    rwa [closeWindow_of_on h, State.mapLane, PerLane.get_set_of_ne _ _ (otherLane_ne l)]

/-- No lane is switched on or off at the close of a window (R36). -/
theorem closeWindow_off_iff (l k : LaneId) (run : Nat) (s : State) :
    ((closeWindow l run s).lanes.get k).state = .off ↔ (s.lanes.get k).state = .off := by
  by_cases hk : k = l
  · subst hk
    by_cases h : (s.lanes.get k).state = .off
    · rw [closeWindow_of_off h]
    · rw [(closeWindow_lane h).state]
      exact iff_of_false (Lane.judged_ne_off (by rwa [Lane.readRun_state])) h
  · rw [eq_otherLane_of_ne hk, (closeWindow_other l run s).state]

theorem tellLane_congr {l : LaneId} {x y x' y' : Lane} (hx : x'.state = x.state) (hy : y'.state = y.state) (hc : y'.cause = y.cause)
    (v : State) : tellLane l x' y' v = tellLane l x y v := by
  unfold tellLane
  rw [hx, hy, hc]

theorem windowChange_mgmt (l : LaneId) (run : Nat) (s : State) : (windowChange l run s).mgmt =
    (tellLane l (s.lanes.get l) (((s.lanes.get l).readRun run).judged s.threshold s.clock.timer) s).mgmt := by
  unfold windowChange State.change
  rw [show (s.mapLane l (Lane.readRun run)).lanes.get l = (s.lanes.get l).readRun run from PerLane.get_set_same _ _ _,
    tellLane_congr (Lane.readRun_state run _) rfl rfl]
  exact tellLane_mgmt_congr _ _ _ rfl rfl

/-- While the DARK condition neither begins nor ends, the close of a window writes the lanes, the repair turn and the lane's event. -/
theorem closeWindow_lanesOnly {l : LaneId} {run : Nat} {s : State}
    (same : darkCondition (closeWindow l run s).lanes = darkCondition s.lanes) :
    s.LanesOnly (closeWindow l run s)
    ∧ (closeWindow l run s).mgmt = (tellLane l (s.lanes.get l) ((closeWindow l run s).lanes.get l) s).mgmt := by
  by_cases h : (s.lanes.get l).state = .off
  · rw [closeWindow_of_off h, tellLane_of_eq rfl]
    exact ⟨.refl s, rfl⟩
  · have lane := closeWindow_lane (run := run) h
    rw [closeWindow_of_on h] at same lane ⊢
    rw [State.mapLane_dark rfl, ← State.mapLane_dark (Lane.readRun_state run (s.lanes.get l))] at same
    obtain ⟨lanes, mgmt⟩ := (judgeWindow_readRun_meets l run s).lanesOnly same
    refine ⟨(windowChange_lanesOnly l run s).trans (lanes.trans (.mapLane _ l _)), ?_⟩
    rw [State.mapLane_mgmt, mgmt, windowChange_mgmt, tellLane_congr rfl lane.state lane.cause]
    rfl

/-- DARK begins at the close of a window that puts the last enabled lane into SURGE (R54, R169). -/
theorem closeWindow_begins {l : LaneId} {run : Nat} {s : State} (before : darkCondition s.lanes = false)
    (after : darkCondition (closeWindow l run s).lanes = true) (mode : s.ctrl.mode.LeavesForDark) :
    s.BeginsDark (closeWindow l run s) := by
  by_cases h : (s.lanes.get l).state = .off
  · rw [closeWindow_of_off h, before] at after
    exact nomatch after
  · rw [closeWindow_of_on h] at after ⊢
    rw [State.mapLane_dark rfl] at after
    have meets := judgeWindow_readRun_meets l run s
    have lanes := windowChange_lanesOnly l run s
    refine State.BeginsDark.after (.before lanes (meets.beginsDark ?_ after ?_ (by rwa [lanes.ctrl]))) (.mapLane _ l _)
    · rwa [State.mapLane_dark (Lane.readRun_state run _)]
    · rw [windowChange_mgmt]
      have dark : darkCondition (windowChange l run s).lanes = true := meets.dark ▸ after
      have on : ((windowChange l run s).lanes.get l).state ≠ .off := by
        rw [windowChange_lane]
        exact Lane.judged_ne_off (by rwa [Lane.readRun_state])
      have surges : ((windowChange l run s).lanes.get l).state = .surge := by
        by_contra bright
        rw [darkCondition_of_bright on bright] at dark
        exact nomatch dark
      rw [windowChange_lane] at surges
      refine tellLane_latched (fun same => ?_) surges s
      have stood : darkCondition (windowChange l run s).lanes = darkCondition s.lanes := darkCondition_congr fun k => by
        by_cases hk : k = l
        · rw [hk, windowChange_lane, same]
        · rw [eq_otherLane_of_ne hk, windowChange_other]
      rw [stood, before] at dark
      exact nomatch dark

/-- DARK ends at the close of a window that takes a lane out of SURGE (R54, R170). -/
theorem closeWindow_ends {l : LaneId} {run : Nat} {s : State} (before : darkCondition s.lanes = true)
    (after : darkCondition (closeWindow l run s).lanes = false) (mode : s.ctrl.mode = .dark) :
    s.EndsDark (closeWindow l run s) := by
  by_cases h : (s.lanes.get l).state = .off
  · rw [closeWindow_of_off h, before] at after
    exact nomatch after
  · rw [closeWindow_of_on h] at after ⊢
    rw [State.mapLane_dark rfl] at after
    have lanes := windowChange_lanesOnly l run s
    refine State.EndsDark.after (.before lanes ((judgeWindow_readRun_meets l run s).endsDark ?_ after (by rwa [lanes.ctrl])))
      (.mapLane _ l _)
    rwa [State.mapLane_dark (Lane.readRun_state run _)]

end Sys2Proof.Machine
end

section
/-! PROOF LAYER. WINDOW_CLOSE, lane by lane (R37, R40, R41, R42, R48, R50, R51, R53). -/

namespace Sys2Proof.Machine

open Sys2Proof

/-! ### What a window makes of a lane -/

/-- The cause, the rounds in state and the counts toward an exit from SETTLING. -/
abbrev Lane.Counts (y : Lane) (cause : Option SurgeCause) (rounds quiet marks : Nat) : Prop :=
  y.cause = cause ∧ y.rounds = rounds ∧ y.quiet = quiet ∧ y.marks = marks

/-- The counters of a lane after its window, whose dominant run was read as `run` (R37, R40, R41). -/
def Lane.NewWindow (run : Nat) (x y : Lane) : Prop :=
  y.contributing = x.contributing
  ∧ (x.state = .off → y.state = .off ∧ y.windowCounter = x.windowCounter ∧ y.violations = x.violations ∧ y.run = x.run)
  ∧ (x.state ≠ .off → y.windowCounter = 0 ∧ y.violations = 0
      ∧ (run = x.run → y.run = x.run ∧ y.dominant = x.dominant ∧ y.reported = x.reported)
      ∧ (run ≠ x.run → y.run = min 50000 run ∧ y.dominant = decide (0 < run)
          ∧ y.reported = (if run ≤ 1200 then .none else .long))
      ∧ y.windowHeld = decide (1200 ≤ y.run))

/-- The state of a lane after its window, noisy from `threshold` violations on, and held or not (R42, R48, R50, R51). -/
def Lane.Moves (threshold : Nat) (held : Prop) (x y : Lane) : Prop :=
  let noisy := threshold ≤ x.violations
  (x.state = .clear → noisy → y.state = .suspect ∧ y.Counts none 0 0 0)
  ∧ (x.state = .clear → ¬ noisy → y.state = .clear ∧ y.Counts x.cause x.rounds x.quiet x.marks)
  ∧ (x.state = .suspect → noisy → Lane.EntersSurge .chatter x y)
  ∧ (x.state = .suspect → ¬ noisy → y.state = .clear ∧ y.Counts none 0 0 0)
  ∧ (x.state = .surge → noisy ∨ held → y.state = .surge ∧ y.Counts x.cause x.rounds x.quiet x.marks)
  ∧ (x.state = .surge → ¬ (noisy ∨ held) →
      y.state = .settling ∧ y.Counts (if x.echoOwed then some .echoLate else none) 0 0 0)
  ∧ (x.state = .settling → noisy → Lane.EntersSurge .chatter x y)
  ∧ (x.state = .settling → ¬ noisy → x.echoOwed = false → (4 ≤ x.marks ∨ 31 ≤ x.quiet) →
      y.state = .clear ∧ y.Counts none 0 0 0)
  ∧ (x.state = .settling → ¬ noisy → ¬ (x.echoOwed = false ∧ (4 ≤ x.marks ∨ 31 ≤ x.quiet)) →
      y.state = .settling ∧ y.Counts x.cause x.rounds (min 32 (x.quiet + 1)) x.marks)

/-- The window of a lane was held, or is by the run read at its close (R41). -/
def Lane.windowHolds (run : Nat) (x : Lane) : Prop := x.windowHeld = true ∨ (run ≠ x.run ∧ 1200 < run)

/-- The exit from SETTLING after one more quiet window (R51). -/
theorem Lane.countQuiet_exits_iff {x : Lane} (h : x.state = .settling) :
    x.countQuiet.exits = true ↔ x.echoOwed = false ∧ (4 ≤ x.marks ∨ 31 ≤ x.quiet) := by
  simp only [Lane.countQuiet, Lane.exits, h, beq_self_eq_true, Bool.true_and, Bool.and_eq_true, Bool.not_eq_true', Bool.or_eq_true,
    decide_eq_true_eq, show (32 ≤ min 32 (x.quiet + 1)) ↔ 31 ≤ x.quiet by omega]

/-- The judged lane moves as the state machine of the lanes says. -/
theorem Lane.judged_moves (threshold time : Nat) (x : Lane) :
    x.Moves threshold (x.windowHeld = true) (x.judged threshold time) := by
  have surges : Lane.EntersSurge .chatter x (x.surge .chatter time) := (x.surge_spec .chatter time).1
  unfold Lane.Moves Lane.judged
  refine ⟨fun h noisy => ?_, fun h quiet => ?_, fun h noisy => ?_, fun h quiet => ?_, fun h stays => ?_, fun h calm => ?_,
    fun h noisy => ?_, fun h quiet owed count => ?_, fun h quiet stays => ?_⟩
  all_goals simp only [h]
  · rw [if_pos noisy]
    exact ⟨rfl, rfl, rfl, rfl, rfl⟩
  · rw [if_neg quiet]
    exact ⟨h, rfl, rfl, rfl, rfl⟩
  · rwa [if_pos noisy]
  · rw [if_neg quiet]
    exact ⟨rfl, rfl, rfl, rfl, rfl⟩
  · rw [if_pos stays]
    exact ⟨h, rfl, rfl, rfl, rfl⟩
  · rw [if_neg calm]
    exact ⟨rfl, rfl, rfl, rfl, rfl⟩
  · rwa [if_pos noisy]
  · rw [if_neg quiet, if_pos ((Lane.countQuiet_exits_iff h).mpr ⟨owed, count⟩)]
    exact ⟨rfl, rfl, rfl, rfl, rfl⟩
  · rw [if_neg quiet, if_neg (mt (Lane.countQuiet_exits_iff h).mp stays)]
    exact ⟨h, rfl, rfl, rfl, rfl⟩

/-- The judgement leaves what the monitor counts of the dominant run, and the lane's part in the field. -/
theorem Lane.judged_kept (threshold time : Nat) (x : Lane) :
    (x.judged threshold time).contributing = x.contributing ∧ (x.judged threshold time).run = x.run
    ∧ (x.judged threshold time).dominant = x.dominant ∧ (x.judged threshold time).reported = x.reported := by
  have surges : (x.surge .chatter time).contributing = x.contributing ∧ (x.surge .chatter time).run = x.run
      ∧ (x.surge .chatter time).dominant = x.dominant ∧ (x.surge .chatter time).reported = x.reported := by
    obtain ⟨-, -, -, run, dominant⟩ := x.surge_spec .chatter time
    obtain ⟨-, reported, -⟩ := x.surge_monitor .chatter time
    refine ⟨?_, run, dominant, reported⟩
    unfold Lane.surge
    rw [Lane.cutDrive_eq]
    dsimp only
    split <;> rfl
  unfold Lane.judged
  cases x.state with
  | off => exact ⟨rfl, rfl, rfl, rfl⟩
  | clear => dsimp only; split <;> exact ⟨rfl, rfl, rfl, rfl⟩
  | suspect =>
    dsimp only
    split
    · exact surges
    · exact ⟨rfl, rfl, rfl, rfl⟩
  | surge => dsimp only; split <;> exact ⟨rfl, rfl, rfl, rfl⟩
  | settling =>
    dsimp only
    split
    · exact surges
    · split <;> exact ⟨rfl, rfl, rfl, rfl⟩

theorem Lane.readRun_windowHeld (run : Nat) (x : Lane) : (x.readRun run).windowHeld = true ↔ x.windowHolds run := by
  unfold Lane.windowHolds
  by_cases h : run = x.run
  · rw [h, Lane.readRun_self]
    simp
  · rw [Lane.readRun_of_ne h]
    simp [h]

theorem Lane.closed_moves (threshold time run : Nat) (x : Lane) : x.Moves threshold (x.windowHolds run) (x.closed threshold time run) := by
  have moves := (x.readRun run).judged_moves threshold time
  rw [Lane.readRun_windowHeld] at moves
  unfold Lane.closed
  obtain ⟨_, _, _, _, e, -⟩ := Lane.readRun_spec run x
  rw [e] at moves ⊢
  exact moves

theorem Lane.closed_newWindow {threshold time run : Nat} {x : Lane} (h : x.state ≠ .off) :
    x.NewWindow run (x.closed threshold time run) := by
  obtain ⟨contributing, hrun, dominant, reported⟩ := (x.readRun run).judged_kept threshold time
  refine ⟨?_, fun off => absurd off h, fun _ => ⟨rfl, rfl, fun same => ?_, fun other => ?_, rfl⟩⟩
  · refine contributing.trans ?_
    obtain ⟨_, _, _, _, e, -⟩ := Lane.readRun_spec run x
    rw [e]
  · unfold Lane.closed
    rw [same, Lane.readRun_self] at hrun dominant reported ⊢
    exact ⟨hrun, dominant, reported⟩
  · unfold Lane.closed
    rw [Lane.readRun_of_ne other] at hrun dominant reported ⊢
    exact ⟨hrun, dominant, reported⟩

/-! ### Drives that were cut before or after -/

theorem Lane.EntersSurge.of_cutDrive {cause : SurgeCause} {x y : Lane} (h : Lane.EntersSurge cause x.cutDrive y) :
    Lane.EntersSurge cause x y := by
  have idle := x.cutDrive_not_drives
  obtain ⟨state, why, rounds, phase, quiet, marks, admitted, search, owed, drive⟩ := h
  rw [if_neg idle] at drive
  rw [Lane.cutDrive_eq] at owed drive
  exact ⟨state, why, rounds, phase, quiet, marks, admitted, search, owed, drive⟩

theorem Lane.EntersSurge.cutDrive {cause : SurgeCause} {x y : Lane} (h : Lane.EntersSurge cause x y) :
    Lane.EntersSurge cause x y.cutDrive := by
  have idle : ¬ y.Drives := by
    obtain ⟨-, -, -, -, -, -, -, -, -, drive⟩ := h
    by_cases hx : x.Drives
    · simp [Lane.Drives, drive, hx]
    · rw [if_neg hx] at drive
      rwa [Lane.Drives, drive]
  rwa [Lane.cutDrive_of_idle idle]

theorem Lane.Moves.before {threshold run : Nat} {x x' y : Lane} (hx : x.SameOrCut x') (h : x'.Moves threshold (x'.windowHolds run) y) :
    x.Moves threshold (x.windowHolds run) y := by
  rcases hx with rfl | rfl
  · exact h
  · have surges : Lane.EntersSurge .chatter x.cutDrive y → Lane.EntersSurge .chatter x y := Lane.EntersSurge.of_cutDrive
    obtain ⟨clearNoisy, clearQuiet, suspectNoisy, suspectQuiet, stays, settles, settlingNoisy, exits, counts⟩ := h
    rw [Lane.cutDrive_eq] at *
    exact ⟨clearNoisy, clearQuiet, fun a b => surges (suspectNoisy a b), suspectQuiet, stays, settles,
      fun a b => surges (settlingNoisy a b), exits, counts⟩

theorem Lane.Moves.after {threshold : Nat} {held : Prop} {x y y' : Lane} (h : x.Moves threshold held y) (hy : y.SameOrCut y') :
    x.Moves threshold held y' := by
  rcases hy with rfl | rfl
  · exact h
  · have surges : Lane.EntersSurge .chatter x y → Lane.EntersSurge .chatter x y.cutDrive := Lane.EntersSurge.cutDrive
    obtain ⟨clearNoisy, clearQuiet, suspectNoisy, suspectQuiet, stays, settles, settlingNoisy, exits, counts⟩ := h
    rw [Lane.cutDrive_eq] at *
    exact ⟨clearNoisy, clearQuiet, fun a b => surges (suspectNoisy a b), suspectQuiet, stays, settles,
      fun a b => surges (settlingNoisy a b), exits, counts⟩

theorem Lane.NewWindow.before {run : Nat} {x x' y : Lane} (hx : x.SameOrCut x') (h : x'.NewWindow run y) : x.NewWindow run y := by
  rcases hx with rfl | rfl
  · exact h
  · rw [Lane.cutDrive_eq] at h
    exact h

theorem Lane.NewWindow.after {run : Nat} {x y y' : Lane} (h : x.NewWindow run y) (hy : y.SameOrCut y') : x.NewWindow run y' := by
  rcases hy with rfl | rfl
  · exact h
  · rw [Lane.cutDrive_eq]
    exact h

/-- What the close of its window makes of a lane: its counters restart, and its state moves. -/
def Lane.WindowJudged (threshold run : Nat) (x y : Lane) : Prop := x.NewWindow run y ∧ x.Moves threshold (x.windowHolds run) y

theorem Lane.WindowJudged.before {threshold run : Nat} {x x' y : Lane} (hx : x.SameOrCut x') (h : x'.WindowJudged threshold run y) :
    x.WindowJudged threshold run y := ⟨h.1.before hx, h.2.before hx⟩

theorem Lane.WindowJudged.after {threshold run : Nat} {x y y' : Lane} (h : x.WindowJudged threshold run y) (hy : y.SameOrCut y') :
    x.WindowJudged threshold run y' := ⟨h.1.after hy, h.2.after hy⟩

/-- An OFF lane has no window (R36). -/
theorem Lane.windowJudged_of_off {threshold run : Nat} {x : Lane} (h : x.state = .off) : x.WindowJudged threshold run x := by
  refine ⟨⟨rfl, fun _ => ⟨h, rfl, rfl, rfl⟩, fun on => absurd h on⟩, ?_⟩
  unfold Lane.Moves
  simp only [h, reduceCtorEq, false_imp_iff, and_self]

theorem closeWindow_judged (l : LaneId) (run : Nat) (s : State) :
    (s.lanes.get l).WindowJudged s.threshold run ((closeWindow l run s).lanes.get l) := by
  by_cases h : (s.lanes.get l).state = .off
  · rw [closeWindow_of_off h]
    exact Lane.windowJudged_of_off h
  · exact Lane.WindowJudged.after ⟨Lane.closed_newWindow h, Lane.closed_moves _ _ _ _⟩ (closeWindow_lane h)

/-! ### Both windows -/

/-- The operand of a lane. -/
def runOf (runA runB : Nat) (l : LaneId) : Nat :=
  match l with
  | .a => runA
  | .b => runB

/-- The station as the window of the lane taken first has closed. -/
def afterFirst (first : LaneId) (runA runB : Nat) (u : State) : State := closeWindow first (runOf runA runB first) u

theorem closeWindows_eq (first : LaneId) (runA runB : Nat) (u : State) : closeWindows first runA runB u =
    closeWindow (otherLane first) (runOf runA runB (otherLane first)) (afterFirst first runA runB u) := by
  cases first <;> rfl

theorem closeWindow_threshold (l : LaneId) (run : Nat) (s : State) : (closeWindow l run s).threshold = s.threshold := by
  simp [State.threshold]

/-- The lane taken first stands at the second close, but for a re-send that ends with the repair turn. -/
theorem afterFirst_sameOrCut (first : LaneId) (runA runB : Nat) (u : State) :
    ((afterFirst first runA runB u).lanes.get first).SameOrCut ((closeWindows first runA runB u).lanes.get first) := by
  have other := closeWindow_other (otherLane first) (runOf runA runB (otherLane first)) (afterFirst first runA runB u)
  rw [closeWindows_eq]
  rwa [show otherLane (otherLane first) = first by cases first <;> rfl] at other

theorem closeWindows_judged (first l : LaneId) (runA runB : Nat) (u : State) :
    (u.lanes.get l).WindowJudged u.threshold (runOf runA runB l) ((closeWindows first runA runB u).lanes.get l) := by
  by_cases h : l = first
  · subst h
    exact (closeWindow_judged l (runOf runA runB l) u).after (afterFirst_sameOrCut l runA runB u)
  · obtain rfl := eq_otherLane_of_ne h
    have second := closeWindow_judged (otherLane first) (runOf runA runB (otherLane first)) (afterFirst first runA runB u)
    rw [show (afterFirst first runA runB u).threshold = u.threshold from closeWindow_threshold _ _ _, ← closeWindows_eq] at second
    exact second.before (closeWindow_other first (runOf runA runB first) u)

/-- An enabled lane that stays out of SURGE keeps the station out of the DARK condition throughout. -/
theorem closeWindows_bright {first k : LaneId} {runA runB : Nat} {u : State} (ho : (u.lanes.get k).state ≠ .off)
    (hs : (u.lanes.get k).state ≠ .surge) (ht : ((closeWindows first runA runB u).lanes.get k).state ≠ .surge) :
    darkCondition u.lanes = false ∧ darkCondition (afterFirst first runA runB u).lanes = false
    ∧ darkCondition (closeWindows first runA runB u).lanes = false := by
  have between : ((afterFirst first runA runB u).lanes.get k).state ≠ .off := mt (closeWindow_off_iff _ _ _ _).mp ho
  have last : ((closeWindows first runA runB u).lanes.get k).state ≠ .off := by
    rw [closeWindows_eq]
    exact mt (closeWindow_off_iff _ _ _ _).mp between
  refine ⟨darkCondition_of_bright ho hs, darkCondition_of_bright between ?_, darkCondition_of_bright last ht⟩
  by_cases h : k = first
  · subst h
    rwa [← (afterFirst_sameOrCut k runA runB u).state]
  · obtain rfl := eq_otherLane_of_ne h
    rwa [show ((afterFirst first runA runB u).lanes.get (otherLane first)).state = _ from
      (closeWindow_other first (runOf runA runB first) u).state]

/-- While some enabled lane stays out of SURGE: the lanes, the repair turn and the events of the two lanes, in order (R53, R54, R132). -/
theorem closeWindows_aside {first k : LaneId} {runA runB : Nat} {u : State} (ho : (u.lanes.get k).state ≠ .off)
    (hs : (u.lanes.get k).state ≠ .surge) (ht : ((closeWindows first runA runB u).lanes.get k).state ≠ .surge) :
    let w := closeWindows first runA runB u
    let told := fun (l : LaneId) (v : State) => tellLane l (u.lanes.get l) (w.lanes.get l) v
    u.LanesOnly w ∧ w.mgmt = (told (otherLane first) (told first u)).mgmt := by
  intro w told
  obtain ⟨darkU, darkV, darkW⟩ := closeWindows_bright ho hs ht
  obtain ⟨firstOnly, firstMgmt⟩ := closeWindow_lanesOnly (l := first) (run := runOf runA runB first) (darkV.trans darkU.symm)
  rw [closeWindows_eq] at darkW
  obtain ⟨secondOnly, secondMgmt⟩ := closeWindow_lanesOnly (darkW.trans darkV.symm)
  have between : ((afterFirst first runA runB u).lanes.get (otherLane first)).state = (u.lanes.get (otherLane first)).state :=
    (closeWindow_other first (runOf runA runB first) u).state
  have after := afterFirst_sameOrCut first runA runB u
  refine ⟨by rw [show w = _ from closeWindows_eq _ _ _ _]; exact firstOnly.trans secondOnly, ?_⟩
  rw [← closeWindows_eq] at secondMgmt
  rw [show w.mgmt = _ from secondMgmt]
  have tells : told first u = tellLane first (u.lanes.get first) ((afterFirst first runA runB u).lanes.get first) u :=
    tellLane_congr rfl after.state after.cause u
  rw [tellLane_congr between rfl rfl]
  refine tellLane_mgmt_congr _ _ _ ?_ ?_
  · exact congrArg Clock.round (firstOnly.clock.trans (tellLane_lanesOnly _ _ _ u).clock.symm)
  · rw [tells]
    exact firstMgmt

/-! ### The command -/

theorem exec_windowClose {first : LaneId} {runA runB r : Nat} {s : State} (hs : s.holding = false) (hr : s.reaches r = true) :
    let u := reach r s
    exec (.windowClose first runA runB r) s = .next (if u.clock.phase = 100 then closeBoth first runA runB u else u) := by
  change running (dated _ _) s = _
  rw [running_of_free hs, dated_of_reaches _ hr]
  simp only [State.windowDue, beq_iff_eq]
  rfl

theorem closeWindows_clock (first : LaneId) (runA runB : Nat) (u : State) : (closeWindows first runA runB u).clock = u.clock := by
  cases first <;> simp [closeWindows]

/-- A new window begins for both lanes (R37). -/
def State.newPhase (s : State) : State := { s with clock := { s.clock with phase := 0 } }

theorem closeBoth_eq (first : LaneId) (runA runB : Nat) (u : State) :
    closeBoth first runA runB u = (closeWindows first runA runB u).newPhase := rfl

/-- Settles O50: the two windows close one after the other, and each lane's judgement stands whatever the other's does to its drive. -/
theorem windowCloseJudgesLanes : Obligations.WindowCloseJudgesLanes := by
  intro first runA runB r s hs hr u started
  have execs : exec (.windowClose first runA runB r) s = .next (if u.clock.phase = 100 then closeBoth first runA runB u else u) :=
    exec_windowClose hs hr
  refine ⟨fun early => by rw [execs, if_neg early], fun due => ?_⟩
  have threshold : u.threshold = s.threshold := by simp [State.threshold, u]
  have aside := fun k => closeWindows_aside (first := first) (k := k) (runA := runA) (runB := runB) (u := u)
  have judged := fun l => closeWindows_judged first l runA runB u
  have clock := closeWindows_clock first runA runB u
  rw [if_pos due] at execs
  refine ⟨closeBoth first runA runB u, execs, ?_⟩
  rw [closeBoth_eq]
  generalize closeWindows first runA runB u = w at aside judged clock
  refine ⟨congrArg (fun c => ({ c with phase := 0 } : Clock)) clock, ?_, ?_, fun l => ?_⟩
  · rintro ⟨k, he, hs, ht⟩
    obtain ⟨⟨only, -⟩, -⟩ := aside k (Lane.enabled_iff.mp he) hs ht
    exact congrArg State.newPhase only
  · intro told
    rintro ⟨k, he, hs, ht⟩
    exact (aside k (Lane.enabled_iff.mp he) hs ht).2
  · obtain ⟨⟨contributing, off, on⟩, moves⟩ := judged l
    rw [threshold] at moves
    exact ⟨contributing, off, on, moves⟩

end Sys2Proof.Machine
end

section
/-! PROOF LAYER. DARK begins and ends (R43, R54, R66, R132, R169, R170). -/

namespace Sys2Proof.Machine

open Sys2Proof

/-! ### The DARK condition in the words of the statement (R54) -/

theorem darkCondition_iff {x : PerLane Lane} : darkCondition x = true ↔
    (∃ k, (x.get k).state ≠ .off) ∧ ∀ k, (x.get k).state = .off ∨ (x.get k).state = .surge := by
  constructor
  · intro dark
    refine ⟨?_, fun k => ?_⟩
    · by_contra none
      push Not at none
      have ha : x.a.state = .off := none .a
      have hb : x.b.state = .off := none .b
      simp [darkCondition, Lane.enabled, ha, hb] at dark
    · by_contra bright
      push Not at bright
      rw [darkCondition_of_bright bright.1 bright.2] at dark
      exact nomatch dark
  · rintro ⟨⟨l, on⟩, surge⟩
    rw [darkCondition_of_surge ((surge l).resolve_left on), Bool.or_eq_true, Bool.not_eq_true', beq_iff_eq]
    refine (surge (otherLane l)).imp_left fun off => ?_
    simp [Lane.enabled, off]

theorem reach_dark (r : Nat) (s : State) : darkCondition (reach r s).lanes = darkCondition s.lanes :=
  darkCondition_congr fun k => (reach_lane_kept r s k).1

/-! ### The beginning of DARK (R169) -/

/-- If the DARK condition holds in `t` and not in `s`, then DARK has begun, from a mode that leaves for it (R54, R169). -/
def State.MayBeginDark (s t : State) : Prop :=
  darkCondition s.lanes = false → darkCondition t.lanes = true → s.ctrl.mode.LeavesForDark → s.BeginsDark t

theorem State.MayBeginDark.of_same {s t : State} (same : darkCondition t.lanes = darkCondition s.lanes) : s.MayBeginDark t := by
  intro before after
  rw [same, before] at after
  exact nomatch after

/-- What does not touch the controller, the table or the receive engine, nor the DARK condition, may go before. -/
theorem State.MayBeginDark.before {s u t : State} (h : u.MayBeginDark t) (dark : darkCondition u.lanes = darkCondition s.lanes)
    (ctrl : u.ctrl = s.ctrl) (table : u.table = s.table) (roll : u.notices.rollCall = s.notices.rollCall) (recv : u.recv = s.recv)
    (hold : u.hold = s.hold) (pending : u.pending = s.pending) : s.MayBeginDark t := by
  unfold State.MayBeginDark State.BeginsDark at h ⊢
  rwa [dark, ctrl, table, roll, recv, hold, pending] at h

theorem State.MayBeginDark.of_reach {r : Nat} {s t : State} (h : (reach r s).MayBeginDark t) : s.MayBeginDark t :=
  h.before (reach_dark r s) (by simp) (by simp) (by simp) (by simp) (by simp) (by simp)

theorem State.MayBeginDark.of_mapLane {l : LaneId} {f : Lane → Lane} {s t : State}
    (hf : (f (s.lanes.get l)).state = (s.lanes.get l).state) (h : (s.mapLane l f).MayBeginDark t) : s.MayBeginDark t :=
  h.before (State.mapLane_dark hf) rfl rfl rfl rfl rfl rfl

theorem enterSurge_mayBeginDark {l : LaneId} {s : State} (cause : SurgeCause) (bright : (s.lanes.get l).state ≠ .surge) :
    s.MayBeginDark (enterSurge l cause s) := by
  intro before after mode
  rw [enterSurge_change cause bright] at after ⊢
  have lanes := s.change_lanesOnly l ((s.lanes.get l).surge cause s.clock.timer)
  refine .before lanes ((laneChanged_meets s _).beginsDark before after ?_ (by rwa [lanes.ctrl]))
  exact tellLane_latched (fun h => bright h.symm) rfl _

/-- A change of cause keeps the state of the lane (R45). -/
theorem changeCause_dark (l : LaneId) (cause : SurgeCause) (s : State) :
    darkCondition (changeCause l cause s).lanes = darkCondition s.lanes :=
  State.mapLane_dark (f := fun x => { x with cause := some cause }) rfl

theorem longRunOn_mayBeginDark {l : LaneId} {u : State} (on : (u.lanes.get l).state ≠ .off) : u.MayBeginDark (longRunOn l u) := by
  by_cases h : (u.lanes.get l).state = .surge
  · refine .of_same ?_
    rw [longRunOn_of_surge h]
    split
    · exact (changeCause_dark l .long _).trans (State.mapLane_dark rfl)
    · exact State.mapLane_dark rfl
  · rw [longRunOn_of_usable on h]
    exact .of_mapLane rfl (enterSurge_mayBeginDark .long (by rw [mapLane_runsLong_get]; exact h))

theorem echoLateOn_mayBeginDark (l : LaneId) (u : State) : u.MayBeginDark (echoLateOn l u) := by
  rw [echoLateOn_eq]
  split
  · exact .of_same (State.mapLane_dark rfl)
  · next h => exact .of_mapLane rfl (enterSurge_mayBeginDark .echoLate (by rw [mapLane_measuresOn_get]; exact h))

theorem Lane.withdraw_state (x : Lane) : x.withdraw.state = x.state := by
  unfold Lane.withdraw
  split <;> rfl

theorem faultCounted_state (l k : LaneId) (u : State) : ((faultCounted l u).lanes.get k).state = (u.lanes.get k).state := by
  rw [faultCounted_lane, Lane.withdraw_state]
  split
  · next h => rw [h]; rfl
  · rfl

theorem driveFaultOn_mayBeginDark {l : LaneId} {u : State} (h : (u.lanes.get l).drive = .contending) :
    u.MayBeginDark (driveFaultOn l u) := by
  have dark : darkCondition (faultCounted l u).lanes = darkCondition u.lanes := darkCondition_congr fun k => faultCounted_state l k u
  rw [driveFaultOn_eq h]
  split
  · next surges =>
    refine (enterSurge_mayBeginDark .drive ?_).before dark rfl rfl rfl rfl rfl rfl
    rw [faultCounted_state]
    rcases surges.2 with e | e <;> rw [e] <;> exact nofun
  · exact .of_same dark

/-- The first close or the second begins DARK. -/
theorem closeWindows_mayBeginDark (first : LaneId) (runA runB : Nat) (u : State) :
    u.MayBeginDark (closeWindows first runA runB u) := by
  intro before after mode
  rw [closeWindows_eq] at after ⊢
  cases between : darkCondition (afterFirst first runA runB u).lanes
  · have only : u.LanesOnly (afterFirst first runA runB u) := (closeWindow_lanesOnly (between.trans before.symm)).1
    exact .before only (closeWindow_begins between after (by rwa [only.ctrl]))
  · exact .after (closeWindow_begins before between mode) (closeWindow_lanesOnly (after.trans between.symm)).1

theorem closeBoth_mayBeginDark (first : LaneId) (runA runB : Nat) (u : State) : u.MayBeginDark (closeBoth first runA runB u) :=
  closeWindows_mayBeginDark first runA runB u

/-! ### The commands that may begin DARK -/

/-- A command whose effect at its reading may begin DARK, or that has none there, may begin DARK. -/
theorem mayBeginDark_of_ite {p : Prop} [Decidable p] {u : State} {f : State → State} (h : p → u.MayBeginDark (f u)) :
    u.MayBeginDark (if p then f u else u) := by
  split
  · next hp => exact h hp
  · exact .of_same rfl

theorem longRun_mayBeginDark {l : LaneId} {r : Nat} {s t : State} (hs : s.holding = false) (hr : s.reaches r = true)
    (ht : exec (.longRun l r) s = .next t) : s.MayBeginDark t := by
  obtain rfl := Host.Outcome.next.inj ((exec_longRun hs hr).symm.trans ht)
  exact .of_reach (mayBeginDark_of_ite fun gives => longRunOn_mayBeginDark (Lane.givesLongRun_iff.mp gives).1)

theorem echoLate_mayBeginDark {l : LaneId} {r : Nat} {s t : State} (hs : s.holding = false) (hr : s.reaches r = true)
    (ht : exec (.echoLate l r) s = .next t) : s.MayBeginDark t := by
  obtain rfl := Host.Outcome.next.inj ((exec_echoLate hs hr).symm.trans ht)
  exact .of_reach (mayBeginDark_of_ite fun _ => echoLateOn_mayBeginDark l _)

theorem windowClose_mayBeginDark {first : LaneId} {runA runB r : Nat} {s t : State} (hs : s.holding = false)
    (hr : s.reaches r = true) (ht : exec (.windowClose first runA runB r) s = .next t) : s.MayBeginDark t := by
  obtain rfl := Host.Outcome.next.inj ((exec_windowClose hs hr).symm.trans ht)
  exact .of_reach (mayBeginDark_of_ite fun _ => closeBoth_mayBeginDark first runA runB _)

/-- A drive fault has its own reading, at which the tick has been read back (R23). -/
theorem driveFault_mayBeginDark {field : LeadInField} {tick : Fin 7} {l : LaneId} {s t : State} (hs : s.holding = false)
    (ht : exec (.driveFault field tick l) s = .next t) : s.MayBeginDark t := by
  cases hr : s.reaches (s.sampledAt field tick l)
  · have idle : exec (.driveFault field tick l) s = .next s := running_dated_of_not _ hs hr
    obtain rfl := Host.Outcome.next.inj (idle.symm.trans ht)
    exact .of_same rfl
  · obtain rfl := Host.Outcome.next.inj ((exec_driveFault hs hr).symm.trans ht)
    refine .of_reach (mayBeginDark_of_ite fun contends => driveFaultOn_mayBeginDark ?_)
    obtain ⟨⟨-, drive⟩, -⟩ := State.contendsWith_iff.mp contends
    exact drive

/-! ### The end of DARK (R170) -/

/-- The first close or the second ends DARK. -/
theorem closeWindows_ends {first : LaneId} {runA runB : Nat} {u : State} (before : darkCondition u.lanes = true)
    (after : darkCondition (closeWindows first runA runB u).lanes = false) (mode : u.ctrl.mode = .dark) :
    u.EndsDark (closeWindows first runA runB u) := by
  rw [closeWindows_eq] at after ⊢
  cases between : darkCondition (afterFirst first runA runB u).lanes
  · exact .after (closeWindow_ends before between mode) (closeWindow_lanesOnly (after.trans between.symm)).1
  · have only : u.LanesOnly (afterFirst first runA runB u) := (closeWindow_lanesOnly (between.trans before.symm)).1
    exact .before only (closeWindow_ends between after (by rwa [only.ctrl]))

/-- A quiet window that is not held, of a lane in SURGE while the other is OFF or in SURGE, ends DARK (R48, R170). -/
theorem closeWindows_settles {first l : LaneId} {runA runB : Nat} {u : State} (surge : (u.lanes.get l).state = .surge)
    (other : (u.lanes.get (otherLane l)).state = .off ∨ (u.lanes.get (otherLane l)).state = .surge)
    (few : (u.lanes.get l).violations < u.threshold) (free : ¬ (u.lanes.get l).windowHolds (runOf runA runB l))
    (mode : u.ctrl.mode = .dark) :
    ((closeWindows first runA runB u).lanes.get l).state = .settling ∧ u.EndsDark (closeWindows first runA runB u) := by
  obtain ⟨-, -, -, -, -, -, settles, -⟩ := closeWindows_judged first l runA runB u
  obtain ⟨settling, -⟩ := settles surge (not_or.mpr ⟨Nat.not_le.mpr few, free⟩)
  have before : darkCondition u.lanes = true := by
    refine darkCondition_iff.mpr ⟨⟨l, by rw [surge]; exact nofun⟩, fun k => ?_⟩
    by_cases hk : k = l
    · exact .inr (hk ▸ surge)
    · rwa [eq_otherLane_of_ne hk]
  refine ⟨settling, closeWindows_ends before (darkCondition_of_bright (l := l) ?_ ?_) mode⟩
  all_goals rw [settling]; exact nofun

/-- The last enabled lane out of SURGE enters it: the DARK condition holds (R54). -/
theorem enterSurge_dark {l : LaneId} {s : State} (cause : SurgeCause) (bright : (s.lanes.get l).state ≠ .surge)
    (other : (s.lanes.get (otherLane l)).state = .off ∨ (s.lanes.get (otherLane l)).state = .surge) :
    darkCondition (enterSurge l cause s).lanes = true := by
  have state : ((enterSurge l cause s).lanes.get (otherLane l)).state = (s.lanes.get (otherLane l)).state := by
    rcases enterSurge_other cause bright with e | e <;> simp [e]
  rw [darkCondition_of_surge (l := l) (by rw [enterSurge_lane cause bright]; rfl), Lane.enabled, state]
  rcases other with e | e <;> rw [e] <;> rfl

theorem longRun_dark {l : LaneId} {u : State} (on : (u.lanes.get l).state ≠ .off) (bright : (u.lanes.get l).state ≠ .surge)
    (other : (u.lanes.get (otherLane l)).state = .off ∨ (u.lanes.get (otherLane l)).state = .surge) :
    darkCondition (longRunOn l u).lanes = true := by
  rw [longRunOn_of_usable on bright]
  refine enterSurge_dark .long (by rwa [mapLane_runsLong_get]) ?_
  rwa [State.mapLane, PerLane.get_set_of_ne _ _ (otherLane_ne l)]

/-- Settles O52: each command meets the DARK condition through one entry into SURGE or through the close of the windows. -/
theorem darkBeginsAndEnds : Obligations.DarkBeginsAndEnds := by
  intro l r s hs hr u x y
  refine ⟨?_, ?_, ?_⟩
  · intro usable unreported other mode
    have on : x.state ≠ .off := by rcases usable with h | h | h <;> rw [h] <;> exact nofun
    have bright : x.state ≠ .surge := by rcases usable with h | h | h <;> rw [h] <;> exact nofun
    have execs : exec (.longRun l r) s = .next (longRunOn l u) := by
      rw [exec_longRun hs hr, if_pos (Lane.givesLongRun_iff.mpr ⟨on, .inl unreported⟩)]
    have before : darkCondition s.lanes = false := (reach_dark r s).symm.trans (darkCondition_of_bright on bright)
    obtain ⟨ctrl, table, turn, latched, flight, plan, tentative, -⟩ :=
      longRun_mayBeginDark hs hr execs before (longRun_dark on bright other) mode
    exact ⟨_, execs, by rw [ctrl], by rw [ctrl], by rw [ctrl], by rw [ctrl], by rw [ctrl], by rw [table], flight, plan, tentative,
      turn, by rw [table], latched⟩
  · intro c command allSurge t ht before after mode
    have may : s.MayBeginDark t := by
      rcases command with rfl | rfl | ⟨first, runA, runB, rfl⟩ | ⟨field, tick, rfl⟩
      · exact longRun_mayBeginDark hs hr ht
      · exact echoLate_mayBeginDark hs hr ht
      · exact windowClose_mayBeginDark hs hr ht
      · exact driveFault_mayBeginDark hs ht
    exact may (Bool.eq_false_iff.mpr (mt darkCondition_iff.mp before)) (darkCondition_iff.mpr after) mode
  · intro first runA runB due surge other told calm few free mode back hback spell hspell claims
    have ctrl : u.ctrl = s.ctrl := by simp [u]
    have table : u.table = s.table := by simp [u]
    have quiet : ¬ x.windowHolds (runOf runA runB l) := by
      rintro (held | ⟨differs, long⟩)
      · rw [free] at held
        exact nomatch held
      · rcases calm with same | short
        · exact differs same
        · exact absurd long (Nat.not_lt.mpr short)
    obtain ⟨settling, dark, returns, ends⟩ :=
      closeWindows_settles (first := first) surge other (by rwa [State.threshold, ctrl]) quiet (by rwa [ctrl])
    rw [ctrl, table] at ends
    have execs : exec (.windowClose first runA runB r) s = .next (closeBoth first runA runB u) := by
      rw [exec_windowClose hs hr, if_pos due]
    exact ⟨_, execs, settling, dark, returns, ends back hback spell hspell⟩

end Sys2Proof.Machine
end

section
/-! PROOF LAYER. The fields of the station modes (section 9.1, R66): the operations that leave them as they are, the changes of mode, and the
operations composed of both. -/

namespace Sys2Proof.Machine

open Sys2Proof

/-! ### What the fields of the modes depend on -/

/-- What the controller holds of its modes: the mode, and the state that belongs to one mode alone (section 9.1). -/
def Controller.modal (c : Controller) :
    Mode × Option Nat × Option Nat × Option Bool × Option Nat × Option Mode × Option FaultReason :=
  (c.mode, c.startCount, c.alone, c.lockTaken, c.darkRounds, c.returnMode, c.faultReason)

/-- The modal state of the controller stands, and no learning begins. -/
structure State.ModeStands (s t : State) : Prop where
  modal : t.ctrl.modal = s.ctrl.modal
  learning : t.table.learning.isSome → s.table.learning.isSome

theorem State.ModeStands.of_eq {s t : State} (ctrl : t.ctrl = s.ctrl) (learning : t.table.learning = s.table.learning) :
    s.ModeStands t :=
  ⟨by rw [ctrl], by rw [learning]; exact id⟩

theorem State.ModeStands.refl (s : State) : s.ModeStands s := .of_eq rfl rfl

theorem State.ModeStands.trans {s u t : State} (h : s.ModeStands u) (g : u.ModeStands t) : s.ModeStands t :=
  ⟨g.modal.trans h.modal, h.learning ∘ g.learning⟩

theorem State.ModeStands.mode {s t : State} (h : s.ModeStands t) : t.ctrl.mode = s.ctrl.mode := congrArg Prod.fst h.modal

theorem State.ModeFields.of_stands {s t : State} (h : s.ModeFields) (stands : s.ModeStands t) : t.ModeFields := by
  obtain ⟨modal, learning⟩ := stands
  simp only [Controller.modal, Prod.mk.injEq] at modal
  obtain ⟨mode, start, alone, lock, rounds, back, fault⟩ := modal
  obtain ⟨hstart, halone, hlock, hrounds, hback, hfault, hlearning⟩ := h
  unfold State.ModeFields
  rw [mode, start, alone, lock, rounds, back, fault]
  exact ⟨hstart, halone, hlock, hrounds, hback, hfault, hlearning ∘ learning⟩

theorem State.ModeFields.of_eq {s t : State} (h : s.ModeFields) (ctrl : t.ctrl = s.ctrl)
    (learning : t.table.learning = s.table.learning) : t.ModeFields :=
  h.of_stands (.of_eq ctrl learning)

/-- An operation that leaves the controller and the slot table alone. -/
theorem State.ModeFields.of_frame {s t : State} (h : s.ModeFields) (frame : t.ctrl = s.ctrl ∧ t.table = s.table) : t.ModeFields :=
  h.of_eq frame.1 (by rw [frame.2])

theorem ite_modeFields {c : Prop} [Decidable c] {s t : State} (hs : c → s.ModeFields) (ht : ¬ c → t.ModeFields) :
    (if c then s else t).ModeFields := by
  split
  · exact hs (by assumption)
  · exact ht (by assumption)

/-! ### Operations that leave the modal state alone -/

theorem carryPending_stands (s : State) : s.ModeStands (carryPending s) := by
  refine ⟨by simp, ?_⟩
  unfold carryPending
  split
  · exact id
  · next L hL => intro _; rw [hL]; rfl

theorem endFlightLost_stands (s : State) : s.ModeStands (endFlightLost s) := .of_eq (by simp) (by simp)

theorem endFlightUnanswered_stands (s : State) : s.ModeStands (endFlightUnanswered s) := by
  refine ⟨by simp, ?_⟩
  unfold endFlightUnanswered
  split
  · exact id
  · split
    · exact id
    · exact (carryPending_stands _).learning
    iterate 2 exact id

theorem recordSent_stands (s : State) : s.ModeStands (recordSent s) := .of_eq (by simp) (by simp)

theorem endFlightOnLeaving_stands (s : State) : s.ModeStands (endFlightOnLeaving s) := by
  unfold endFlightOnLeaving
  split
  · have unread : s.ModeStands (recordUnread (recordSent s)) := .of_eq (by simp) (by simp)
    exact (unread.trans (endFlightUnanswered_stands _)).trans (.of_eq rfl rfl)
  · exact (endFlightLost_stands s).trans (.of_eq rfl rfl)

theorem learnAtPass_stands (n : Nat) (m : Copy Block) (s : State) : s.ModeStands (learnAtPass n m s) := by
  refine ⟨by simp, ?_⟩
  unfold learnAtPass
  split
  · exact id
  · next L hL => intro _; rw [hL]; rfl

theorem learnHeader_stands (m : Copy Block) (s : State) : s.ModeStands (learnHeader m s) := by
  refine ⟨by simp, ?_⟩
  unfold learnHeader
  split <;> simp

theorem takeAnswers_stands (ans : AnswerRecord) (sendFirst : Bool) (s : State) : s.ModeStands (takeAnswers ans sendFirst s) := by
  refine .of_eq (by simp) ?_
  unfold takeAnswers applyIf
  dsimp only
  (repeat' split) <;> simp [commitChange]

theorem dealOrphan_stands (s : State) (o : Orphan) : s.ModeStands (dealOrphan s o) := by
  refine ⟨?_, by simp⟩
  unfold dealOrphan
  dsimp only
  (repeat' split) <;> simp [Controller.modal]

theorem foldl_stands {α : Type} {f : State → α → State} (hf : ∀ (s : State) (a : α), s.ModeStands (f s a)) (l : List α) (s : State) :
    s.ModeStands (l.foldl f s) := by
  induction l generalizing s with
  | nil => exact .refl s
  | cons a l ih => exact (hf s a).trans (ih (f s a))

theorem warmRejoin_stands (s : State) : s.ModeStands (warmRejoin s) := by
  have entries := foldl_stands (f := fun s (r : ContextRecord) => s.mapSend r.port (fun _ => r.heldEntry))
    (fun _ _ => .of_eq rfl rfl) (s.ctrl.context.records.filter (·.matches s)) s
  unfold warmRejoin
  dsimp only
  split
  · exact ⟨entries.modal, entries.learning⟩
  · exact .refl s

/-! ### Changes of mode -/

/-- The fields of a mode: which of them are present. -/
theorem State.modeFields_of {s : State} {m : Mode} (mode : s.ctrl.mode = m) (start : s.ctrl.startCount.isSome ↔ m = .starting)
    (alone : s.ctrl.alone.isSome ↔ m = .listening) (lock : s.ctrl.lockTaken.isSome ↔ m = .listening)
    (rounds : s.ctrl.darkRounds.isSome ↔ m = .dark) (back : s.ctrl.returnMode.isSome ↔ m = .dark)
    (fault : s.ctrl.faultReason.isSome ↔ m = .faulted)
    (learning : s.table.learning.isSome → m = .listening ∨ m = .resync) : s.ModeFields := by
  subst mode
  exact ⟨start, alone, lock, rounds, back, fault, learning⟩

/-- The state of a mode is absent in every mode that has none: JOINED and RESYNC. -/
def Controller.Bare (c : Controller) : Prop :=
  c.startCount = none ∧ c.alone = none ∧ c.lockTaken = none ∧ c.darkRounds = none ∧ c.returnMode = none ∧ c.faultReason = none

theorem State.ModeFields.bare {s : State} (h : s.ModeFields) (mode : s.ctrl.mode = .joined ∨ s.ctrl.mode = .resync) :
    s.ctrl.Bare := by
  obtain ⟨start, alone, lock, rounds, back, fault, -⟩ := h
  unfold Controller.Bare
  rcases mode with m | m <;> simp_all

theorem State.ModeFields.faultReason_none {s : State} (h : s.ModeFields) (mode : s.ctrl.mode ≠ .faulted) :
    s.ctrl.faultReason = none := by
  obtain ⟨-, -, -, -, -, fault, -⟩ := h
  simpa [mode] using fault

theorem State.ModeFields.learning_none {s : State} (h : s.ModeFields) (listening : s.ctrl.mode ≠ .listening)
    (resync : s.ctrl.mode ≠ .resync) : s.table.learning = none := by
  obtain ⟨-, -, -, -, -, -, learning⟩ := h
  simpa [listening, resync] using learning

theorem changeMode_joined_modeFields {s : State} (cause : ModeCause) (bare : s.ctrl.Bare) (learning : s.table.learning = none) :
    (changeMode .joined cause s).ModeFields := by
  obtain ⟨start, alone, lock, rounds, back, fault⟩ := bare
  refine State.modeFields_of (m := .joined) ?_ ?_ ?_ ?_ ?_ ?_ ?_ ?_ <;> simp [*]

theorem enterResync_modeFields {s : State} (cause : ModeCause) (epoch : Epoch) (bare : s.ctrl.Bare) :
    (enterResync cause epoch s).ModeFields := by
  obtain ⟨start, alone, lock, rounds, back, fault⟩ := bare
  refine State.modeFields_of (m := .resync) ?_ ?_ ?_ ?_ ?_ ?_ ?_ ?_ <;> simp [enterResync_ctrl, *]

/-- LISTENING begins, from STARTING or at the end of DARK, its counts afresh (R164, R170). -/
theorem enterListening_modeFields {s : State} (cause : ModeCause) (start : s.ctrl.startCount = none)
    (rounds : s.ctrl.darkRounds = none) (back : s.ctrl.returnMode = none) (fault : s.ctrl.faultReason = none)
    (learning : s.table.learning = none) :
    ({ changeMode .listening cause s with
        ctrl := { (changeMode .listening cause s).ctrl with alone := some 0, lockTaken := some false } } : State).ModeFields := by
  refine State.modeFields_of (m := .listening) ?_ ?_ ?_ ?_ ?_ ?_ ?_ ?_ <;> simp [*]

/-- Learning is discarded as the station leaves for DARK or FAULTED, and the end of its flight begins none (R66). -/
theorem endFlightOnLeaving_learning (s : State) : (endFlightOnLeaving (discardLearning s)).table.learning = none := by
  rw [(endFlightOnLeaving_over (s := discardLearning s) rfl).2]
  rfl

theorem enterDark_learning (back : Mode) (s : State) : (enterDark back s).table.learning = none := by
  simpa [enterDark] using endFlightOnLeaving_learning s

theorem enterFaulted_learning (reason : FaultReason) (cause : ModeCause) (s : State) :
    (enterFaulted reason cause s).table.learning = none := by
  simpa [enterFaulted] using endFlightOnLeaving_learning s

theorem enterDark_modeFields {s : State} (back : Mode) (fault : s.ctrl.faultReason = none) : (enterDark back s).ModeFields := by
  refine State.modeFields_of (m := .dark) ?_ ?_ ?_ ?_ ?_ ?_ ?_ (by simp [enterDark_learning]) <;> simp [enterDark, fault]

theorem enterFaulted_modeFields (reason : FaultReason) (cause : ModeCause) (s : State) : (enterFaulted reason cause s).ModeFields := by
  refine State.modeFields_of (m := .faulted) ?_ ?_ ?_ ?_ ?_ ?_ ?_ (by simp [enterFaulted_learning]) <;> simp [enterFaulted]

theorem darkOnset_modeFields {s : State} (h : s.ModeFields) : (darkOnset s).ModeFields := by
  unfold darkOnset
  split
  iterate 3
    · next mode => exact enterDark_modeFields _ (h.faultReason_none (by rw [mode]; decide))
  iterate 3 exact h

theorem darkEnd_modeFields {s : State} (h : s.ModeFields) : (darkEnd s).ModeFields := by
  cases mode : s.ctrl.mode with
  | dark =>
    have fault := h.faultReason_none (by rw [mode]; decide)
    have learning := h.learning_none (by rw [mode]; decide) (by rw [mode]; decide)
    obtain ⟨start, alone, lock, -⟩ := h
    simp only [mode, reduceCtorEq, iff_false, Option.not_isSome_iff_eq_none] at start alone lock
    have bare : s.lit.ctrl.Bare := ⟨start, alone, lock, rfl, rfl, fault⟩
    by_cases joined : s.ctrl.returnMode = some .joined
    · rw [darkEnd_of_joined mode joined]
      exact ite_modeFields (fun _ => changeMode_joined_modeFields _ bare learning) (fun _ => enterResync_modeFields _ _ bare)
    by_cases resync : s.ctrl.returnMode = some .resync
    · rw [darkEnd_of_resync mode resync]
      exact enterResync_modeFields _ _ bare
    · rw [darkEnd_of_other mode joined resync]
      exact enterListening_modeFields .darkEnd start rfl rfl fault learning
  | _ =>
    unfold darkEnd
    simpa only [mode] using h

/-- From JOINED to RESYNC, if the test holds (R64, R95, R168). -/
theorem resyncIf_modeFields {s : State} {c : Prop} [Decidable c] (cause : ModeCause) (epoch : Epoch) (h : s.ModeFields)
    (mode : c → s.ctrl.mode = .joined) : (if c then enterResync cause epoch s else s).ModeFields :=
  ite_modeFields (fun hc => enterResync_modeFields _ _ (h.bare (.inl (mode hc)))) (fun _ => h)

theorem testEpoch_modeFields {s : State} (e : Epoch) (h : s.ModeFields) : (testEpoch e s).ModeFields :=
  resyncIf_modeFields _ _ h (fun hc => by simpa using (Bool.and_eq_true_iff.mp hc).1)

theorem reportAnswersLost_modeFields {s : State} (h : s.ModeFields) : (reportAnswersLost s).ModeFields :=
  resyncIf_modeFields _ _ h (fun hc => by simpa using hc)

/-! ### Changes of lane state -/

theorem laneChanged_modeFields {s : State} (wasDark : Bool) (h : s.ModeFields) : (laneChanged wasDark s).ModeFields := by
  have turn : (dropTurnIfMute s).ModeFields := h.of_frame (by simp)
  exact ite_modeFields (fun _ => darkOnset_modeFields turn)
    (fun _ => ite_modeFields (fun _ => darkEnd_modeFields turn) (fun _ => turn))

theorem enterSurge_modeFields {s : State} (l : LaneId) (cause : SurgeCause) (h : s.ModeFields) : (enterSurge l cause s).ModeFields :=
  laneChanged_modeFields _ h

theorem enterSettling_modeFields {s : State} (l : LaneId) (h : s.ModeFields) : (enterSettling l s).ModeFields :=
  laneChanged_modeFields _ h

theorem judgeWindow_modeFields {s : State} (l : LaneId) (h : s.ModeFields) : (judgeWindow l s).ModeFields := by
  have calm : ∀ new, (enterUsable l new s).ModeFields := fun _ => h.of_frame (by simp)
  unfold judgeWindow
  dsimp only
  split
  · exact h
  · exact ite_modeFields (fun _ => calm _) (fun _ => h)
  · exact ite_modeFields (fun _ => enterSurge_modeFields _ _ h) (fun _ => calm _)
  · exact ite_modeFields (fun _ => enterSettling_modeFields _ h) (fun _ => h)
  · exact ite_modeFields (fun _ => enterSurge_modeFields _ _ h) (fun _ => h.of_frame (by simp))

theorem closeWindow_modeFields {s : State} (l : LaneId) (run : Nat) (h : s.ModeFields) : (closeWindow l run s).ModeFields :=
  ite_modeFields (fun _ => judgeWindow_modeFields (s := s.mapLane l (Lane.readRun run)) l h) (fun _ => h)

theorem closeBoth_modeFields {s : State} (first : LaneId) (runA runB : Nat) (h : s.ModeFields) :
    (closeBoth first runA runB s).ModeFields := by
  cases first
  · exact closeWindow_modeFields .b runB (closeWindow_modeFields .a runA h)
  · exact closeWindow_modeFields .a runA (closeWindow_modeFields .b runB h)

theorem longRunOn_modeFields {s : State} (l : LaneId) (h : s.ModeFields) : (longRunOn l s).ModeFields := by
  have longer : ∀ f : Lane → Lane, (s.mapLane l f).ModeFields := fun _ => h
  unfold longRunOn
  dsimp only
  split
  · exact longer _
  iterate 3 exact enterSurge_modeFields _ _ (longer _)
  · split
    iterate 2 exact longer _
    iterate 3 exact h.of_frame (by simp)
    · exact longer _

theorem echoLateOn_modeFields {s : State} (l : LaneId) (h : s.ModeFields) : (echoLateOn l s).ModeFields := by
  have measuring : (s.mapLane l (fun x => { x.endRun with measuring := true })).ModeFields := h
  exact ite_modeFields (fun _ => measuring) (fun _ => enterSurge_modeFields l .echoLate measuring)

theorem driveFaultOn_modeFields {s : State} (l : LaneId) (h : s.ModeFields) : (driveFaultOn l s).ModeFields := by
  have withdrawn : (withdrawAll (s.mapLane l (fun x => (x.countViolations 1).endRun))).ModeFields := h
  exact ite_modeFields (fun _ => enterSurge_modeFields l .drive withdrawn) (fun _ => withdrawn)

end Sys2Proof.Machine
end

section
/-! PROOF LAYER. The fields of the station modes at a round start (R163 to R166, R169, R70, R71). -/

namespace Sys2Proof.Machine

open Sys2Proof

/-- The round start counts by the mode before it: while its steps are taken, learning in progress is that mode's, and the station stays in
STARTING until the step that counts its round starts (`uncounted`). -/
structure State.AtRound (ctx : RoundCtx) (uncounted : Prop) (s : State) : Prop where
  fields : s.ModeFields
  learns : s.table.learning.isSome → s.ctrl.mode = ctx.mode
  starts : uncounted → ctx.mode = .starting → s.ctrl.mode = .starting

section AtRound

variable {ctx : RoundCtx} {uncounted : Prop} {s : State}

theorem State.AtRound.of_stands {t : State} (h : s.AtRound ctx uncounted) (stands : s.ModeStands t) : t.AtRound ctx uncounted :=
  ⟨h.fields.of_stands stands, fun hl => stands.mode.trans (h.learns (stands.learning hl)),
    fun hu hm => stands.mode.trans (h.starts hu hm)⟩

/-- A step that leaves the controller alone and begins no learning. -/
theorem State.AtRound.of_eq {t : State} (h : s.AtRound ctx uncounted) (ctrl : t.ctrl = s.ctrl)
    (learning : t.table.learning = s.table.learning) : t.AtRound ctx uncounted :=
  h.of_stands (.of_eq ctrl learning)

theorem State.AtRound.counted (h : s.AtRound ctx uncounted) : s.AtRound ctx False := ⟨h.fields, h.learns, False.elim⟩

/-- A station that learns no longer, in whatever mode it is now, with its start-up rounds counted. -/
theorem State.ModeFields.atRound (h : s.ModeFields) (learning : s.table.learning = none) : s.AtRound ctx False :=
  ⟨h, fun hl => by simp [learning] at hl, False.elim⟩

/-! ### The step that counts round starts -/

theorem endStarting_atRound (h : s.ModeFields) (mode : s.ctrl.mode = .starting) : (endStarting s).AtRound ctx False := by
  have fault := h.faultReason_none (by rw [mode]; decide)
  have learning := h.learning_none (by rw [mode]; decide) (by rw [mode]; decide)
  have rounds : s.ctrl.darkRounds = none ∧ s.ctrl.returnMode = none := by
    obtain ⟨-, -, -, rounds, back, -⟩ := h
    simp only [mode, reduceCtorEq, iff_false, Option.not_isSome_iff_eq_none] at rounds back
    exact ⟨rounds, back⟩
  unfold endStarting
  dsimp only
  split
  · exact (enterFaulted_modeFields _ _ _).atRound (enterFaulted_learning _ _ _)
  · split
    · exact (enterDark_modeFields (s := { s with ctrl := { s.ctrl with startCount := none } }) _ fault).atRound (enterDark_learning _ _)
    · exact (enterListening_modeFields (s := { s with ctrl := { s.ctrl with startCount := none } }) _ rfl rounds.1 rounds.2 fault
        learning).atRound (by simpa using learning)

theorem reachAloneLimit_atRound (sendFirst : Bool) (h : s.ModeFields) (mode : s.ctrl.mode = .listening) :
    (reachAloneLimit sendFirst s).AtRound ctx False := by
  have learning : (reachAloneLimit sendFirst s).table.learning = none := by simp [reachAloneLimit, setAllOpen]
  refine State.ModeFields.atRound ?_ learning
  obtain ⟨start, -, -, rounds, back, fault, -⟩ := h
  simp only [mode, reduceCtorEq, iff_false, Option.not_isSome_iff_eq_none] at start rounds back fault
  refine changeMode_joined_modeFields _ ?_ (by simp [setAllOpen])
  simp [Controller.Bare, start, rounds, back, fault]

theorem countRounds_atRound (h : s.AtRound ctx True) : (countRounds ctx s).AtRound ctx False := by
  obtain ⟨fields, learns, starts⟩ := h
  have stands : s.AtRound ctx False := ⟨fields, learns, False.elim⟩
  unfold countRounds
  split
  · next hm =>
    have mode := starts trivial hm
    have counted : ∀ n, ({ s with ctrl := { s.ctrl with startCount := some n } } : State).ModeFields := by
      obtain ⟨-, rest⟩ := fields
      exact fun n => ⟨by simp [mode], rest⟩
    dsimp only
    split
    · exact endStarting_atRound (counted _) mode
    · exact ⟨counted _, learns, False.elim⟩
  · split
    · next n hn =>
      have mode : s.ctrl.mode = .listening := by
        obtain ⟨-, alone, -⟩ := fields
        exact alone.mp (by simp [hn])
      have counted : ∀ n, ({ s with ctrl := { s.ctrl with alone := some n } } : State).ModeFields := by
        obtain ⟨start, -, rest⟩ := fields
        exact fun n => ⟨start, by simp [mode], rest⟩
      dsimp only
      split
      · split
        · exact reachAloneLimit_atRound _ (counted _) mode
        · exact ⟨counted _, learns, False.elim⟩
      · exact stands
    · exact stands
  · refine ⟨?_, learns, False.elim⟩
    obtain ⟨start, alone, lock, rounds, rest⟩ := fields
    exact ⟨start, alone, lock, by simpa using rounds, rest⟩
  iterate 3 exact stands

/-! ### The step that completes learning -/

/-- Learning that completes is that of LISTENING or RESYNC, and leaves the station in JOINED (R71, R165). -/
theorem completeLearning_modeFields (L : Learning) (h : s.ModeFields) (learns : s.table.learning.isSome)
    (mode : s.ctrl.mode = ctx.mode) : (completeLearning ctx L s).ModeFields := by
  have settled : (settlePending (tableChanged ctx.sendFirst (replaceTable L s))).ctrl = s.ctrl := by simp
  have replaced : (settlePending (tableChanged ctx.sendFirst (replaceTable L s))).table.learning = none := by simp [replaceTable]
  have modal : ∀ u : State, (formOrphans (warmRejoin u)).ctrl.modal = u.ctrl.modal := fun u => (warmRejoin_stands u).modal
  unfold completeLearning
  dsimp only
  split
  · next listening =>
    have listens : s.ctrl.mode = .listening := mode.trans (by simpa using listening)
    refine changeMode_joined_modeFields _ ?_ (by simpa using replaced)
    have ctrl := modal (settlePending (tableChanged ctx.sendFirst (replaceTable L s)))
    rw [settled] at ctrl
    simp only [Controller.modal, Prod.mk.injEq] at ctrl
    obtain ⟨-, start, -, -, rounds, back, fault⟩ := ctrl
    obtain ⟨hstart, -, -, hrounds, hback, hfault, -⟩ := h
    simp only [listens, reduceCtorEq, iff_false, Option.not_isSome_iff_eq_none] at hstart hrounds hback hfault
    exact ⟨start.trans hstart, rfl, rfl, rounds.trans hrounds, back.trans hback, fault.trans hfault⟩
  · next other =>
    have resyncs : s.ctrl.mode = .resync := by
      obtain ⟨-, -, -, -, -, -, learning⟩ := h
      exact (learning learns).resolve_left (fun listens => other (by rw [← mode, listens]; rfl))
    exact changeMode_joined_modeFields _ (by rw [settled]; exact h.bare (.inr resyncs)) replaced

theorem completeLearning_learning (L : Learning) : (completeLearning ctx L s).table.learning = none := by
  unfold completeLearning
  dsimp only
  split <;> simp [replaceTable]

theorem learnRound_atRound (h : s.AtRound ctx uncounted) : (learnRound ctx s).AtRound ctx uncounted := by
  unfold learnRound
  split
  · exact h
  · next L hL =>
    have learns : s.table.learning.isSome := by rw [hL]; rfl
    have mode := h.learns learns
    dsimp only
    split
    · have done := completeLearning_modeFields (ctx := ctx) { L with rounds := L.rounds + 1 } h.fields learns mode
      refine ⟨done, fun hl => ?_, fun hu hm => ?_⟩
      · rw [completeLearning_learning] at hl
        cases hl
      · have none := h.fields.learning_none (by rw [h.starts hu hm]; decide) (by rw [h.starts hu hm]; decide)
        rw [none] at hL
        cases hL
    · obtain ⟨start, alone, lock, rounds, back, fault, learning⟩ := h.fields
      exact ⟨⟨start, alone, lock, rounds, back, fault, fun _ => learning learns⟩, fun _ => mode, h.starts⟩

/-! ### All steps -/

/-- Every step but the one that counts round starts. -/
theorem roundStep_atRound {step : RoundStep} (hstep : step ≠ .counts) (h : s.AtRound ctx uncounted) :
    (roundStep ctx s step).AtRound ctx uncounted := by
  have guarded : ∀ (c : Bool) (f : State → State), (∀ t : State, (f t).ctrl = t.ctrl ∧ (f t).table.learning = t.table.learning) →
      (applyIf c f s).AtRound ctx uncounted := by
    intro c f hf
    cases c
    · exact h
    · exact h.of_eq (hf s).1 (hf s).2
  cases step with
  | counts => exact absurd rfl hstep
  | learning => exact learnRound_atRound h
  | monitors => exact h.of_eq (by simp [roundStep]) (by simp [roundStep])
  | heard => exact h.of_eq rfl rfl
  | playout => exact h.of_eq (by simp [roundStep]) (by simp [roundStep])
  | askWaits => exact h.of_eq (by simp [roundStep]) (by simp [roundStep])
  | runs => exact h.of_eq (by simp [roundStep]) (by simp [roundStep])
  | held => exact guarded _ _ (fun _ => by simp)
  | reclaims => exact guarded _ _ (fun _ => by simp)
  | asker => exact guarded _ _ (fun _ => by simp)
  | claimLimit => exact guarded _ _ (fun _ => by simp)
  | revalidate => exact guarded _ _ (fun _ => by simp)
  | select => exact guarded _ _ (fun _ => by simp)
  | orphans =>
    refine h.of_stands (State.ModeStands.trans ?_ (foldl_stands dealOrphan_stands s.ctrl.orphans _))
    exact ⟨rfl, id⟩
  | rewrite =>
    unfold roundStep applyIf
    dsimp only
    split
    · exact h.of_stands ⟨rfl, id⟩
    · exact h

theorem foldl_roundStep_atRound {steps : List RoundStep} (hsteps : .counts ∉ steps) (h : s.AtRound ctx uncounted) :
    (steps.foldl (roundStep ctx) s).AtRound ctx uncounted := by
  induction steps generalizing s with
  | nil => exact h
  | cons step steps ih =>
    rw [List.mem_cons, not_or] at hsteps
    exact ih hsteps.2 (roundStep_atRound (Ne.symm hsteps.1) h)

end AtRound

/-- The step that counts round starts has its place in the order, and no other. -/
theorem startRound_modeFields {order : RoundOrder} (ho : order.admissible = true) (expiry : Bool) (r : Nat) {s : State}
    (h : s.ModeFields) : (startRound order expiry r s).ModeFields := by
  have once := RoundOrder.count_of_admissible ho .counts
  obtain ⟨before, after, steps⟩ := List.append_of_mem (List.count_pos_iff.mp (by rw [once]; exact Nat.one_pos))
  rw [steps, List.count_append, List.count_cons_self] at once
  have opened : (openRound r s).AtRound
      { mode := s.ctrl.mode, expiry := expiry, returnMode := s.ctrl.returnMode, sendFirst := order.sendFirst } True :=
    ⟨h, fun _ => rfl, fun _ hm => hm⟩
  unfold startRound
  dsimp only
  rw [steps, List.foldl_append, List.foldl_cons]
  refine (foldl_roundStep_atRound ?_ (countRounds_atRound (foldl_roundStep_atRound ?_ opened))).fields
  · exact List.count_eq_zero.mp (by omega)
  · exact List.count_eq_zero.mp (by omega)

end Sys2Proof.Machine
end

section
/-! PROOF LAYER. Every step keeps the fields of the station modes (O59): the round clock, the closes of the fields, the slots, and every
command. -/

namespace Sys2Proof.Machine

open Sys2Proof

/-! ### The round clock -/

theorem reach_modeFields {s : State} (r : Nat) (h : s.ModeFields) : (reach r s).ModeFields := h.of_frame (by simp)

theorem atEvent_modeFields {s : State} (k : Nat) (h : s.ModeFields) : (atEvent k s).ModeFields := h.of_frame (by simp)

theorem loseAnswers_modeFields {s : State} (h : s.ModeFields) : (loseAnswers s).ModeFields := by
  have lost : ∀ u : State, s.ModeStands u → (if s.completed then endFlightUnanswered u else endFlightLost u).ModeFields :=
    fun u hu => ite_modeFields (fun _ => h.of_stands (hu.trans (endFlightUnanswered_stands u)))
      (fun _ => h.of_stands (hu.trans (endFlightLost_stands u)))
  unfold loseAnswers applyIf
  exact ite_modeFields (fun _ => reportAnswersLost_modeFields (lost _ (.of_eq rfl rfl))) (fun _ => lost _ (.of_eq rfl rfl))

theorem cutShort_modeFields {s : State} (h : s.ModeFields) : (cutShort s).ModeFields := by
  have ended : (if s.awaitsAnswers then loseAnswers (recordSent s) else endFlightLost s).ModeFields :=
    ite_modeFields (fun _ => loseAnswers_modeFields (h.of_stands (recordSent_stands s)))
      (fun _ => h.of_stands (endFlightLost_stands s))
  exact ended

/-- The lock of LISTENING begins learning there (R66, R165). -/
theorem listenMark_modeFields {s : State} (valid : Bool) (h : s.ModeFields) : (listenMark valid s).ModeFields := by
  unfold listenMark
  split
  · next hm =>
    have mode : s.ctrl.mode = .listening := by simpa using hm
    obtain ⟨start, alone, lock, rest⟩ := h
    have heard : (if valid then { s with ctrl := { s.ctrl with alone := some 0 } } else s).ModeFields :=
      ite_modeFields (fun _ => ⟨start, by simp [mode], lock, rest⟩) (fun _ => ⟨start, alone, lock, rest⟩)
    have listens : (if valid then { s with ctrl := { s.ctrl with alone := some 0 } } else s : State).ctrl.mode = .listening := by
      split <;> exact mode
    refine ite_modeFields (fun _ => ?_) (fun _ => heard)
    obtain ⟨start, alone, -, rounds, back, fault, -⟩ := heard
    exact ⟨start, alone, by simp [beginLearning, listens], rounds, back, fault, fun _ => .inl listens⟩
  · exact h

theorem closeMark_modeFields {s : State} (a b : Copy Unit) (leadInFirst : Bool) (h : s.ModeFields) :
    (closeMark a b leadInFirst s).ModeFields := by
  have counted : (monitorMark .b b (monitorMark .a a (countMark (mergeMarks a b).isValid s))).ModeFields := h.of_frame (by simp)
  exact (listenMark_modeFields (mergeMarks a b).isValid counted).of_frame (by simp [closeMark])

theorem adoptMark_modeFields {s : State} (l : LaneId) (x : Search) (second : MarkReading) (leadInFirst : Bool) {order : RoundOrder}
    (ho : order.admissible = true) (h : s.ModeFields) : (adoptMark l x second leadInFirst order s).ModeFields := by
  have told : (tellAdoption l second (reach x.completesAt s)).ModeFields := h.of_frame (by simp)
  have adopted : (adopt x (if x.crossed then tellAdoption l second (reach x.completesAt s)
      else startRound order false (tellAdoption l second (reach x.completesAt s)).clock.timer
        (cutShort (tellAdoption l second (reach x.completesAt s))))).ModeFields :=
    ite_modeFields (fun _ => told) (fun _ => startRound_modeFields ho false _ (cutShort_modeFields told))
  cases l
  · exact closeMark_modeFields _ _ _ adopted
  · exact closeMark_modeFields _ _ _ adopted

theorem expire_modeFields {s : State} {order : RoundOrder} (ho : order.admissible = true) (h : s.ModeFields) :
    (expire order s).ModeFields :=
  (startRound_modeFields ho true Config.roundUnits (reach_modeFields Config.roundUnits h)).of_frame (by simp [expire])

theorem startAtEdge_modeFields {s : State} (l : LaneId) (r : Nat) {order : RoundOrder} (ho : order.admissible = true)
    (h : s.ModeFields) : (startAtEdge l r order s).ModeFields := by
  have edge : ({ (reach r s).mapLane l Lane.beginRun with
      clock := { ((reach r s).mapLane l Lane.beginRun).clock with capture := r } } : State).ModeFields := reach_modeFields r h
  exact startRound_modeFields ho false r edge

/-! ### The closes of the fields, and the slots -/

/-- A number that this station has as its own, if it is found (R171). -/
theorem duplicateIf_modeFields {s : State} {c : Prop} [Decidable c] (h : s.ModeFields) :
    (if c then enterFaulted .duplicate .duplicate s else s).ModeFields :=
  ite_modeFields (fun _ => enterFaulted_modeFields _ _ s) (fun _ => h)

theorem tableAtNotice_modeFields {s : State} (m : MergedNotice) (first : LaneId) (h : s.ModeFields) :
    (tableAtNotice m first s).ModeFields := by
  have heard : ((m.notices first).foldl (fun s n => hear (leadInSender n.leadIn) s) s).ModeFields :=
    h.of_stands (foldl_stands (f := fun s (n : Notice) => hear (leadInSender n.leadIn) s) (fun _ _ => .of_eq rfl rfl) _ s)
  unfold tableAtNotice
  dsimp only
  split
  · exact heard
  · exact testEpoch_modeFields _ heard
  · exact ite_modeFields (fun _ => testEpoch_modeFields _ heard) (fun _ => testEpoch_modeFields _ heard)

theorem noticeStep_modeFields {s : State} (wasJoined : Bool) (m : MergedNotice) (first : LaneId) (step : CloseStep)
    (h : s.ModeFields) : (noticeStep wasJoined m first s step).ModeFields := by
  cases step with
  | slotTable => exact tableAtNotice_modeFields m first h
  | noticeEngine => exact h.of_frame (by simp [noticeStep])
  | controller => exact duplicateIf_modeFields h

theorem foldl_modeFields {α : Type} {f : State → α → State} (hf : ∀ (s : State) (a : α), s.ModeFields → (f s a).ModeFields)
    (l : List α) {s : State} (h : s.ModeFields) : (l.foldl f s).ModeFields := by
  induction l generalizing s with
  | nil => exact h
  | cons a l ih => exact ih (hf s a h)

theorem closeNotice_modeFields {s : State} (a b : NoticeReading) (order : CloseOrder) (h : s.ModeFields) :
    (closeNotice a b order s).ModeFields := by
  have flown : (if s.completed then recordSent s else endFlightLost s).ModeFields :=
    ite_modeFields (fun _ => h.of_stands (recordSent_stands s)) (fun _ => h.of_stands (endFlightLost_stands s))
  have told := flown.of_frame (t := tellLevels a.levelShown b.levelShown (if s.completed then recordSent s else endFlightLost s))
    (by simp)
  exact (foldl_modeFields (fun _ step => noticeStep_modeFields
    ((if s.completed then recordSent s else endFlightLost s).ctrl.mode == .joined) (s.mergedNotice a b) order.first step)
    order.steps told).of_frame (by simp [closeNotice])

theorem closeAnswers_modeFields {s : State} (a b : AnswerReading) (sendFirst : Bool) (h : s.ModeFields) :
    (closeAnswers a b sendFirst s).ModeFields := by
  have told : ∀ ans, ({ tellLevels a.levelShown b.levelShown s with
      notices := { (tellLevels a.levelShown b.levelShown s).notices with lastAnswer := some ans } } : State).ModeFields :=
    fun _ => h.of_frame (by simp)
  have taken := ite_modeFields (c := (mergeAnswers s.lanes a b).read = true)
    (fun _ => (told (mergeAnswers s.lanes a b)).of_stands (takeAnswers_stands (mergeAnswers s.lanes a b) sendFirst _))
    (fun _ => loseAnswers_modeFields (told (mergeAnswers s.lanes a b)))
  exact taken

theorem takeHeader_modeFields {s : State} (m : Copy Block) (h : s.ModeFields) : (takeHeader m s).ModeFields := by
  unfold takeHeader
  split
  · exact testEpoch_modeFields _ h
  iterate 2 exact h

/-- The readings of a block are told to the counts and to the dominant runs alone. -/
theorem tellBlocks_modeFields {s : State} (a b : BlockReading) (x y : LevelShown) (h : s.ModeFields) :
    (tellLevels x y (countHeader .b b (countHeader .a a s))).ModeFields :=
  h.of_frame (by simp)

theorem closeRepair_modeFields {s : State} (a b : BlockReading) (h : s.ModeFields) : (closeRepair a b s).ModeFields := by
  have header := takeHeader_modeFields (s.mergedBlock false a b).copy
    (tellBlocks_modeFields a b (a.levelShown 1400) (b.levelShown 1400) h)
  exact (header.of_stands (learnHeader_stands (s.mergedBlock false a b).copy _)).of_frame (by simp [closeRepair])

theorem passStep_modeFields {s : State} (n : Nat) (m : MergedBlock) (step : PassStep) (h : s.ModeFields) :
    (passStep n m s step).ModeFields := by
  cases step with
  | slotTable =>
    have maintained : (maintain n m s).ModeFields := h.of_eq (by simp) (by simp)
    exact (takeHeader_modeFields m.copy maintained).of_stands (learnAtPass_stands n m.copy _)
  | sendEngine => exact h
  | receiveEngine => exact h.of_frame (by simp [passStep])
  | controller =>
    unfold passStep controllerAtPass
    dsimp only
    split
    · exact duplicateIf_modeFields h
    iterate 2 exact h

theorem passSlot_modeFields {s : State} (n : Nat) (a b : BlockReading) (order : List PassStep) (h : s.ModeFields) :
    (passSlot n a b order s).ModeFields := by
  have told := tellBlocks_modeFields a b (a.levelShown 800) (b.levelShown 800) h
  exact (foldl_modeFields (fun _ step => passStep_modeFields n (s.mergedBlock true a b) step) order told).of_frame (by simp [passSlot])

/-! ### Every command -/

theorem running_modeFields {f : State → State} {s t : State} (h : s.ModeFields) (e : running f s = .next t)
    (hf : s.ModeFields → (f s).ModeFields) : t.ModeFields := by
  obtain ⟨rfl, -⟩ | ⟨rfl, -⟩ := running_next e
  · exact h
  · exact hf h

/-- A request neither changes the controller nor the slot table. -/
theorem request_modeFields {f : State → State} {s t : State} (h : s.ModeFields) (e : request f s = .next t)
    (frame : (f s).ctrl = s.ctrl ∧ (f s).table = s.table) : t.ModeFields := by
  obtain rfl | ⟨rfl, -⟩ := request_next e
  · exact h
  · exact h.of_frame frame

/-- A command that comes at a reading, and acts there if its test holds. -/
theorem datedIf_modeFields {s t : State} {r : Nat} {c : State → Prop} [DecidablePred c] {f : State → State} (h : s.ModeFields)
    (e : running (dated r (fun u => if c u then f u else u)) s = .next t) (hf : ∀ u : State, u.ModeFields → (f u).ModeFields) :
    t.ModeFields :=
  running_modeFields h e (dated_cases (P := State.ModeFields)
    (fun _ => ite_modeFields (fun _ => hf _ (reach_modeFields r h)) (fun _ => reach_modeFields r h)))

theorem fieldEvent_modeFields {s t : State} {k : Nat} {f : State → State} (h : s.ModeFields)
    (e : running (fieldEvent k f) s = .next t) (hf : ∀ u : State, u.ModeFields → (f u).ModeFields) : t.ModeFields :=
  running_modeFields h e (fieldEvent_cases (P := State.ModeFields) (fun _ => hf _ (atEvent_modeFields k h)))

/-- A command that acts if its test holds. -/
theorem runningIf_modeFields {s t : State} {c : State → Prop} [DecidablePred c] {f : State → State} (h : s.ModeFields)
    (e : running (fun u => if c u then f u else u) s = .next t) (hf : (f s).ModeFields) : t.ModeFields :=
  running_modeFields h e (fun h => ite_modeFields (fun _ => hf) (fun _ => h))

theorem deferral_modeFields {s : State} (h : s.ModeFields) :
    (if s.pacingPermit && s.lanes.any Lane.drivable then
        driveMark (beginField 0 { s with clock := { s.clock with lateWindow := false, timer := 0 } })
      else { s with clock := { s.clock with lateWindow := false } } : State).ModeFields :=
  ite_modeFields (fun _ => h.of_frame (by simp)) (fun _ => h)

theorem execOpenSearchAdoption_modeFields (l : LaneId) (second : MarkReading) (leadInFirst : Bool) (order : RoundOrder) {s t : State}
    (h : s.ModeFields) (e : execOpenSearchAdoption l second leadInFirst order s = .next t) : t.ModeFields := by
  unfold execOpenSearchAdoption at e
  obtain ⟨ho, e⟩ := checked_next e
  refine running_modeFields h e (fun h => ?_)
  split
  · exact ite_modeFields (fun _ => adoptMark_modeFields l _ second leadInFirst ho h) (fun _ => h)
  · exact h

theorem execSeventhLeadInTick_modeFields (field : LeadInField) {s t : State} (h : s.ModeFields)
    (e : execSeventhLeadInTick field s = .next t) : t.ModeFields :=
  running_modeFields h e (fun h => h.of_frame (by simp))

theorem execEchoMeasurement_modeFields (l : LaneId) (value : BitVec 8) (reading : Nat) {s t : State} (h : s.ModeFields)
    (e : execEchoMeasurement l value reading s = .next t) : t.ModeFields := by
  unfold execEchoMeasurement at e
  refine running_modeFields h e (dated_cases (P := State.ModeFields) (fun _ => ?_))
  have reached := reach_modeFields reading h
  exact ite_modeFields (fun _ => reached.of_frame (by simp))
    (fun _ => ite_modeFields (fun _ => reached.of_frame (by simp)) (fun _ => reached))

theorem execResendSent_modeFields {s t : State} (h : s.ModeFields) (e : execResendSent s = .next t) : t.ModeFields := by
  unfold execResendSent at e
  refine running_modeFields h e (fun h => ?_)
  split
  · next b _ => exact dated_cases (P := State.ModeFields) (fun _ => (reach_modeFields (blockEnd b) h).of_frame (by simp)) h
  · exact h

theorem supplyWarns_modeFields {s : State} (h : s.ModeFields) : (supplyWarns s).ModeFields := ite_modeFields (fun _ => h) (fun _ => h)

theorem supplyRecovers_modeFields {s : State} (h : s.ModeFields) : (supplyRecovers s).ModeFields :=
  ite_modeFields (fun _ => h) (fun _ => h)

/-- A cleared station starts: STARTING has its count alone (R77, R162). -/
theorem cleared_modeFields (hold : ResetHold) (o : OptionWord) (c : Context) (pending : List Instr) :
    (State.cleared hold o c pending).ModeFields := by
  refine State.modeFields_of (m := .starting) rfl ?_ ?_ ?_ ?_ ?_ ?_ ?_ <;>
    simp [State.cleared, Controller.reset, SlotTable.reset]

theorem release_modeFields (straps : BitVec 10) (aboveWarn : Bool) (s : State) : (release straps aboveWarn s).ModeFields := by
  have cleared := cleared_modeFields s.hold.released (optionOf straps)
    (contextAtRelease (optionOf straps).station aboveWarn s.ctrl.context) s.pending
  exact ite_modeFields (fun _ => cleared) (fun _ => cleared)

theorem exec_modeFields {c : Instr} {s t : State} (h : s.ModeFields) (e : exec c s = .next t) : t.ModeFields := by
  cases c with
  | openSend port count cls priority => exact request_modeFields h e (by simp)
  | openReceive port tag delay cls => exact request_modeFields h e (by simp)
  | close entry => exact request_modeFields h e (by simp)
  | readStream entry => exact request_modeFields h e (by simp)
  | readLanes => exact request_modeFields h e (by simp)
  | readSlot slot => exact request_modeFields h e (by simp)
  | readStation => exact request_modeFields h e (by simp)
  | takeEvents n => exact request_modeFields h e (by simp)
  | setAlertMask causes =>
    exact request_modeFields (f := fun s => reply .done .none (setMask (causesOf causes) s)) h e (by simp)
  | clearAlert causes =>
    exact request_modeFields (f := fun s => reply .done .none (clearCauses (causesOf causes) s)) h e (by simp)
  | holdLane lane hold => exact request_modeFields h e (by simp)
  | unknownRequestKind kind => exact request_modeFields h (checked_next e).2 (by simp)
  | frameDiscarded flaw =>
    obtain rfl := Host.Outcome.next.inj e
    exact h
  | frameIdleTimeout =>
    obtain rfl := Host.Outcome.next.inj e
    exact h
  | replyFrameSent =>
    obtain rfl := Host.Outcome.next.inj e
    exact h
  | roundTimerExpiry order =>
    obtain ⟨ho, e⟩ := checked_next e
    exact runningIf_modeFields h e (expire_modeFields ho h)
  | earlyWindowEdge lane reading order =>
    obtain ⟨ho, e⟩ := checked_next e
    exact runningIf_modeFields h e (startAtEdge_modeFields lane reading ho h)
  | lateWindowEdge lane reading =>
    unfold exec execLateWindowEdge at e
    exact runningIf_modeFields h e (h.of_frame (t := realign lane reading s) (by simp))
  | deferralPoint =>
    unfold exec execDeferralPoint at e
    exact runningIf_modeFields h e (deferral_modeFields (reach_modeFields s.deferralAt h))
  | openSearchAdoption lane otherLane leadInFirst order => exact execOpenSearchAdoption_modeFields _ _ _ _ h e
  | markClose a b leadInFirst =>
    exact fieldEvent_modeFields h e (fun _ hu => closeMark_modeFields _ _ _ (hu.of_frame (by simp)))
  | seventhLeadInTick field => exact execSeventhLeadInTick_modeFields _ h e
  | arbitrationLoss field tick lane => exact datedIf_modeFields h e (fun _ hu => hu)
  | driveFault field tick lane => exact datedIf_modeFields h e (fun _ => driveFaultOn_modeFields lane)
  | echoMismatch lane reading => exact datedIf_modeFields h e (fun _ hu => hu.of_frame (by simp))
  | echoMeasurement lane value reading => exact execEchoMeasurement_modeFields _ _ _ h e
  | echoLate lane reading => exact datedIf_modeFields h e (fun _ => echoLateOn_modeFields lane)
  | noticeWindowClose a b order => exact fieldEvent_modeFields h (checked_next e).2 (fun _ => closeNotice_modeFields a b order)
  | answerClose a b sendFirst => exact fieldEvent_modeFields h e (fun _ => closeAnswers_modeFields a b sendFirst)
  | repairWindowClose a b => exact fieldEvent_modeFields h e (fun _ => closeRepair_modeFields a b)
  | slotStart slot =>
    unfold exec execSlotStart at e
    exact runningIf_modeFields h e (h.of_frame (t := startSlot slot.val s) (by simp))
  | resendSent => exact execResendSent_modeFields h e
  | slotPass slot a b order => exact fieldEvent_modeFields h (checked_next e).2 (fun _ => passSlot_modeFields slot.val a b order)
  | windowClose first runA runB reading => exact datedIf_modeFields h e (fun _ => closeBoth_modeFields first runA runB)
  | longRun lane reading => exact datedIf_modeFields h e (fun _ => longRunOn_modeFields lane)
  | heldRun lane reading => exact datedIf_modeFields h e (fun _ hu => hu.of_frame (by simp))
  | codeViolation lane kind reading => exact datedIf_modeFields h e (fun _ hu => hu.of_frame (by simp))
  | uncleanStretch lane activity =>
    unfold exec execUncleanStretch at e
    exact runningIf_modeFields h e h
  | lengthWord port value =>
    unfold exec execLengthWord at e
    exact runningIf_modeFields h e (h.of_frame (t := takeLength port value s) (by simp))
  | dataByte port byte =>
    unfold exec execDataByte at e
    exact runningIf_modeFields h e (h.of_frame (t := takeByte port byte s) (by simp))
  | outHalfItemTaken port =>
    unfold exec execOutHalfItemTaken at e
    exact running_modeFields h e id
  | supplyWarn => exact running_modeFields h e supplyWarns_modeFields
  | supplyOk => exact running_modeFields h e supplyRecovers_modeFields
  | supplyReset =>
    obtain rfl := Host.Outcome.next.inj e
    exact cleared_modeFields _ _ _ _
  | backupSupplyLow =>
    obtain rfl := Host.Outcome.next.inj e
    exact h
  | powerOnReset =>
    obtain rfl := Host.Outcome.next.inj e
    exact cleared_modeFields _ _ _ _
  | pinReset =>
    obtain rfl := Host.Outcome.next.inj e
    exact cleared_modeFields _ _ _ _
  | resetRelease straps aboveWarn =>
    obtain rfl := Host.Outcome.next.inj e
    exact ite_modeFields (fun _ => release_modeFields straps aboveWarn s) (fun _ => h)
  | openSearchEdge lane reading passiveFor =>
    unfold exec execOpenSearchEdge at e
    exact runningIf_modeFields h e (reach_modeFields reading h)

/-- Settles O59: the front command, or one unit of time, keeps the fields of the modes. -/
theorem stepKeepsModeFields : Obligations.StepKeepsModeFields := by
  intro s t h e
  unfold step at e
  split at e
  · obtain rfl := Host.Outcome.next.inj e
    exact ite_modeFields (fun _ => h) (fun _ => reach_modeFields _ h)
  · next c rest _ =>
    have front : ({ s with pending := rest } : State).ModeFields := h
    exact exec_modeFields front e

end Sys2Proof.Machine
end

section
/-! PROOF LAYER. The completion of learning (R70, R71, R96, R165, R177): what becomes of the learned table, and of the pending claim. -/

namespace Sys2Proof.Machine

open Sys2Proof

/-! ### The learned table replaces the live table (R71) -/

/-- A carried entry is dropped at completion: a run that holds it was broken, or is the pending claim's while the learned epoch is not
adopted (R71). -/
def Learning.Drops (L : Learning) (adopted : Bool) (n : Nat) (e : LearnedEntry) : Prop :=
  e.carried = true ∧ ∃ r ∈ L.carried,
    r.run.first ≤ n ∧ n < r.run.first + r.run.count ∧ (r.broken = true ∨ (r.pending = true ∧ adopted = false))

/-- Dropped and UNKNOWN entries become OPEN, the others take their learned use (R71). -/
theorem Learning.finalUse_eq {L : Learning} {adopted : Bool} {n : Nat} {e : LearnedEntry} {opens : Prop} [Decidable opens]
    (h : opens ↔ L.Drops adopted n e ∨ e.use = .unknown) : L.finalUse adopted n e = if opens then .openSlot else e.use := by
  have drops : (e.carried && L.carried.any (fun r => r.run.has n && (r.broken || (r.pending && !adopted)))) = true
      ↔ L.Drops adopted n e := by
    simp [Learning.Drops, Run.has, and_assoc]
  unfold Learning.finalUse
  by_cases hd : L.Drops adopted n e
  · rw [if_pos (drops.mpr hd), if_pos (h.mpr (.inl hd))]
  · rw [if_neg (mt drops.mp hd)]
    by_cases hu : e.use = .unknown
    · rw [if_pos (beq_iff_eq.mpr hu), if_pos (h.mpr (.inr hu))]
    · rw [if_neg (mt beq_iff_eq.mp hu), if_neg (mt h.mp (not_or.mpr ⟨hd, hu⟩))]

theorem Learning.converted_eq_zero_iff (L : Learning) : L.converted = 0 ↔ ¬ ∃ e ∈ L.table, e.use = .unknown := by
  simp [Learning.converted]

theorem Learning.complete_iff (L : Learning) : L.complete = true ↔ (¬ ∃ e ∈ L.table, e.use = .unknown) ∨ 8 ≤ L.rounds := by
  rw [← L.converted_eq_zero_iff, Learning.complete, Bool.or_eq_true, beq_iff_eq, decide_eq_true_eq]
  rfl

theorem learnRound_of_complete {ctx : RoundCtx} {s : State} {L : Learning} (hL : s.table.learning = some L)
    (complete : (¬ ∃ e ∈ L.table, e.use = .unknown) ∨ 8 ≤ L.rounds + 1) :
    learnRound ctx s = completeLearning ctx { L with rounds := L.rounds + 1 } s := by
  unfold learnRound
  rw [hL]
  exact if_pos ((Learning.complete_iff { L with rounds := L.rounds + 1 }).mpr complete)

theorem learnRound_of_incomplete {ctx : RoundCtx} {s : State} {L : Learning} (hL : s.table.learning = some L)
    (unknownLeft : ∃ e ∈ L.table, e.use = .unknown) (few : L.rounds + 1 < 8) :
    learnRound ctx s = { s with table := { s.table with learning := some { L with rounds := L.rounds + 1 } } } := by
  unfold learnRound
  rw [hL]
  refine if_neg fun complete => ?_
  rcases (Learning.complete_iff _).mp complete with none | many
  · exact none unknownLeft
  · exact absurd few (Nat.not_lt.mpr many)

/-- The table stands from its replacement on; the engines, the pending claim, the warm rejoin and the orphan list change none of it. -/
theorem completeLearning_table (ctx : RoundCtx) (L : Learning) (s : State) :
    (completeLearning ctx L s).table = (replaceTable L s).table := by
  unfold completeLearning
  dsimp only
  split <;> simp

theorem completeLearning_of_other {ctx : RoundCtx} (L : Learning) (s : State) (mode : ctx.mode ≠ .listening) :
    completeLearning ctx L s = changeMode .joined .learned (settlePending (tableChanged ctx.sendFirst (replaceTable L s))) := by
  simp [completeLearning, mode]

/-- A station that comes from LISTENING takes the warm rejoin and forms its orphan list (R165, R167, R177). -/
theorem completeLearning_of_listening {ctx : RoundCtx} (L : Learning) (s : State) (mode : ctx.mode = .listening) :
    let v := formOrphans (warmRejoin (settlePending (tableChanged ctx.sendFirst (replaceTable L s))))
    completeLearning ctx L s = changeMode .joined .learned { v with ctrl := { v.ctrl with alone := none, lockTaken := none } } := by
  simp [completeLearning, mode]

/-! ### The pending claim (R96) -/

/-- The outcome record of the pending claim: without an accept bitmap (R96, R102; log 19). -/
def State.settledRecord (s : State) (q : Queued) : OutcomeRecord :=
  { kind := q.kind, tag := q.tag, run := q.lastSent.getD ⟨q.first.toNat, q.count.toNat⟩, attempt := q.attempt, answer := none
    heard := s.table.heard.map (fun age => decide (age ≤ 255)) }

/-- The state without the pending claim in its queue. -/
def State.withoutPending (s : State) : State :=
  { s with notices := { s.notices with queue := s.notices.queue.filter (fun x => !x.pending) } }

theorem settlePending_of_none {s : State} (h : s.notices.queue.find? (fun x => x.pending) = none) : settlePending s = s := by
  simp [settlePending, h]

section Pending

variable {s : State} {q : Queued} {p : Port} (pending : s.notices.queue.find? (fun x => x.pending) = some q)
include pending

/-- The replaced table lists the run of the pending claim as the station's: the claim has committed (R96). -/
theorem settlePending_of_owned (origin : q.origin = .send p)
    (owned : runOwned s.table.live q.run s.station q.tag = true) :
    settlePending s = claimCommitted p q (s.settledRecord q) true s.withoutPending := by
  unfold settlePending
  rw [pending]
  dsimp only
  rw [if_pos owned, origin]
  rfl

theorem settlePending_of_withdrawn (origin : q.origin = .send p) (kind : q.kind = .claim)
    (lost : ¬ runOwned s.table.live q.run s.station q.tag = true)
    (withdrawn : q.withdrawn = true) :
    settlePending s = claimNotCommitted p (s.settledRecord q) s.withoutPending := by
  unfold settlePending
  rw [pending]
  dsimp only
  rw [if_neg lost, if_pos withdrawn, withdrawnEnds, kind, origin]
  simp only [State.settledRecord, outcomeRecord, kind]
  rfl

/-- A claim that is neither the station's now nor withdrawn stays queued, no longer pending (R96). -/
theorem settlePending_of_lost
    (lost : ¬ runOwned s.table.live q.run s.station q.tag = true)
    (withdrawn : q.withdrawn = false) :
    settlePending s = { s with notices := { s.notices with
      queue := s.notices.queue.map (fun x => { x with pending := false }) } } := by
  unfold settlePending
  rw [pending]
  dsimp only
  rw [if_neg lost, if_neg (by simp [withdrawn])]
  rfl

end Pending

theorem claimCommitted_claiming {s : State} {p : Port} (q : Queued) (o : OutcomeRecord) (state : (s.send.get p).state = .claiming) :
    claimCommitted p q o true s = giveEvent (.streamLive p o) { s with
      send := s.send.set p { s.send.get p with
        state := .live, requested := none, claimRun := none, slotRun := some ⟨q.first.toNat, q.count.toNat⟩, ring := [] } } := by
  simp [claimCommitted, state, State.mapSend, Queued.run]

theorem claimCommitted_releasing {s : State} {p : Port} (q : Queued) (o : OutcomeRecord) (state : (s.send.get p).state = .releasing) :
    claimCommitted p q o true s = offerRelease p { s with
      send := s.send.set p { s.send.get p with
        claimRun := none, slotRun := some ⟨q.first.toNat, q.count.toNat⟩, releaseDue := true } } := by
  simp [claimCommitted, state, State.mapSend, Queued.run]

theorem claimCommitted_other {s : State} {p : Port} (q : Queued) (o : OutcomeRecord) (atRoundStart : Bool)
    (claiming : (s.send.get p).state ≠ .claiming) (releasing : (s.send.get p).state ≠ .releasing) :
    claimCommitted p q o atRoundStart s = s := by
  cases state : (s.send.get p).state with
  | claiming => exact absurd state claiming
  | releasing => exact absurd state releasing
  | _ => simp only [claimCommitted, state]

theorem claimNotCommitted_releasing {s : State} {p : Port} (o : OutcomeRecord) (state : (s.send.get p).state = .releasing) :
    claimNotCommitted p o s = giveEvent (.streamClosed p (some o)) { s with
      send := s.send.set p { SendEntry.reset with gen := (s.send.get p).gen, nextSeq := (s.send.get p).nextSeq }
      repair := { s.repair with queue := s.repair.queue.filter (fun r => r.tag != s.tagOf p) } } := by
  simp only [claimNotCommitted, state]
  rfl

/-- Settles O45: the completion, or the count, of learning; and the pending claim by the replaced table and its entry's state. -/
theorem learningReplacesTable : Obligations.LearningReplacesTable := by
  refine ⟨fun ctx s L hL => ?_, fun s => ?_⟩
  · intro t unknownLeft adopted dropped epoch replaced settled
    refine ⟨fun unknown few => learnRound_of_incomplete hL unknown few, fun complete => ?_⟩
    have completes : t = completeLearning ctx { L with rounds := L.rounds + 1 } s := learnRound_of_complete hL complete
    have replaces : replaceTable { L with rounds := L.rounds + 1 } s = replaced := by
      have uses : (fun n e => SlotEntry.fresh (L.finalUse adopted n e))
          = fun n e => SlotEntry.fresh (if dropped n e ∨ e.use = .unknown then .openSlot else e.use) :=
        funext₂ fun n e => congrArg _ (Learning.finalUse_eq Iff.rfl)
      simp only [replaced, ← uses]
      rfl
    refine ⟨?_, ?_, fun mode => ?_, fun mode => ?_⟩
    · rw [completes]
      simp [completeLearning]
    · rw [completes, completeLearning_table, replaces]
    · rw [completes, completeLearning_of_other _ _ mode, replaces]
    · rw [completes, completeLearning_of_listening _ _ mode, replaces]
  · refine ⟨settlePending_of_none, fun q p pending origin kind => ?_⟩
    intro e run record without owned
    have record_eq : s.settledRecord q = record := by simp only [State.settledRecord, kind]; rfl
    refine ⟨fun own claiming => ?_, fun own releasing => ?_, fun own notClaiming notReleasing => ?_,
      fun lost withdrawn releasing => ?_, fun lost kept => settlePending_of_lost pending lost kept⟩
    · rw [settlePending_of_owned pending origin own, record_eq]
      exact claimCommitted_claiming q record claiming
    · rw [settlePending_of_owned pending origin own]
      exact claimCommitted_releasing q _ releasing
    · rw [settlePending_of_owned pending origin own]
      exact claimCommitted_other q _ true notClaiming notReleasing
    · rw [settlePending_of_withdrawn pending origin kind lost withdrawn, record_eq]
      exact claimNotCommitted_releasing record releasing

end Sys2Proof.Machine
end

section
/-! PROOF LAYER. A slot pass that begins learning (R64, R66), where the receive engine acts before the slot table (R143, R156): what the
learning carries is read off the queue as the receive engine leaves it. -/

namespace Sys2Proof.Machine

open Sys2Proof

/-! ### A pass whose rebase withdraws the notice that learning would carry

A queued REPAIR_ASK is named here as the pending claim. No command of the model marks anything but a CLAIM pending, so no run reaches this
state; the statement speaks of every state. Station 5's block of a new generation rebases the entry at port 0, which withdraws that
REPAIR_ASK (R156), and its epoch, ahead of the table epoch, then begins learning (R64), with no run to carry. -/

/-- Station 5's block of tag 20 in slot 0, of generation 2 and epoch 8. -/
def rebasingBlock : Block :=
  { header := { owner := 5, tag := 20, gen := 2, seq := 40, fill := true, resend := false, index := 0, epoch := 8, length := 0 },
    payload := [], check := check32 [] }

/-- The REPAIR_ASK of port 0 for sequence 1, marked as the pending claim: as a run, slot 1. -/
def pendingAsk : Queued := { askNotice .p0 20 1 1 with pending := true }

/-- A CLEAR lane that has contributed since the slot began. -/
def clearLane : Lane := { Lane.reset true with contributing := true, admitted := true, usableSince := some 0 }

/-- An ACTIVE stream of tag 20, anchored in generation 1. -/
def anchoredStream : RecvStream :=
  { active := true, tag := 20, delay := 20, cls := .w256, anchor := some { gen := 1, nextPlayout := 40, nextPlace := 40 },
    window := [], gaps := [] }

/-- Station 2, JOINED at table epoch 7, right before the pass of slot 0, which station 5 owns with tag 20; port 0 receives that stream. -/
def beforeRebase : State :=
  { State.reset with
    hold := ⟨false, false, false, false⟩
    lanes := ⟨clearLane, clearLane⟩
    clock := { Clock.reset with timer := Config.eventAt 3, validCount := 9, closed := 4 }
    table := { SlotTable.reset with
      epoch := 7
      live := SlotEntry.fresh (.owned 5 20) :: List.replicate 23 (SlotEntry.fresh .openSlot) }
    notices := { NoticeEngine.reset with queue := [pendingAsk] }
    recv := { PerPort.all RecvEntry.reset with p0 := { RecvEntry.reset with stream := some anchoredStream } }
    ctrl := { Controller.reset
        { station := 2, laneA := true, laneB := true, policy := .fault, pacing := false, chatter := 1 } Context.empty with
      mode := .joined, startCount := none } }

/-- The receive engine acts first. -/
def receiveFirst : List PassStep := [.receiveEngine, .slotTable, .sendEngine, .controller]

/-- What a state has learned of a slot. -/
def State.learnedAt (s : State) (k : Nat) : Option LearnedEntry := s.table.learning.bind (fun L => L.table[k]?)

theorem State.learnedAt_eq {s : State} {k : Nat} {L : Learning} (h : s.table.learning = some L) : s.learnedAt k = L.table[k]? := by
  simp [State.learnedAt, h]

/-- The state after the pass of slot 0 with station 5's block on both lanes. -/
def afterRebase : State := passSlot 0 rebasingBlock.asRead rebasingBlock.asRead receiveFirst (atEvent 4 beforeRebase)

theorem rebasingBlock_read :
    ((atEvent 4 beforeRebase).mergedBlock true rebasingBlock.asRead rebasingBlock.asRead).copy = .valid rebasingBlock := by
  decide +kernel

theorem beforeRebase_due : beforeRebase.due 4 = true := by decide +kernel

theorem exec_beforeRebase : exec (.slotPass 0 rebasingBlock.asRead rebasingBlock.asRead receiveFirst) beforeRebase = .next afterRebase :=
  running_fieldEvent_of_due (passSlot 0 rebasingBlock.asRead rebasingBlock.asRead receiveFirst) rfl beforeRebase_due

/-- RESYNC entered before the pass carries slot 1 … -/
theorem enterResync_beforeRebase_learnedAt :
    (enterResync .epochAhead rebasingBlock.header.epoch beforeRebase).learnedAt 1 = some { use := .owned 2 20, carried := true } := by decide +kernel

/-- … and at the pass, after the rebase, it does not. -/
theorem afterRebase_learnedAt : afterRebase.learnedAt 1 = some { use := .unknown, carried := false } := by decide +kernel

/-- Refutes O37: in `beforeRebase`, the pass of slot 0 with `rebasingBlock` on both lanes, the receive engine first, learns slot 1 as
UNKNOWN, while learning begun from the state before the pass carries it. -/
theorem not_learnedTableFollowsSlots : ¬ Obligations.LearnedTableFollowsSlots := by
  unfold Obligations.LearnedTableFollowsSlots
  rintro ⟨passes, -⟩
  obtain ⟨t, ht, -, learns⟩ := passes 0 rebasingBlock.asRead rebasingBlock.asRead receiveFirst beforeRebase rfl (by decide)
    beforeRebase_due (by
      rintro x hx - ⟨-, -, owner, -⟩
      obtain rfl : rebasingBlock = x := Copy.valid.inj (rebasingBlock_read.symm.trans hx)
      exact absurd owner (by decide))
  obtain rfl : afterRebase = t := Host.Outcome.next.inj (exec_beforeRebase.symm.trans ht)
  obtain ⟨-, L, hL, L', hL', -, -, others, -⟩ := learns rebasingBlock rebasingBlock_read ⟨rfl, by decide⟩
  have before : L.table[1]? = some { use := .owned 2 20, carried := true } := by
    rw [← State.learnedAt_eq hL, enterResync_beforeRebase_learnedAt]
  have after : L'.table[1]? = some { use := .unknown, carried := false } := by
    rw [← State.learnedAt_eq hL', afterRebase_learnedAt]
  rw [others 1 (by decide), before] at after
  exact absurd after (by decide)

end Sys2Proof.Machine
end

section
/-! PROOF LAYER. The slot table at the pass of a slot (R59 to R65): one lemma for each result of the pass, and the other three blocks, whose
steps leave what the slot table reads and writes alone in any order. -/

namespace Sys2Proof.Machine

open Sys2Proof

/-! ### Maintenance of one entry (R59 to R63) -/

theorem BlockHeader.scheduleBearing_iff {h : BlockHeader} {n : Nat} :
    h.scheduleBearing n = true ↔ h.resend = false ∧ h.index.toNat = n := by
  simp [BlockHeader.scheduleBearing]

/-- The epoch rule takes the header: the station is JOINED and the epoch is ahead (R64). -/
def State.Behind (s : State) (h : BlockHeader) : Prop := s.ctrl.mode = .joined ∧ serialAhead s.table.epoch h.epoch = true

section
variable {s : State} {n : Nat} {m : Copy Block} {b : Block} {e : SlotEntry} {contributing : Bool} {o : StationNo} {g : Tag}

theorem mismatchEntry_of_behind (h : s.Behind b.header) : mismatchEntry s b.header e = e := by
  simp [mismatchEntry, h.1, h.2]

theorem mismatchEntry_of_not_behind (h : ¬ s.Behind b.header) :
    mismatchEntry s b.header e = { e with
      mismatches := min 255 (e.mismatches + 1)
      lastMismatch := some { owner := b.header.owner, tag := b.header.tag, epoch := b.header.epoch } } := by
  have : (s.ctrl.mode == .joined && serialAhead s.table.epoch b.header.epoch) = false := by
    simpa [State.Behind] using h
  simp [mismatchEntry, this]

theorem maintainEntry_unknown (use : e.use = .unknown) : maintainEntry s n m contributing e = e := by
  simp [maintainEntry, use]

theorem maintainEntry_open_of_not_valid (use : e.use = .openSlot) (hm : m.isValid = false) :
    maintainEntry s n m contributing e = { e with lastValid := false, silent := 0, reclaim := false } := by
  cases m with
  | valid x => cases hm
  | erased | idle => simp [maintainEntry, use]

theorem maintainEntry_open_valid (use : e.use = .openSlot) :
    maintainEntry s n (.valid b) contributing e =
      if b.header.resend = false ∧ b.header.index.toNat = n then
        mismatchEntry s b.header { e with lastValid := false, silent := 0, reclaim := false }
      else { e with lastValid := false, silent := 0, reclaim := false } := by
  simp [maintainEntry, use, BlockHeader.scheduleBearing_iff]

theorem maintainEntry_owned_of_not_valid (use : e.use = .owned o g) (hm : m.isValid = false) :
    maintainEntry s n m contributing e = silentEntry s o contributing { e with lastValid := false } := by
  cases m with
  | valid x => cases hm
  | erased | idle => simp [maintainEntry, use]

theorem maintainEntry_owned_valid (use : e.use = .owned o g) :
    maintainEntry s n (.valid b) contributing e =
      if (b.header.resend = false ∧ b.header.index.toNat = n) ∧ b.header.owner = o ∧ b.header.tag = g then
        { e with silent := 0, lastValid := true, reclaim := false }
      else mismatchEntry s b.header { e with lastValid := false } := by
  simp [maintainEntry, use, BlockHeader.scheduleBearing_iff, and_assoc]

/-- What `maintainEntry` reads of the state. -/
theorem maintainEntry_congr {t : State} (ctrl : t.ctrl = s.ctrl) (epoch : t.table.epoch = s.table.epoch) :
    maintainEntry t = maintainEntry s := by
  funext n m contributing e
  simp [maintainEntry, mismatchEntry, silentEntry, State.station, ctrl, epoch]

end

/-! ### The slot table's step -/

theorem maintain_live (n : Nat) (m : MergedBlock) (s : State) :
    (maintain n m s).table.live =
      if s.ctrl.mode.maintains then s.table.live.modify n (maintainEntry s n m.copy (m.contributing.any id)) else s.table.live := by
  unfold maintain
  split <;> rfl

theorem testEpoch_ctrl (e : Epoch) (s : State) :
    (testEpoch e s).ctrl =
      { s.ctrl with mode := if s.ctrl.mode = .joined ∧ serialAhead s.table.epoch e = true then .resync else s.ctrl.mode } := by
  unfold testEpoch
  simp only [Bool.and_eq_true, beq_iff_eq]
  split
  · rw [enterResync_ctrl]
  · rfl

/-- The numbers heard after a slot pass (R65). -/
def heardAfter (m : Copy Block) (heard : List Nat) : List Nat :=
  match m with
  | .valid b => heard.set b.header.owner.toNat 0
  | .erased => heard
  | .idle => heard

/-- The mode after a slot pass that finds no duplicate (R64). -/
def modeAfter (m : Copy Block) (epoch : Epoch) (mode : Mode) : Mode :=
  match m with
  | .valid b => if mode = .joined ∧ serialAhead epoch b.header.epoch = true then .resync else mode
  | .erased => mode
  | .idle => mode

theorem takeHeader_heard (m : Copy Block) (s : State) : (takeHeader m s).table.heard = heardAfter m s.table.heard := by
  cases m <;> simp [takeHeader, heardAfter]

theorem takeHeader_ctrl (m : Copy Block) (s : State) : (takeHeader m s).ctrl = { s.ctrl with mode := modeAfter m s.table.epoch s.ctrl.mode } := by
  cases m with
  | valid b => exact testEpoch_ctrl _ _
  | erased | idle => rfl

/-- What a slot pass reads and writes of the slot table and of the controller. -/
structure PassView where
  live  : List SlotEntry
  heard : List Nat
  epoch : Epoch
  ctrl  : Controller
  drive : FieldDrive
  queue : List Resend

/-- The slot pass's view of a state. -/
def State.passView (s : State) : PassView :=
  { live := s.table.live, heard := s.table.heard, epoch := s.table.epoch, ctrl := s.ctrl, drive := s.drive, queue := s.repair.queue }

theorem tableAtPass_view (n : Nat) (m : MergedBlock) (s : State) :
    (tableAtPass n m s).passView =
      { live := if s.ctrl.mode.maintains then s.table.live.modify n (maintainEntry s n m.copy (m.contributing.any id)) else s.table.live
        heard := heardAfter m.copy s.table.heard
        epoch := s.table.epoch
        ctrl := { s.ctrl with mode := modeAfter m.copy s.table.epoch s.ctrl.mode }
        drive := s.drive
        queue := s.repair.queue } := by
  simp [State.passView, tableAtPass, takeHeader_heard, takeHeader_ctrl, maintain_live]

theorem tableAtPass_view_congr (n : Nat) (m : MergedBlock) {s t : State} (h : t.passView = s.passView) :
    (tableAtPass n m t).passView = (tableAtPass n m s).passView := by
  obtain ⟨live, heard, epoch, ctrl, drive, queue⟩ := PassView.mk.inj h
  simp only [tableAtPass_view, heard, live, epoch, ctrl, drive, queue, maintainEntry_congr ctrl epoch]

/-! ### The steps of the other blocks -/

/-- The pass finds a duplicate of the station's number (R171). -/
def State.FindsDuplicate (s : State) (n : Nat) (m : Copy Block) : Prop :=
  ∃ x, m = .valid x ∧ s.ctrl.mode.detectsDuplicate = true ∧ s.foreignBlock n x = true

theorem State.foreignBlock_iff {s : State} {n : Nat} {x : Block} :
    s.foreignBlock n x = true ↔ (x.header.resend = false ∧ x.header.index.toNat = n) ∧ x.header.owner = s.ctrl.option.station
      ∧ ¬ ∃ d, s.drive.drove = some d ∧ d.header.tag = x.header.tag ∧ d.header.seq = x.header.seq := by
  unfold State.foreignBlock
  rw [Bool.and_eq_true, Bool.and_eq_true, BlockHeader.scheduleBearing_iff, beq_iff_eq, and_assoc, State.station]
  refine and_congr_right fun _ => and_congr_right fun _ => ?_
  cases s.drive.drove with
  | none => simp
  | some d => simp [← Classical.not_and_iff_not_or_not, eq_comm (a := d.header.tag), eq_comm (a := d.header.seq)]

theorem Mode.detectsDuplicate_iff {m : Mode} : m.detectsDuplicate = true ↔ m = .listening ∨ m = .joined ∨ m = .resync := by
  cases m <;> simp [Mode.detectsDuplicate]

theorem controllerAtPass_of_no_duplicate {n : Nat} {m : Copy Block} {s : State} (h : ¬ s.FindsDuplicate n m) :
    controllerAtPass n m s = s := by
  cases m with
  | valid x =>
    have : (s.ctrl.mode.detectsDuplicate && s.foreignBlock n x) = false := by
      simpa [State.FindsDuplicate] using h
    simp [controllerAtPass, this]
  | erased | idle => rfl

/-- What duplicate detection reads of the state. -/
theorem State.findsDuplicate_congr {s t : State} {n : Nat} {m : Copy Block} (h : t.passView = s.passView) :
    t.FindsDuplicate n m ↔ s.FindsDuplicate n m := by
  obtain ⟨-, -, -, ctrl, drive, -⟩ := PassView.mk.inj h
  simp [State.FindsDuplicate, State.foreignBlock, State.station, ctrl, drive]

/-- The epoch rule leads from one mode that detects duplicates to another. -/
theorem detectsDuplicate_modeAfter (m : Copy Block) (epoch : Epoch) (mode : Mode) :
    (modeAfter m epoch mode).detectsDuplicate = mode.detectsDuplicate := by
  cases m with
  | valid b =>
    simp only [modeAfter]
    split
    · next h => rw [h.1]; rfl
    · rfl
  | erased | idle => rfl

theorem tableAtPass_findsDuplicate (n : Nat) (m : MergedBlock) (s : State) :
    (tableAtPass n m s).FindsDuplicate n m.copy ↔ s.FindsDuplicate n m.copy := by
  obtain ⟨-, -, -, ctrl, drive, -⟩ := PassView.mk.inj (tableAtPass_view n m s)
  simp only [State.FindsDuplicate, State.foreignBlock, State.station, ctrl, drive, detectsDuplicate_modeAfter]

theorem passStep_view_of_other {n : Nat} {m : MergedBlock} {s : State} {step : PassStep} (other : step ≠ .slotTable)
    (h : ¬ s.FindsDuplicate n m.copy) : (passStep n m s step).passView = s.passView := by
  cases step with
  | slotTable => exact absurd rfl other
  | sendEngine => simp [passStep, State.passView]
  | receiveEngine => simp [passStep, State.passView]
  | controller => rw [passStep, controllerAtPass_of_no_duplicate h]

theorem foldl_passStep_view_of_others {n : Nat} {m : MergedBlock} {steps : List PassStep} {s : State} (others : .slotTable ∉ steps)
    (h : ¬ s.FindsDuplicate n m.copy) : (steps.foldl (passStep n m) s).passView = s.passView := by
  induction steps generalizing s with
  | nil => rfl
  | cons step steps ih =>
    obtain ⟨head, tail⟩ := not_or.mp (mt List.mem_cons.mpr others)
    have view := passStep_view_of_other (Ne.symm head) h
    rw [List.foldl_cons, ih tail (mt (State.findsDuplicate_congr view).mp h), view]

/-- An admissible order names every block once. -/
theorem count_of_passAdmissible {order : List PassStep} (h : passAdmissible order = true) (step : PassStep) : order.count step = 1 := by
  unfold passAdmissible listsEachOnce at h
  simp only [Bool.and_eq_true, beq_iff_eq, List.all_eq_true, List.contains_iff_mem] at h
  obtain ⟨hlen, hmem⟩ := h
  have nodup : PassStep.all.Nodup := by decide
  have perm : PassStep.all.Perm order := (List.subperm_of_subset nodup hmem).perm_of_length_le hlen.le
  rw [← perm.count_eq]
  cases step <;> rfl

/-- In any admissible order, the slot table and the controller come out of the pass as the slot table's own step leaves them. -/
theorem foldl_passStep_view {n : Nat} {m : MergedBlock} {order : List PassStep} {s : State} (ho : passAdmissible order = true)
    (h : ¬ s.FindsDuplicate n m.copy) : (order.foldl (passStep n m) s).passView = (tableAtPass n m s).passView := by
  have once := count_of_passAdmissible ho .slotTable
  obtain ⟨front, back, rfl⟩ := List.append_of_mem (List.count_pos_iff.mp (by omega : 0 < order.count .slotTable))
  rw [List.count_append, List.count_cons_self] at once
  have hfront : PassStep.slotTable ∉ front := List.count_eq_zero.mp (by omega)
  have hback : PassStep.slotTable ∉ back := List.count_eq_zero.mp (by omega)
  have view := foldl_passStep_view_of_others hfront h
  have unique : ¬ (tableAtPass n m (front.foldl (passStep n m) s)).FindsDuplicate n m.copy :=
    mt (tableAtPass_findsDuplicate n m _).mp (mt (State.findsDuplicate_congr view).mp h)
  rw [List.foldl_append, List.foldl_cons, passStep, foldl_passStep_view_of_others hback unique, tableAtPass_view_congr n m view]

/-! ### The pass -/

theorem exec_slotPass_of_due {n : Fin 24} {a b : BlockReading} {order : List PassStep} {s : State} (hs : s.holding = false)
    (ho : passAdmissible order = true) (hd : s.due (n.val + 4) = true) :
    exec (.slotPass n a b order) s = .next (passSlot n.val a b order (atEvent (n.val + 4) s)) := by
  change checked (passAdmissible order) (running (fieldEvent (n.val + 4) (passSlot n.val a b order)) s) = _
  rw [ho]
  exact running_fieldEvent_of_due _ hs hd

/-- The slot table, the mode and the re-send queue after the pass of slot n. -/
structure State.Passed (s t : State) (n : Nat) (m : Copy Block) (contributing : Bool) : Prop where
  live : t.table.live = if s.ctrl.mode.maintains then s.table.live.modify n (maintainEntry s n m contributing) else s.table.live
  heard : t.table.heard = heardAfter m s.table.heard
  mode : t.ctrl.mode = modeAfter m s.table.epoch s.ctrl.mode
  queue : t.repair.queue = s.repair.queue

theorem passSlot_passed {n : Nat} {a b : BlockReading} {order : List PassStep} {u : State} (ho : passAdmissible order = true)
    (h : ¬ u.FindsDuplicate n (u.mergedBlock true a b).copy) :
    u.Passed (passSlot n a b order u) n (u.mergedBlock true a b).copy (u.lanes.a.contributing || u.lanes.b.contributing) := by
  have told : (tellLevels (a.levelShown 800) (b.levelShown 800) (countHeader .b b (countHeader .a a u))).passView = u.passView := by
    simp [State.passView]
  have view := (foldl_passStep_view ho (mt (State.findsDuplicate_congr told).mp h)).trans (tableAtPass_view_congr n _ told)
  obtain ⟨live, heard, -, ctrl, -, queue⟩ := PassView.mk.inj (view.trans (tableAtPass_view n _ u))
  exact ⟨live, heard, congrArg Controller.mode ctrl, queue⟩

theorem State.Passed.of_atEvent {k n : Nat} {s t : State} {m : Copy Block} {contributing : Bool}
    (h : (atEvent k s).Passed t n m contributing) : s.Passed t n m contributing := by
  have same : maintainEntry (atEvent k s) = maintainEntry s := maintainEntry_congr (by simp) (by simp)
  obtain ⟨live, heard, mode, queue⟩ := h
  refine ⟨?_, ?_, ?_, ?_⟩
  · simpa [same] using live
  · simpa using heard
  · simpa using mode
  · simpa using queue

section
variable {s t : State} {n : Nat} {m : Copy Block} {contributing : Bool}

theorem State.Passed.live_of_not (h : s.Passed t n m contributing) (mode : s.ctrl.mode.maintains = false) :
    t.table.live = s.table.live := by
  simpa [mode] using h.live

theorem State.Passed.live_length (h : s.Passed t n m contributing) : t.table.live.length = s.table.live.length := by
  rw [h.live]
  split
  · exact List.length_modify ..
  · rfl

theorem State.Passed.other (h : s.Passed t n m contributing) {k : Nat} (other : k ≠ n) : t.table.live[k]? = s.table.live[k]? := by
  rw [h.live]
  split
  · simp [other.symm]
  · rfl

theorem State.Passed.entry (h : s.Passed t n m contributing) (mode : s.ctrl.mode.maintains = true) {e : SlotEntry}
    (he : s.table.live[n]? = some e) : t.table.live[n]? = some (maintainEntry s n m contributing e) := by
  rw [h.live, if_pos mode, List.getElem?_modify_eq, he]
  rfl

end

theorem Mode.maintains_iff {m : Mode} : m.maintains = true ↔ m ≠ .starting ∧ m ≠ .listening := by
  cases m <;> simp [Mode.maintains]

/-- Settles O35: the pass as the slot table's own step, then the entry by its use and by the result of the slot. -/
theorem slotPassMaintainsEntry : Obligations.SlotPassMaintainsEntry := by
  unfold Obligations.SlotPassMaintainsEntry
  intro n a b order s hs ho hd
  dsimp only
  intro noDuplicate e he
  have unique : ¬ (atEvent (n.val + 4) s).FindsDuplicate n.val ((atEvent (n.val + 4) s).mergedBlock true a b).copy := by
    rintro ⟨x, hx, mode, foreign⟩
    refine noDuplicate x hx ?_ ?_
    · simpa using Mode.detectsDuplicate_iff.mp mode
    · simpa using State.foreignBlock_iff.mp foreign
  have passed := (passSlot_passed ho unique).of_atEvent
  refine ⟨_, exec_slotPass_of_due hs ho hd, fun k hk => passed.other (Fin.val_ne_of_ne hk), passed.live_length, by simp, by simp,
    passed.queue, by simp, by simp, ?_, ?_, ?_, ?_⟩
  · intro mode
    refine passed.live_of_not ?_
    rcases mode with mode | mode <;> rw [mode] <;> rfl
  · intro notStarting notListening
    have entry := passed.entry (Mode.maintains_iff.mpr ⟨notStarting, notListening⟩) he
    generalize ((atEvent (n.val + 4) s).mergedBlock true a b).copy = m at entry
    refine ⟨fun use => ?_, fun use hm => ?_, ?_, fun o g use => ⟨fun hm => ?_, ?_⟩⟩
    · exact entry.trans (congrArg some (maintainEntry_unknown use))
    · exact entry.trans (congrArg some (maintainEntry_open_of_not_valid use hm))
    · rintro x rfl use
      rw [maintainEntry_open_valid use] at entry
      refine ⟨fun hx => ?_, fun named notAhead => ?_⟩
      · rcases hx with unnamed | ahead
        · rw [if_neg unnamed] at entry
          exact entry
        · rw [mismatchEntry_of_behind ahead, ite_self] at entry
          exact entry
      · rw [if_pos named, mismatchEntry_of_not_behind notAhead] at entry
        exact entry
    · rw [maintainEntry_owned_of_not_valid use hm] at entry
      exact entry
    · rintro x rfl
      rw [maintainEntry_owned_valid use] at entry
      refine ⟨fun agrees => ?_, fun differs ahead => ?_, fun differs notAhead => ?_⟩
      · rw [if_pos agrees] at entry
        exact entry
      · rw [if_neg differs, mismatchEntry_of_behind ahead] at entry
        exact entry
      · rw [if_neg differs, mismatchEntry_of_not_behind notAhead] at entry
        exact entry
  · intro x hx
    have heard := passed.heard
    have mode := passed.mode
    rw [hx] at heard mode
    exact ⟨heard, mode⟩
  · intro hm
    have heard := passed.heard
    have mode := passed.mode
    generalize ((atEvent (n.val + 4) s).mergedBlock true a b).copy = m at *
    cases m with
    | valid x => cases hm
    | erased | idle => exact ⟨heard, mode⟩

end Sys2Proof.Machine
end

section
/-! PROOF LAYER. The engines' checks after a change of the live table (R121, R122, R142, R157): what they read and write of the state, and
the send entries that they leave alone. -/

namespace Sys2Proof.Machine

open Sys2Proof

/-! ### What the checks read and write -/

/-- State r with the parts of state s that the engines' checks read or write. -/
def State.withEngines (r s : State) : State :=
  { r with
    clock := { r.clock with round := s.clock.round }
    table := { r.table with live := s.table.live, epoch := s.table.epoch }
    notices := { r.notices with queue := s.notices.queue }
    send := s.send
    repair := s.repair
    recv := s.recv
    ctrl := s.ctrl
    mgmt := s.mgmt }

theorem ite_withEngines {c : Prop} [Decidable c] (r x y : State) :
    (if c then r.withEngines x else r.withEngines y) = r.withEngines (if c then x else y) := by
  split <;> rfl

theorem checkSend_withEngines (p : Port) (r s : State) : checkSend p (r.withEngines s) = r.withEngines (checkSend p s) := by
  have send : (r.withEngines s).send = s.send := rfl
  unfold checkSend
  dsimp only
  rw [send]
  cases (s.send.get p).state with
  | closed | claiming => rfl
  | live =>
    dsimp only
    cases (s.send.get p).slotRun.or (s.send.get p).claimRun with
    | none => rfl
    | some run =>
      dsimp only
      rw [← ite_withEngines]
      rfl
  | held | releasing =>
    dsimp only
    cases (s.send.get p).slotRun with
    | none => rfl
    | some run =>
      dsimp only
      rw [← ite_withEngines]
      rfl

theorem checkRecv_withEngines (p : Port) (r s : State) : checkRecv p (r.withEngines s) = r.withEngines (checkRecv p s) := by
  have recv : (r.withEngines s).recv = s.recv := rfl
  unfold checkRecv
  dsimp only
  rw [recv]
  cases (s.recv.get p).stream with
  | none => rfl
  | some st =>
    dsimp only
    rw [← ite_withEngines, ← ite_withEngines]
    rfl

theorem forPorts_withEngines {f : Port → State → State} (hf : ∀ p r s, f p (State.withEngines r s) = State.withEngines r (f p s))
    (r s : State) : forPorts f (r.withEngines s) = r.withEngines (forPorts f s) := by
  simp only [forPorts, hf]

theorem tableChanged_withEngines (sendFirst : Bool) (r s : State) :
    tableChanged sendFirst (r.withEngines s) = r.withEngines (tableChanged sendFirst s) := by
  unfold tableChanged
  split <;> simp only [forPorts_withEngines checkSend_withEngines, forPorts_withEngines checkRecv_withEngines]

/-- States that agree in what the engines' checks read agree in what they write. -/
theorem tableChanged_agrees {sendFirst : Bool} {v w : State} (h : w.withEngines v = w) :
    w.withEngines (tableChanged sendFirst v) = tableChanged sendFirst w := by
  rw [← tableChanged_withEngines, h]

theorem State.withEngines_eq_self {v w : State} (round : v.clock.round = w.clock.round) (live : v.table.live = w.table.live)
    (epoch : v.table.epoch = w.table.epoch) (queue : v.notices.queue = w.notices.queue) (send : v.send = w.send)
    (repair : v.repair = w.repair) (recv : v.recv = w.recv) (ctrl : v.ctrl = w.ctrl) (mgmt : v.mgmt = w.mgmt) :
    w.withEngines v = w := by
  simp only [State.withEngines, round, live, epoch, queue, send, repair, recv, ctrl, mgmt]

/-! ### The entries that the checks leave alone -/

/-- The checks have no run to look for: the entry is CLOSED or CLAIMING, or RELEASING before it holds slots (R121). -/
def SendEntry.Unchecked (e : SendEntry) : Prop := e.state = .closed ∨ e.state = .claiming ∨ (e.state = .releasing ∧ e.slotRun = none)

theorem checkSend_of_unchecked {p : Port} {s : State} (h : (s.send.get p).Unchecked) : checkSend p s = s := by
  unfold checkSend
  rcases h with state | state | ⟨state, run⟩
  · simp only [state]
  · simp only [state]
  · simp only [state, run]

theorem checkSend_get_of_ne {p x : Port} (s : State) (h : x ≠ p) : (checkSend x s).send.get p = s.send.get p := by
  have closed : (closeSend x s).send.get p = s.send.get p := PerPort.get_set_of_ne _ _ h.symm
  unfold checkSend
  dsimp only
  (repeat' split) <;> simp [closed]

theorem checkSend_keeps {p : Port} (x : Port) {s : State} (h : (s.send.get p).Unchecked) :
    (checkSend x s).send.get p = s.send.get p := by
  by_cases hx : x = p
  · subst hx
    rw [checkSend_of_unchecked h]
  · exact checkSend_get_of_ne s hx

theorem forPorts_checkSend_keeps {p : Port} {s : State} (h : (s.send.get p).Unchecked) :
    (forPorts checkSend s).send.get p = s.send.get p := by
  have step : ∀ (x : Port) {t : State}, t.send.get p = s.send.get p → (checkSend x t).send.get p = s.send.get p :=
    fun x t ht => (checkSend_keeps x (ht ▸ h)).trans ht
  exact step _ (step _ (step _ (step _ rfl)))

theorem tableChanged_keeps {sendFirst : Bool} {p : Port} {s : State} (h : (s.send.get p).Unchecked) :
    (tableChanged sendFirst s).send.get p = s.send.get p := by
  unfold tableChanged
  split
  · rw [forPorts_send checkRecv (by simp)]
    exact forPorts_checkSend_keeps h
  · have recvs : (forPorts checkRecv s).send = s.send := forPorts_send checkRecv (by simp) s
    rw [forPorts_checkSend_keeps (recvs ▸ h), recvs]

end Sys2Proof.Machine
end

section
/-! PROOF LAYER. Answer close (R94): the station's own notice at a read answer field, by its kind and by what becomes of the tentative change
(R81, R99 to R102). -/

namespace Sys2Proof.Machine

open Sys2Proof

/-! ### The place of a notice that joins again (R79, R100) -/

theorem insertQueued_eq (q : Queued) (l : List Queued) :
    insertQueued q l = l.takeWhile (fun x => decide (x.priority.toNat ≤ q.priority.toNat))
      ++ q :: l.dropWhile (fun x => decide (x.priority.toNat ≤ q.priority.toNat)) := by
  induction l with
  | nil => rfl
  | cons x l ih =>
    unfold insertQueued
    by_cases h : q.priority.toNat < x.priority.toNat
    · simp [h]
    · simp [h, Nat.not_lt.mp h, ih]

/-! ### The outcome at the sender -/

section
variable {s : State} {q : Queued} {ans : AnswerRecord} {p : Port}

theorem senderOutcome_of_committed (hq : s.inFlight = some q) (kind : q.kind ≠ .repairAsk) :
    senderOutcome true ans s = senderCommitted q s := by
  unfold senderOutcome
  rw [hq]
  cases h : q.kind with
  | repairAsk => exact absurd h kind
  | claim | release | reclaim => simp [h]

theorem senderOutcome_of_withdrawn (hq : s.inFlight = some q) (kind : q.kind ≠ .repairAsk) (withdrawn : q.withdrawn = true) :
    senderOutcome false ans s = withdrawnEnds q (outcomeRecord q s) (removeInFlight s) := by
  unfold senderOutcome
  rw [hq]
  cases h : q.kind with
  | repairAsk => exact absurd h kind
  | claim | release | reclaim => simp [h, withdrawn]

theorem senderOutcome_of_dissented (hq : s.inFlight = some q) (kind : q.kind ≠ .repairAsk) (withdrawn : q.withdrawn = false) :
    senderOutcome false ans s = senderDissented q s := by
  unfold senderOutcome
  rw [hq]
  cases h : q.kind with
  | repairAsk => exact absurd h kind
  | claim | release | reclaim => simp [h, withdrawn]

theorem senderOutcome_of_ask {committed : Bool} (hq : s.inFlight = some q) (kind : q.kind = .repairAsk) :
    senderOutcome committed ans s = askOutcome q ans s := by
  simp [senderOutcome, hq, kind]

theorem senderOutcome_flight (committed : Bool) : (senderOutcome committed ans s).notices.flight = none := by
  unfold senderOutcome senderCommitted senderDissented askOutcome rejoin refuseQueued
  dsimp only
  (repeat' split) <;> simp

theorem senderCommitted_of_release (kind : q.kind = .release) (origin : q.origin = .send p) (state : (s.send.get p).state = .releasing) :
    senderCommitted q s = giveEvent (.streamClosed p (some (outcomeRecord q s))) (closeSend p (removeInFlight s)) := by
  simp [senderCommitted, kind, origin, state]

/-- A RELEASING entry whose withdrawn CLAIM has committed: it has the run, and a RELEASE is due (R120). -/
def SendEntry.claimedLate (q : Queued) (e : SendEntry) : SendEntry :=
  { e with claimRun := some ⟨q.first.toNat, q.count.toNat⟩, slotRun := none, releaseDue := true }

theorem senderCommitted_of_withdrawn_claim (kind : q.kind = .claim) (origin : q.origin = .send p)
    (state : (s.send.get p).state = .releasing) :
    senderCommitted q s = (removeInFlight s).mapSend p (SendEntry.claimedLate q) := by
  simp [senderCommitted, claimCommitted, kind, origin, state, Queued.run, State.mapSend, SendEntry.claimedLate]

theorem senderCommitted_of_no_entry (h : q.kind = .reclaim ∨ (q.kind = .release ∧ q.origin = .controller)) :
    senderCommitted q s = removeInFlight s := by
  rcases h with kind | ⟨kind, origin⟩
  · simp [senderCommitted, kind]
  · simp [senderCommitted, kind, origin]

theorem senderDissented_of_release_again (kind : q.kind = .release) (attempt : q.attempt < 3) : senderDissented q s = rejoin q s := by
  simp [senderDissented, kind, attempt]

theorem senderDissented_of_release_refused (kind : q.kind = .release) (origin : q.origin = .send p)
    (state : (s.send.get p).state = .releasing) (attempt : 3 ≤ q.attempt) :
    senderDissented q s = giveEvent (.streamRefused p .dissent (outcomeRecord q s))
      ((removeInFlight s).mapSend p (fun e => { e with releaseDue := true })) := by
  simp [senderDissented, releaseRefused, kind, origin, state, Nat.not_lt.mpr attempt]

theorem senderDissented_of_reclaim (kind : q.kind = .reclaim) : senderDissented q s = removeInFlight s := by
  simp [senderDissented, kind]

theorem withdrawnEnds_of_claim {o : OutcomeRecord} (kind : q.kind = .claim) (origin : q.origin = .send p) :
    withdrawnEnds q o s = claimNotCommitted p o s := by
  simp [withdrawnEnds, kind, origin]

/-- The outcome record at a read answer field (R102). -/
theorem outcomeRecord_of_read (last : s.notices.lastAnswer = some ans) (read : ans.read = true) :
    outcomeRecord q s =
      { kind := q.kind, tag := q.tag, run := q.lastSent.getD ⟨q.first.toNat, q.count.toNat⟩, attempt := q.attempt
        answer := q.lastSent.map (fun _ => (ans.accepts, ans.dissent))
        heard := s.table.heard.map (fun age => decide (age ≤ 255)) } := by
  cases h : q.lastSent <;> simp [outcomeRecord, last, read, h, Queued.run]

end

/-! ### The answer field, read -/

/-- The state as an answer field is read: the answers are recorded, and a roll call's are heard (R65, R94). -/
def State.answered (u : State) (a b : AnswerReading) : State :=
  applyIf u.notices.rollCall (hearRollCall (mergeAnswers u.lanes a b)) { tellLevels a.levelShown b.levelShown u with
    notices := { u.notices with lastAnswer := some (mergeAnswers u.lanes a b) } }

@[simp] theorem answered_frame (u : State) (a b : AnswerReading) :
    (u.answered a b).clock = u.clock ∧ (u.answered a b).send = u.send ∧ (u.answered a b).repair = u.repair
      ∧ (u.answered a b).recv = u.recv ∧ (u.answered a b).ctrl = u.ctrl ∧ (u.answered a b).mgmt = u.mgmt
      ∧ (u.answered a b).table.live = u.table.live ∧ (u.answered a b).table.epoch = u.table.epoch
      ∧ (u.answered a b).notices = { u.notices with lastAnswer := some (mergeAnswers u.lanes a b) } := by
  unfold State.answered; simp

theorem answered_inFlight (u : State) (a b : AnswerReading) : (u.answered a b).inFlight = u.inFlight := by
  simp [State.inFlight]

theorem answered_completed (u : State) (a b : AnswerReading) : (u.answered a b).completed = u.completed := by
  simp [State.completed]

section
variable {u : State} {a b : AnswerReading} {sendFirst : Bool} {tc : Tentative}

theorem takeAnswers_of_committed {s : State} {ans : AnswerRecord} (completed : s.completed = true)
    (tentative : s.notices.tentative = some tc) (dissent : ans.dissent = false) :
    takeAnswers ans sendFirst s = tableChanged sendFirst
      (senderOutcome true ans (commitChange tc (applyIf s.notices.rollCall (hearRollCall ans) s))) := by
  have completed : (applyIf s.notices.rollCall (hearRollCall ans) s).completed = true := by simpa [State.completed] using completed
  have tentative : (applyIf s.notices.rollCall (hearRollCall ans) s).notices.tentative = some tc := by simpa using tentative
  unfold takeAnswers
  dsimp only
  rw [tentative, completed, dissent]
  rfl

theorem takeAnswers_of_discarded {s : State} {ans : AnswerRecord} (completed : s.completed = true)
    (discarded : (s.notices.tentative.isSome && !ans.dissent) = false) :
    takeAnswers ans sendFirst s = senderOutcome false ans (applyIf s.notices.rollCall (hearRollCall ans) s) := by
  have completed : (applyIf s.notices.rollCall (hearRollCall ans) s).completed = true := by simpa [State.completed] using completed
  have tentative : (applyIf s.notices.rollCall (hearRollCall ans) s).notices.tentative = s.notices.tentative := by simp
  unfold takeAnswers
  dsimp only
  rw [tentative, completed]
  cases h : s.notices.tentative with
  | none => rfl
  | some tc =>
    have dissent : ans.dissent = true := by simpa [h] using discarded
    rw [dissent]
    rfl

theorem closeAnswers_of_committed (read : (mergeAnswers u.lanes a b).read = true) (completed : u.completed = true)
    (tentative : u.notices.tentative = some tc) (dissent : (mergeAnswers u.lanes a b).dissent = false) :
    closeAnswers a b sendFirst u = beginField Config.answerCloseAt (dropAnswer (tableChanged sendFirst
      (senderOutcome true (mergeAnswers u.lanes a b) (commitChange tc (u.answered a b))))) := by
  unfold closeAnswers
  dsimp only
  rw [if_pos read, takeAnswers_of_committed (by simpa [State.completed] using completed) (by simpa using tentative) dissent]
  rfl

theorem closeAnswers_of_discarded (read : (mergeAnswers u.lanes a b).read = true) (completed : u.completed = true)
    (discarded : (u.notices.tentative.isSome && !(mergeAnswers u.lanes a b).dissent) = false) :
    closeAnswers a b sendFirst u = beginField Config.answerCloseAt (dropAnswer
      (senderOutcome false (mergeAnswers u.lanes a b) (u.answered a b))) := by
  unfold closeAnswers
  dsimp only
  rw [if_pos read, takeAnswers_of_discarded (by simpa [State.completed] using completed) (by simpa using discarded)]
  rfl

end

/-! ### The station's own notice at a read answer field -/

/-- The answer field after a notice that the station completed, q the notice, is read. -/
structure State.ReadsOwn (u : State) (a b : AnswerReading) (q : Queued) : Prop where
  read : (mergeAnswers u.lanes a b).read = true
  completed : u.completed = true
  inFlight : u.inFlight = some q

/-- The outcome record of a notice at a read answer field, the ages of the numbers heard being those of state t (R102). -/
def Queued.recordAt (q : Queued) (kind : NoticeKind) (ans : AnswerRecord) (t : State) : OutcomeRecord :=
  { kind := kind, tag := q.tag, run := q.lastSent.getD ⟨q.first.toNat, q.count.toNat⟩, attempt := q.attempt
    answer := q.lastSent.map (fun _ => (ans.accepts, ans.dissent))
    heard := t.table.heard.map (fun age => decide (age ≤ 255)) }

section
variable {u : State} {a b : AnswerReading} {sendFirst : Bool} {q : Queued} {tc : Tentative} {p : Port}

/-- The tentative change commits (R58, R94). -/
def State.Commits (u : State) (a b : AnswerReading) (tc : Tentative) : Prop :=
  u.notices.tentative = some tc ∧ (mergeAnswers u.lanes a b).dissent = false

/-- Nothing commits (R94). -/
def State.Discards (u : State) (a b : AnswerReading) : Prop :=
  (u.notices.tentative.isSome && !(mergeAnswers u.lanes a b).dissent) = false

/-- The state as the sender's outcome leaves it, the tentative change committed. -/
def State.committedAt (u : State) (a b : AnswerReading) (tc : Tentative) : State :=
  senderOutcome true (mergeAnswers u.lanes a b) (commitChange tc (u.answered a b))

/-- The state as the sender's outcome leaves it, nothing committed. -/
def State.discardedAt (u : State) (a b : AnswerReading) : State :=
  senderOutcome false (mergeAnswers u.lanes a b) (u.answered a b)

theorem State.ReadsOwn.closes_committed (h : u.ReadsOwn a b q) (hc : u.Commits a b tc) :
    closeAnswers a b sendFirst u =
      beginField Config.answerCloseAt (dropAnswer (tableChanged sendFirst (u.committedAt a b tc))) :=
  closeAnswers_of_committed h.read h.completed hc.1 hc.2

theorem State.ReadsOwn.closes_discarded (h : u.ReadsOwn a b q) (hd : u.Discards a b) :
    closeAnswers a b sendFirst u = beginField Config.answerCloseAt (dropAnswer (u.discardedAt a b)) :=
  closeAnswers_of_discarded h.read h.completed hd

theorem State.commits_or_discards (u : State) (a b : AnswerReading) : (∃ tc, u.Commits a b tc) ∨ u.Discards a b := by
  unfold State.Commits State.Discards
  cases u.notices.tentative <;> cases (mergeAnswers u.lanes a b).dissent <;> simp

theorem State.commits_of_committed (h : (u.notices.tentative.isSome && !(mergeAnswers u.lanes a b).dissent) = true) :
    ∃ tc, u.Commits a b tc :=
  (u.commits_or_discards a b).resolve_right (fun hd => Bool.noConfusion (h.symm.trans hd))

theorem State.ReadsOwn.closed_notices (h : u.ReadsOwn a b q) :
    (closeAnswers a b sendFirst u).notices.flight = none ∧ (closeAnswers a b sendFirst u).notices.plan = none
      ∧ (closeAnswers a b sendFirst u).notices.tentative = none
      ∧ (closeAnswers a b sendFirst u).notices.lastAnswer = some (mergeAnswers u.lanes a b) := by
  rcases u.commits_or_discards a b with ⟨tc, hc⟩ | hd
  · rw [h.closes_committed hc]
    simp [State.committedAt, senderOutcome_flight]
  · rw [h.closes_discarded hd]
    simp [State.discardedAt, senderOutcome_flight]

theorem State.ReadsOwn.closed_heard (h : u.ReadsOwn a b q) :
    (closeAnswers a b sendFirst u).table.heard = (u.answered a b).table.heard := by
  rcases u.commits_or_discards a b with ⟨tc, hc⟩ | hd
  · rw [h.closes_committed hc]
    simp [State.committedAt, commitChange]
  · rw [h.closes_discarded hd]
    simp [State.discardedAt]

theorem State.ReadsOwn.committed_table (h : u.ReadsOwn a b q) (hc : u.Commits a b tc) :
    (closeAnswers a b sendFirst u).table.epoch = u.table.epoch + 1
      ∧ (closeAnswers a b sendFirst u).table.live = u.table.live.mapIdx (fun n x =>
          if tc.run.first ≤ n ∧ n < tc.run.first + tc.run.count then SlotEntry.fresh tc.use else x) := by
  rw [h.closes_committed hc]
  simp [State.committedAt, commitChange, Run.has]

theorem State.ReadsOwn.discarded_table (h : u.ReadsOwn a b q) (hd : u.Discards a b) :
    (closeAnswers a b sendFirst u).table.live = u.table.live ∧ (closeAnswers a b sendFirst u).table.epoch = u.table.epoch := by
  rw [h.closes_discarded hd]
  simp [State.discardedAt]

/-- The record formed at the sender is the one of the state after the close: no one is heard in between. -/
theorem State.ReadsOwn.outcomeRecord_eq (h : u.ReadsOwn a b q) {v : State} (notices : v.notices = (u.answered a b).notices)
    (heard : v.table.heard = (u.answered a b).table.heard) :
    outcomeRecord q v = q.recordAt q.kind (mergeAnswers u.lanes a b) (closeAnswers a b sendFirst u) := by
  rw [outcomeRecord_of_read (ans := mergeAnswers u.lanes a b) (by simp [notices]) h.read, heard, ← h.closed_heard (sendFirst := sendFirst)]
  rfl

theorem State.ReadsOwn.inFlight_answered (h : u.ReadsOwn a b q) : (u.answered a b).inFlight = some q :=
  (answered_inFlight u a b).trans h.inFlight

theorem State.ReadsOwn.inFlight_committed (h : u.ReadsOwn a b q) : (commitChange tc (u.answered a b)).inFlight = some q :=
  h.inFlight_answered

/-- After a commit, the engines check their entries from any state that agrees with the sender's outcome in what they read. -/
theorem State.ReadsOwn.ends (h : u.ReadsOwn a b q) (hc : u.Commits a b tc) {w : State} (agrees : w.withEngines (u.committedAt a b tc) = w) :
    (closeAnswers a b sendFirst u).send = (tableChanged sendFirst w).send
      ∧ (closeAnswers a b sendFirst u).repair = (tableChanged sendFirst w).repair
      ∧ (closeAnswers a b sendFirst u).recv = (tableChanged sendFirst w).recv
      ∧ (closeAnswers a b sendFirst u).mgmt = (tableChanged sendFirst w).mgmt
      ∧ (closeAnswers a b sendFirst u).notices.queue = (tableChanged sendFirst w).notices.queue := by
  rw [h.closes_committed hc, ← tableChanged_agrees agrees]
  exact ⟨rfl, rfl, rfl, rfl, rfl⟩

/-- With nothing committed, the close leaves the engines as the sender's outcome does. -/
theorem State.ReadsOwn.discarded_parts (h : u.ReadsOwn a b q) (hd : u.Discards a b) {x : State} (outcome : u.discardedAt a b = x) :
    (closeAnswers a b sendFirst u).send = x.send ∧ (closeAnswers a b sendFirst u).recv = x.recv
      ∧ (closeAnswers a b sendFirst u).mgmt = x.mgmt ∧ (closeAnswers a b sendFirst u).notices.queue = x.notices.queue := by
  rw [h.closes_discarded hd, outcome]
  exact ⟨rfl, rfl, rfl, rfl⟩

theorem State.ReadsOwn.committed_send (h : u.ReadsOwn a b q) (hc : u.Commits a b tc) {e : SendEntry}
    (entry : (u.committedAt a b tc).send.get p = e) (unchecked : e.Unchecked) :
    (closeAnswers a b sendFirst u).send.get p = e := by
  rw [h.closes_committed hc, ← entry]
  exact tableChanged_keeps (entry ▸ unchecked)

end

end Sys2Proof.Machine
end

section
/-! PROOF LAYER. The station's own RELEASE, RECLAIM, REPAIR_ASK and withdrawn CLAIM at a read answer field (R81, R99 to R102, R154, R159). -/

namespace Sys2Proof.Machine

open Sys2Proof

section
variable {u : State} {a b : AnswerReading} {sendFirst : Bool} {q : Queued} {tc : Tentative} {p : Port}

/-! ### What the sender's outcome is, by the kind of the notice -/

theorem State.ReadsOwn.committedAt_of_release (h : u.ReadsOwn a b q) (kind : q.kind = .release) (origin : q.origin = .send p)
    (state : (u.send.get p).state = .releasing) :
    u.committedAt a b tc = giveEvent (.streamClosed p (some (q.recordAt .release (mergeAnswers u.lanes a b) (closeAnswers a b sendFirst u))))
      (closeSend p (removeInFlight (commitChange tc (u.answered a b)))) := by
  have record := h.outcomeRecord_eq (sendFirst := sendFirst) (v := commitChange tc (u.answered a b)) rfl rfl
  unfold State.committedAt
  rw [senderOutcome_of_committed h.inFlight_committed (by simp [kind]), senderCommitted_of_release kind origin (by simpa using state), record,
    kind]

theorem State.ReadsOwn.committedAt_of_withdrawn_claim (h : u.ReadsOwn a b q) (kind : q.kind = .claim) (origin : q.origin = .send p)
    (state : (u.send.get p).state = .releasing) :
    u.committedAt a b tc = (removeInFlight (commitChange tc (u.answered a b))).mapSend p (SendEntry.claimedLate q) := by
  unfold State.committedAt
  rw [senderOutcome_of_committed h.inFlight_committed (by simp [kind]),
    senderCommitted_of_withdrawn_claim kind origin (by simpa using state)]

theorem State.ReadsOwn.committedAt_of_no_entry (h : u.ReadsOwn a b q)
    (kind : q.kind = .reclaim ∨ (q.kind = .release ∧ q.origin = .controller)) :
    u.committedAt a b tc = removeInFlight (commitChange tc (u.answered a b)) := by
  have notAsk : q.kind ≠ .repairAsk := by rcases kind with kind | ⟨kind, -⟩ <;> simp [kind]
  unfold State.committedAt
  rw [senderOutcome_of_committed h.inFlight_committed notAsk, senderCommitted_of_no_entry kind]

theorem State.ReadsOwn.discardedAt_of_release_again (h : u.ReadsOwn a b q) (kind : q.kind = .release) (stands : q.withdrawn = false)
    (attempt : q.attempt < 3) : u.discardedAt a b = rejoin q (u.answered a b) := by
  unfold State.discardedAt
  rw [senderOutcome_of_dissented h.inFlight_answered (by simp [kind]) stands, senderDissented_of_release_again kind attempt]

theorem State.ReadsOwn.discardedAt_of_release_refused (h : u.ReadsOwn a b q) (kind : q.kind = .release) (origin : q.origin = .send p)
    (stands : q.withdrawn = false) (state : (u.send.get p).state = .releasing) (attempt : 3 ≤ q.attempt) :
    u.discardedAt a b =
      giveEvent (.streamRefused p .dissent (q.recordAt .release (mergeAnswers u.lanes a b) (closeAnswers a b sendFirst u)))
        ((removeInFlight (u.answered a b)).mapSend p (fun e => { e with releaseDue := true })) := by
  have record := h.outcomeRecord_eq (sendFirst := sendFirst) (v := u.answered a b) rfl rfl
  unfold State.discardedAt
  rw [senderOutcome_of_dissented h.inFlight_answered (by simp [kind]) stands,
    senderDissented_of_release_refused kind origin (by simpa using state) attempt, record, kind]

theorem State.ReadsOwn.discardedAt_of_reclaim (h : u.ReadsOwn a b q) (kind : q.kind = .reclaim) (stands : q.withdrawn = false) :
    u.discardedAt a b = removeInFlight (u.answered a b) := by
  unfold State.discardedAt
  rw [senderOutcome_of_dissented h.inFlight_answered (by simp [kind]) stands, senderDissented_of_reclaim kind]

theorem State.ReadsOwn.discardedAt_of_withdrawn_claim (h : u.ReadsOwn a b q) (kind : q.kind = .claim) (origin : q.origin = .send p)
    (withdrawn : q.withdrawn = true) (state : (u.send.get p).state = .releasing) :
    u.discardedAt a b =
      giveEvent (.streamClosed p (some (q.recordAt .claim (mergeAnswers u.lanes a b) (closeAnswers a b sendFirst u))))
        (closeSend p (removeInFlight (u.answered a b))) := by
  have record := h.outcomeRecord_eq (sendFirst := sendFirst) (v := u.answered a b) rfl rfl
  unfold State.discardedAt
  rw [senderOutcome_of_withdrawn h.inFlight_answered (by simp [kind]) withdrawn, withdrawnEnds_of_claim kind origin,
    claimNotCommitted_releasing _ (by simpa using state), record, kind]
  rfl

theorem State.ReadsOwn.discardedAt_of_ask (h : u.ReadsOwn a b q) (kind : q.kind = .repairAsk) :
    u.discardedAt a b = askOutcome q (mergeAnswers u.lanes a b) (u.answered a b) := by
  unfold State.discardedAt
  rw [senderOutcome_of_ask h.inFlight_answered kind]

end

/-! ### The engines' checks after a commit -/

section
variable {u : State} {a b : AnswerReading} {sendFirst : Bool} {q : Queued} {tc : Tentative} {p : Port}

/-- The change committed and the notice out of the queue, its sender untouched. -/
def State.afterCommit (u : State) (a b : AnswerReading) (tc : Tentative) : State :=
  { commitChange tc u with notices := { u.notices with
      flight := none, queue := u.notices.queue.filter (fun x => !x.inFlight), lastAnswer := some (mergeAnswers u.lanes a b) } }

theorem State.afterCommit_agrees (u : State) (a b : AnswerReading) (tc : Tentative) :
    (u.afterCommit a b tc).withEngines (removeInFlight (commitChange tc (u.answered a b))) = u.afterCommit a b tc := by
  apply State.withEngines_eq_self <;> simp [State.afterCommit, commitChange]

end

/-! ### The outcome of an ask at its entry (R101, R154) -/

section
variable {s : State} {q : Queued} {ans : AnswerRecord} {p : Port}

theorem askOutcome_of_silent (origin : q.origin = .recv p) (h : q.withdrawn = true ∨ s.ctrl.mode ≠ .joined
      ∨ (ans.accepts.getLsbD (tagStation q.tag).toNat = false ∧ ans.dissent = false)) : askOutcome q ans s = removeInFlight s := by
  rcases h with h | h | ⟨accepts, dissent⟩
  · simp [askOutcome, origin, h]
  · exact askOutcome_outside_joined q ans h
  · simp [askOutcome, origin, accepts, dissent]

theorem askOutcome_of_accepted (origin : q.origin = .recv p) (stands : q.withdrawn = false) (mode : s.ctrl.mode = .joined)
    (accepts : ans.accepts.getLsbD (tagStation q.tag).toNat = true) :
    askOutcome q ans s = askAccepted p q.first q.count.toNat (removeInFlight s) := by
  simp [askOutcome, origin, stands, mode, accepts]

theorem askOutcome_of_gone (origin : q.origin = .recv p) (stands : q.withdrawn = false) (mode : s.ctrl.mode = .joined)
    (accepts : ans.accepts.getLsbD (tagStation q.tag).toNat = false) (dissent : ans.dissent = true) :
    askOutcome q ans s = askGone p q.first q.count.toNat (removeInFlight s) := by
  simp [askOutcome, origin, stands, mode, accepts, dissent]

theorem askAccepted_recv {u : State} {first : Seq} {count : Nat} (recv : s.recv = u.recv) (round : s.clock.round = u.clock.round) :
    (askAccepted p first count s).recv = u.recv.set p { u.recv.get p with
      stream := (u.recv.get p).stream.map (fun st => { st with
        gaps := st.gaps.map (fun r =>
          if r.meets first count then
            { r with
              asksUsed := min 3 (r.asksUsed + 1)
              ask := some { lastRound := u.clock.round, reach := first + BitVec.ofNat 16 (count - 1) } }
          else r) }) } := by
  rw [← recv, ← round]
  rfl

theorem askGone_recv {u : State} {first : Seq} {count : Nat} (recv : s.recv = u.recv) :
    (askGone p first count s).recv = u.recv.set p { u.recv.get p with
      stream := (u.recv.get p).stream.map (fun st => { st with gaps := st.gaps.filter (fun r => !r.meets first count) }) } := by
  rw [← recv]
  rfl

theorem askOutcome_queue (origin : q.origin = .recv p) : (askOutcome q ans s).notices.queue = (removeInFlight s).notices.queue := by
  simp only [askOutcome, origin]
  (repeat' split) <;> rfl

end

theorem exec_answerClose_of_due {a b : AnswerReading} {sendFirst : Bool} {s : State} (hs : s.holding = false) (hd : s.due 2 = true) :
    exec (.answerClose a b sendFirst) s = .next (closeAnswers a b sendFirst (atEvent 2 s)) :=
  running_fieldEvent_of_due (closeAnswers a b sendFirst) hs hd

/-- Settles O30: the close as the sender's outcome, by whether the change commits and by the notice, and after a commit the engines'
checks. -/
theorem ownNoticesAtAnswerClose : Obligations.OwnNoticesAtAnswerClose := by
  unfold Obligations.OwnNoticesAtAnswerClose
  intro a b sendFirst p s hs hd
  dsimp only
  intro f hf q hq sent read
  refine ⟨_, exec_answerClose_of_due hs hd, ?_⟩
  have table : (atEvent 2 s).table = s.table := by simp
  have send : (atEvent 2 s).send = s.send := by simp
  have recv : (atEvent 2 s).recv = s.recv := by simp
  have repair : (atEvent 2 s).repair = s.repair := by simp
  have mgmt : (atEvent 2 s).mgmt = s.mgmt := by simp
  have ctrl : (atEvent 2 s).ctrl = s.ctrl := by simp
  have round : (atEvent 2 s).clock.round = s.clock.round := by simp
  have tag : (atEvent 2 s).tagOf p = s.tagOf p := by simp [State.tagOf]
  rw [← table, ← send, ← recv, ← repair, ← mgmt, ← ctrl, ← round, ← tag]
  generalize atEvent 2 s = u at *
  have h : u.ReadsOwn a b q := ⟨read, by simpa [State.completed, hf] using sent, hq⟩
  obtain ⟨flight, plan, tentative, last⟩ := h.closed_notices (sendFirst := sendFirst)
  refine ⟨flight, plan, tentative, last, ?_, ?_, ?_, ?_, ?_, ?_, ?_, ?_, ?_, ?_⟩
  · exact fun tc ht hd => h.committed_table ⟨ht, hd⟩
  · exact fun hd => h.discarded_table hd
  · intro tc ht hd
    refine ⟨?_, ?_, ?_⟩
    · rintro ⟨kind, origin, -, state⟩
      refine h.ends ⟨ht, hd⟩ ?_
      rw [h.committedAt_of_release (sendFirst := sendFirst) kind origin state]
      exact congrArg (fun v => giveEvent (.streamClosed p (some _)) (closeSend p v)) (u.afterCommit_agrees a b tc)
    · rintro ⟨kind, origin, -, state⟩
      refine h.ends ⟨ht, hd⟩ ?_
      rw [h.committedAt_of_withdrawn_claim kind origin state]
      exact congrArg (fun v => State.mapSend v p (SendEntry.claimedLate q)) (u.afterCommit_agrees a b tc)
    · intro kind
      refine h.ends ⟨ht, hd⟩ ?_
      rw [h.committedAt_of_no_entry kind]
      exact u.afterCommit_agrees a b tc
  · rintro ⟨kind, origin, -, state⟩ hc
    obtain ⟨tc, hc⟩ := u.commits_of_committed hc
    refine h.committed_send hc ?_ (Or.inl rfl)
    rw [h.committedAt_of_release (sendFirst := sendFirst) kind origin state]
    simp [closeSend]
  · rintro ⟨kind, origin, stands, state⟩ hd attempt
    obtain ⟨send, -, mgmt, queue⟩ := h.discarded_parts (sendFirst := sendFirst) hd (h.discardedAt_of_release_again kind stands attempt)
    exact ⟨send.trans (by simp), mgmt.trans (by simp), queue.trans (by simp [rejoin, insertQueued_eq])⟩
  · rintro ⟨kind, origin, stands, state⟩ hd attempt
    obtain ⟨send, -, mgmt, queue⟩ := h.discarded_parts (sendFirst := sendFirst) hd
      (h.discardedAt_of_release_refused (sendFirst := sendFirst) kind origin stands state attempt)
    exact ⟨send.trans (by simp), queue.trans (by simp), mgmt.trans (giveEvent_mgmt_congr _ (by simp) (by simp))⟩
  · intro kind stands hd
    obtain ⟨send, recv, mgmt, queue⟩ := h.discarded_parts (sendFirst := sendFirst) hd (h.discardedAt_of_reclaim kind stands)
    exact ⟨send.trans (by simp), recv.trans (by simp), mgmt.trans (by simp), queue.trans (by simp)⟩
  · rintro ⟨kind, origin, -, state⟩ hc
    obtain ⟨tc, hc⟩ := u.commits_of_committed hc
    refine h.committed_send hc ?_ (Or.inr (Or.inr ⟨state, rfl⟩))
    rw [h.committedAt_of_withdrawn_claim kind origin state]
    simp [SendEntry.claimedLate]
  · rintro ⟨kind, origin, withdrawn, state⟩ hd
    obtain ⟨send, -, mgmt, queue⟩ := h.discarded_parts (sendFirst := sendFirst) hd
      (h.discardedAt_of_withdrawn_claim (sendFirst := sendFirst) kind origin withdrawn state)
    exact ⟨(congrArg (fun x => x.get p) send).trans (by simp [closeSend]), queue.trans (by simp),
      mgmt.trans (giveEvent_mgmt_congr _ (by simp) (by simp))⟩
  · intro kind origin ht
    have hd : u.Discards a b := by simp [State.Discards, ht]
    obtain ⟨send, recv, mgmt, queue⟩ := h.discarded_parts (sendFirst := sendFirst) hd (h.discardedAt_of_ask kind)
    rw [send, recv, mgmt, queue]
    refine ⟨(askOutcome_queue origin).trans (by simp), by simp, fun silent => ?_, fun stands joined accepts => ?_,
      fun stands joined accepts dissent => ?_⟩
    · rw [askOutcome_of_silent origin (by simpa using silent)]
      simp
    · rw [askOutcome_of_accepted origin stands (by simpa using joined) accepts]
      exact ⟨askAccepted_recv (by simp) (by simp), by simp [askAccepted]⟩
    · rw [askOutcome_of_gone origin stands (by simpa using joined) accepts dissent]
      exact ⟨askGone_recv (by simp), giveEvent_mgmt_congr _ (by simp) (by simp)⟩

end Sys2Proof.Machine
end

section
/-! PROOF LAYER. The notice window close (R35, R64, R65, R86, R171): the slot table and the notice engine meet the merged result alike in
either order, so that where no station number is a duplicate every admissible order of the blocks has one outcome. -/

namespace Sys2Proof.Machine

open Sys2Proof

/-! ### The answer of the station, and the slot table's step -/

/-- The state with what the notice engine answers: plan, tentative change, roll call, and the re-send queue. -/
def State.withAnswer (p : Option AnswerPlan) (t : Option Tentative) (roll : Bool) (resends : List Resend) (s : State) : State :=
  { s with
    notices := { s.notices with plan := p, tentative := t, rollCall := roll }
    repair := { s.repair with queue := resends } }

section
variable {p : Option AnswerPlan} {t : Option Tentative} {roll : Bool} {resends : List Resend}

theorem dropTurn_withAnswer (s : State) :
    dropTurn (s.withAnswer p t roll resends) = (dropTurn s).withAnswer p t roll resends := by
  have turn : (s.withAnswer p t roll resends).repair.turn = s.repair.turn := rfl
  unfold dropTurn
  rw [turn]
  split <;> rfl

theorem enterResync_withAnswer (cause : ModeCause) (e : Epoch) (s : State) :
    enterResync cause e (s.withAnswer p t roll resends) = (enterResync cause e s).withAnswer p t roll resends := by
  have change : changeMode .resync cause (s.withAnswer p t roll resends) = (changeMode .resync cause s).withAnswer p t roll resends := by
    change giveEvent _ { dropTurn (s.withAnswer p t roll resends) with ctrl := _ } = _
    rw [dropTurn_withAnswer]
    rfl
  unfold enterResync
  rw [change]
  rfl

theorem testEpoch_withAnswer (e : Epoch) (s : State) :
    testEpoch e (s.withAnswer p t roll resends) = (testEpoch e s).withAnswer p t roll resends := by
  have mode : (s.withAnswer p t roll resends).ctrl.mode = s.ctrl.mode := rfl
  have epoch : (s.withAnswer p t roll resends).table.epoch = s.table.epoch := rfl
  unfold testEpoch
  rw [mode, epoch]
  split
  · exact enterResync_withAnswer _ _ s
  · rfl

theorem foldl_hear_withAnswer (ns : List Notice) (s : State) :
    ns.foldl (fun s n => hear (leadInSender n.leadIn) s) (s.withAnswer p t roll resends)
      = (ns.foldl (fun s n => hear (leadInSender n.leadIn) s) s).withAnswer p t roll resends := by
  induction ns generalizing s with
  | nil => rfl
  | cons n ns ih => exact ih (hear (leadInSender n.leadIn) s)

theorem tableAtNotice_withAnswer (m : MergedNotice) (first : LaneId) (s : State) :
    tableAtNotice m first (s.withAnswer p t roll resends) = (tableAtNotice m first s).withAnswer p t roll resends := by
  unfold tableAtNotice
  dsimp only
  rw [foldl_hear_withAnswer]
  generalize (m.notices first).foldl (fun s n => hear (leadInSender n.leadIn) s) s = v
  have epoch : (v.withAnswer p t roll resends).table.epoch = v.table.epoch := rfl
  split
  · rfl
  · exact testEpoch_withAnswer _ v
  · rw [epoch]
    split <;> exact testEpoch_withAnswer _ v

end

/-! ### The engine's step meets the slot table's in either order -/

section
variable (m : MergedNotice) (first : LaneId) (s : State)

theorem planAnswer_tableAtNotice (p : Option AnswerPlan) (t : Option Tentative) :
    planAnswer p t (tableAtNotice m first s) = tableAtNotice m first (planAnswer p t s) := by
  have h := tableAtNotice_withAnswer (p := p) (t := t) (roll := s.notices.rollCall) (resends := s.repair.queue) m first s
  have notices : (tableAtNotice m first s).notices = s.notices := by simp
  have queue : (tableAtNotice m first s).repair.queue = s.repair.queue := by simp
  refine Eq.trans ?_ h.symm
  rw [← notices, ← queue]
  rfl

theorem queueResends_tableAtNotice (tag : Tag) (k : BitVec 3) (seqs : List Seq) :
    queueResends tag k seqs (tableAtNotice m first s) = tableAtNotice m first (queueResends tag k seqs s) := by
  have h := tableAtNotice_withAnswer (p := s.notices.plan) (t := s.notices.tentative) (roll := s.notices.rollCall)
    (resends := (queueResends tag k seqs s).repair.queue) m first s
  refine Eq.trans ?_ h.symm
  simp [State.withAnswer, queueResends]

theorem acceptable_tableAtNotice (sender : StationNo) (b : NoticeBody) :
    acceptable sender b (tableAtNotice m first s) = acceptable sender b s := by
  simp [acceptable, State.station]

theorem judgeChange_tableAtNotice (sender : StationNo) (b : NoticeBody) :
    judgeChange sender b (tableAtNotice m first s) = tableAtNotice m first (judgeChange sender b s) := by
  unfold judgeChange
  rw [acceptable_tableAtNotice]
  split <;> exact planAnswer_tableAtNotice ..

theorem serveAsk_tableAtNotice (b : NoticeBody) (e : SendEntry) :
    serveAsk b e (tableAtNotice m first s) = tableAtNotice m first (serveAsk b e s) := by
  have queue : (tableAtNotice m first s).repair.queue = s.repair.queue := by simp
  unfold serveAsk
  dsimp only
  rw [queue]
  split
  · split
    · rw [queueResends_tableAtNotice, planAnswer_tableAtNotice]
    · rfl
  · rw [queueResends_tableAtNotice, planAnswer_tableAtNotice]

theorem answerAsk_tableAtNotice (b : NoticeBody) :
    answerAsk b (tableAtNotice m first s) = tableAtNotice m first (answerAsk b s) := by
  have epoch : (tableAtNotice m first s).table.epoch = s.table.epoch := by simp
  have send : (tableAtNotice m first s).send = s.send := by simp
  unfold answerAsk
  dsimp only
  rw [epoch, send]
  split
  · split
    · exact serveAsk_tableAtNotice ..
    · exact planAnswer_tableAtNotice ..
  · rfl

theorem judgeOther_tableAtNotice (n : Notice) :
    judgeOther n (tableAtNotice m first s) = tableAtNotice m first (judgeOther n s) := by
  have epoch : (tableAtNotice m first s).table.epoch = s.table.epoch := by simp
  have station : (tableAtNotice m first s).station = s.station := by simp [State.station]
  unfold judgeOther
  rw [epoch, station]
  split
  · split
    · rfl
    · split
      · exact answerAsk_tableAtNotice ..
      · rfl
  · split
    · exact planAnswer_tableAtNotice ..
    · split
      · exact judgeChange_tableAtNotice ..
      · split
        · rfl
        · exact planAnswer_tableAtNotice ..

theorem judgeOwn_tableAtNotice (b : NoticeBody) :
    judgeOwn b (tableAtNotice m first s) = tableAtNotice m first (judgeOwn b s) := by
  have station : (tableAtNotice m first s).station = s.station := by simp [State.station]
  unfold judgeOwn
  rw [station]
  split
  · rfl
  all_goals exact judgeChange_tableAtNotice ..

/-- The slot table's step leaves a station that has failed, and no other, in FAULTED. -/
theorem tableAtNotice_faulted : (tableAtNotice m first s).ctrl.mode = .faulted ↔ s.ctrl.mode = .faulted := by
  have test : ∀ (e : Epoch) (v : State), (testEpoch e v).ctrl.mode = .faulted ↔ v.ctrl.mode = .faulted := by
    intro e v
    rw [testEpoch_ctrl]
    dsimp only
    split
    · next h => simp [h.1]
    · rfl
  have ctrl := congrArg Controller.mode (foldl_hear_frame (m.notices first) s).2.2.2.2.2.2.2.1
  unfold tableAtNotice
  dsimp only
  split
  · rw [ctrl]
  · rw [test, ctrl]
  · split <;> rw [test, ctrl]

theorem tableAtNotice_completedFlight : (tableAtNotice m first s).completedFlight = s.completedFlight := by
  simp [State.completedFlight]

/-- The engine and the slot table take a merged result in either order alike (R35). -/
theorem engineAtNotice_tableAtNotice (wasJoined : Bool) :
    engineAtNotice wasJoined m (tableAtNotice m first s) = tableAtNotice m first (engineAtNotice wasJoined m s) := by
  have takes : ((tableAtNotice m first s).ctrl.mode != .faulted) = (s.ctrl.mode != .faulted) := by
    rw [Bool.eq_iff_iff, bne_iff_ne, bne_iff_ne, ne_eq, ne_eq, tableAtNotice_faulted]
  unfold engineAtNotice
  dsimp only
  rw [takes, tableAtNotice_completedFlight]
  cases s.completedFlight with
  | some f =>
    cases m with
    | valid n =>
      dsimp only
      split
      · rfl
      · split
        · exact judgeOwn_tableAtNotice ..
        · exact planAnswer_tableAtNotice ..
    | idle | erased =>
      dsimp only
      split
      · exact judgeOwn_tableAtNotice ..
      · rfl
    | divergent x y =>
      dsimp only
      split
      · exact planAnswer_tableAtNotice ..
      · rfl
  | none =>
    cases m with
    | valid n =>
      dsimp only
      split
      · exact judgeOther_tableAtNotice ..
      · rfl
    | idle | erased => rfl
    | divergent x y =>
      dsimp only
      split
      · exact planAnswer_tableAtNotice ..
      · rfl

end

/-! ### The three blocks in any order -/

/-- No notice of the merged result shows a duplicate of the station's number (R171). -/
def State.Unique (s : State) (m : MergedNotice) : Prop := (m.notices .a).any s.foreignOwn = false

theorem State.unique_congr {s t : State} {m : MergedNotice} (option : t.ctrl.option = s.ctrl.option)
    (flight : t.notices.flight = s.notices.flight) : t.Unique m ↔ s.Unique m := by
  have : t.foreignOwn = s.foreignOwn := by
    funext n
    simp [State.foreignOwn, State.station, State.completedFlight, option, flight]
  simp [State.Unique, this]

theorem controllerAtNotice_of_unique {m : MergedNotice} {s : State} (h : s.Unique m) : controllerAtNotice m s = s := by
  unfold controllerAtNotice
  rw [show (m.notices .a).any s.foreignOwn = false from h, Bool.and_false]
  rfl

/-- One block takes the merged result where no station number is a duplicate: the controller does nothing. -/
def uniqueStep (wasJoined : Bool) (m : MergedNotice) (first : LaneId) (s : State) (step : CloseStep) : State :=
  match step with
  | .slotTable => tableAtNotice m first s
  | .noticeEngine => engineAtNotice wasJoined m s
  | .controller => s

section
variable {wasJoined : Bool} {m : MergedNotice} {first : LaneId}

theorem noticeStep_of_unique {s : State} (h : s.Unique m) (step : CloseStep) :
    noticeStep wasJoined m first s step = uniqueStep wasJoined m first s step := by
  cases step with
  | slotTable | noticeEngine => rfl
  | controller => exact controllerAtNotice_of_unique h

theorem uniqueStep_unique {s : State} (h : s.Unique m) (step : CloseStep) : (uniqueStep wasJoined m first s step).Unique m := by
  cases step with
  | slotTable | noticeEngine => exact (State.unique_congr (by simp [uniqueStep]) (by simp [uniqueStep])).mpr h
  | controller => exact h

theorem foldl_noticeStep_of_unique {steps : List CloseStep} {s : State} (h : s.Unique m) :
    steps.foldl (noticeStep wasJoined m first) s = steps.foldl (uniqueStep wasJoined m first) s := by
  induction steps generalizing s with
  | nil => rfl
  | cons step steps ih => rw [List.foldl_cons, List.foldl_cons, noticeStep_of_unique h, ih (uniqueStep_unique h step)]

theorem uniqueStep_comm (x y : CloseStep) (s : State) :
    uniqueStep wasJoined m first (uniqueStep wasJoined m first s x) y
      = uniqueStep wasJoined m first (uniqueStep wasJoined m first s y) x :=
  match x, y with
  | .controller, _ | _, .controller | .slotTable, .slotTable | .noticeEngine, .noticeEngine => rfl
  | .slotTable, .noticeEngine => engineAtNotice_tableAtNotice m first s wasJoined
  | .noticeEngine, .slotTable => (engineAtNotice_tableAtNotice m first s wasJoined).symm

theorem CloseOrder.perm_of_admissible {order : CloseOrder} (h : order.admissible = true) : CloseStep.all.Perm order.steps := by
  unfold CloseOrder.admissible listsEachOnce at h
  simp only [Bool.and_eq_true, beq_iff_eq, List.all_eq_true, List.contains_iff_mem] at h
  obtain ⟨hlen, hmem⟩ := h
  have nodup : CloseStep.all.Nodup := by decide
  exact (List.subperm_of_subset nodup hmem).perm_of_length_le hlen.le

/-- In any admissible order the slot table has met the merged result and the engine has answered it. -/
theorem foldl_noticeStep {order : CloseOrder} (ho : order.admissible = true) {s : State} (h : s.Unique m) :
    order.steps.foldl (noticeStep wasJoined m first) s = engineAtNotice wasJoined m (tableAtNotice m first s) := by
  rw [foldl_noticeStep_of_unique h, ← (CloseOrder.perm_of_admissible ho).foldl_eq' (fun x _ y _ s => uniqueStep_comm x y s)]
  rfl

end

end Sys2Proof.Machine
end

section
/-! PROOF LAYER. The station after a notice window close (R31, R35, R64, R65, R85, R86, R93): what each part of it comes from. -/

namespace Sys2Proof.Machine

open Sys2Proof

/-! ### The flight at the close (R85) -/

/-- No notice of the station's own is out. -/
def State.Silent (s : State) : Prop := s.notices.flight = none ∧ ∀ q ∈ s.notices.queue, q.inFlight = false

theorem map_inFlight_eq_self {l : List Queued} (h : ∀ q ∈ l, q.inFlight = false) :
    l.map (fun q => { q with inFlight := false }) = l := by
  refine (List.map_congr_left fun q hq => ?_).trans (List.map_id l)
  rw [← h q hq]
  rfl

theorem State.inFlight_of_none {s : State} (h : ∀ q ∈ s.notices.queue, q.inFlight = false) : s.inFlight = none :=
  List.find?_eq_none.mpr fun q hq => by simp [h q hq]

theorem State.Silent.inFlight {s : State} (h : s.Silent) : s.inFlight = none := State.inFlight_of_none h.2

theorem State.Silent.completed {s : State} (h : s.Silent) : s.completed = false := by simp [State.completed, h.1]

theorem clearFlight_of_silent {s : State} (h : s.Silent) : clearFlight s = s := by
  unfold clearFlight
  rw [map_inFlight_eq_self h.2, ← h.1]

theorem endFlightLost_of_silent {s : State} (h : s.Silent) : endFlightLost s = s := by
  unfold endFlightLost
  rw [h.inFlight]
  exact clearFlight_of_silent h

/-- The station's flight at the close: completed, or over. -/
def State.settled (s : State) : State := if s.completed then recordSent s else endFlightLost s

theorem State.settled_of_completed {s : State} (h : s.completed = true) : s.settled = recordSent s := if_pos h

theorem State.settled_of_not_completed {s : State} (h : s.completed = false) : s.settled = endFlightLost s := if_neg (by simp [h])

theorem State.settled_of_silent {s : State} (h : s.Silent) : s.settled = s :=
  (State.settled_of_not_completed h.completed).trans (endFlightLost_of_silent h)

theorem settled_frame (s : State) :
    s.settled.lanes = s.lanes ∧ s.settled.table = s.table ∧ s.settled.ctrl = s.ctrl ∧ s.settled.recv = s.recv := by
  unfold State.settled
  split <;> simp

theorem State.completedFlight_of_not_completed {s : State} (h : s.completed = false) : s.completedFlight = none := by
  unfold State.completed at h
  unfold State.completedFlight
  cases hf : s.notices.flight with
  | none => rfl
  | some f => simpa [hf] using h

theorem State.completedFlight_of_completed {s : State} {f : Flight} (hf : s.notices.flight = some f)
    (sent : f.sent.a = true ∨ f.sent.b = true) : s.completedFlight = some f := by
  simpa [State.completedFlight, hf] using sent

theorem settled_completedFlight (s : State) : s.settled.completedFlight = s.completedFlight := by
  cases h : s.completed with
  | true => simp [State.settled_of_completed h, State.completedFlight]
  | false =>
    rw [State.settled_of_not_completed h, State.completedFlight_of_not_completed h]
    simp [State.completedFlight, (endFlightLost_over s).1]

/-! ### The close -/

/-- The state that the blocks meet at the close: the flight is settled, and the readings show the levels (R41, R85). -/
def State.atWindow (s : State) (a b : NoticeReading) : State := tellLevels a.levelShown b.levelShown s.settled

theorem atWindow_frame (s : State) (a b : NoticeReading) :
    (s.atWindow a b).table = s.table ∧ (s.atWindow a b).ctrl = s.ctrl ∧ (s.atWindow a b).recv = s.recv
      ∧ (s.atWindow a b).notices = s.settled.notices ∧ (s.atWindow a b).send = s.settled.send
      ∧ (s.atWindow a b).repair = s.settled.repair ∧ (s.atWindow a b).mgmt = s.settled.mgmt
      ∧ (s.atWindow a b).completedFlight = s.completedFlight := by
  obtain ⟨-, table, ctrl, recv⟩ := settled_frame s
  refine ⟨?_, ?_, ?_, ?_, ?_, ?_, ?_, ?_⟩
  all_goals unfold State.atWindow
  · simp [table]
  · simp [ctrl]
  · simp [recv]
  · simp
  · simp
  · simp
  · simp
  · refine Eq.trans ?_ (settled_completedFlight s)
    simp [State.completedFlight]

theorem atWindow_of_silent {s : State} (h : s.Silent) (a b : NoticeReading) :
    s.atWindow a b = tellLevels a.levelShown b.levelShown s := by
  unfold State.atWindow
  rw [State.settled_of_silent h]

theorem atWindow_unique {s : State} {m : MergedNotice} (h : s.Unique m) (a b : NoticeReading) : (s.atWindow a b).Unique m := by
  obtain ⟨-, ctrl, -, -, -, -, -, completed⟩ := atWindow_frame s a b
  have : (s.atWindow a b).foreignOwn = s.foreignOwn := by
    funext n
    simp only [State.foreignOwn, State.station, ctrl, completed]
  unfold State.Unique
  rw [this]
  exact h

/-- The answer field begins; station 0 with an accept to give drives it at once (R93). -/
def beginAnswers (s : State) : State :=
  applyIf (s.answerAt == some Config.noticeCloseAt) startAnswer (beginField Config.noticeCloseAt s)

theorem beginAnswers_frame (s : State) :
    (beginAnswers s).notices = s.notices ∧ (beginAnswers s).table = s.table ∧ (beginAnswers s).ctrl = s.ctrl
      ∧ (beginAnswers s).send = s.send ∧ (beginAnswers s).repair = s.repair ∧ (beginAnswers s).recv = s.recv
      ∧ (beginAnswers s).mgmt = s.mgmt ∧ (beginAnswers s).clock = s.clock ∧ (beginAnswers s).hold = s.hold
      ∧ (beginAnswers s).pending = s.pending := by
  unfold beginAnswers
  cases s.answerAt == some Config.noticeCloseAt <;> simp [applyIf]

/-- The answer position that begins with the answer field is driven on every transmit-usable lane (R21, R93). -/
theorem beginAnswers_drive (s : State) (l : LaneId) :
    ((beginAnswers s).lanes.get l).drive
      = if (s.answerAt == some Config.noticeCloseAt) && (s.lanes.get l).transmitUsable then .driving else .notDriving := by
  unfold beginAnswers
  cases s.answerAt == some Config.noticeCloseAt with
  | false => simp [applyIf, Lane.beginField]
  | true =>
    simp only [applyIf, if_true, startAnswer_lane_drive, beginField_lanes, PerLane.get_map, Lane.entered_beginField, Bool.true_and]
    rfl

/-- The close of the notice window, in any admissible order, where no station number is a duplicate. -/
theorem closeNotice_of_unique {a b : NoticeReading} {order : CloseOrder} {u : State} (ho : order.admissible = true)
    (h : u.Unique (u.mergedNotice a b)) :
    closeNotice a b order u = beginAnswers (engineAtNotice (u.ctrl.mode == .joined) (u.mergedNotice a b)
      (tableAtNotice (u.mergedNotice a b) order.first (u.atWindow a b))) := by
  have fold := foldl_noticeStep (wasJoined := (u.atWindow a b).ctrl.mode == .joined) (first := order.first) ho (atWindow_unique h a b)
  have ctrl := (atWindow_frame u a b).2.1
  rw [← ctrl, ← fold]
  rfl

theorem exec_noticeWindowClose_of_due {a b : NoticeReading} {order : CloseOrder} {s : State} (hs : s.holding = false)
    (ho : order.admissible = true) (hd : s.due 1 = true) :
    exec (.noticeWindowClose a b order) s = .next (closeNotice a b order (atEvent 1 s)) := by
  change checked order.admissible (running (fieldEvent 1 (closeNotice a b order)) s) = _
  rw [ho]
  exact running_fieldEvent_of_due _ hs hd

/-! ### The parts of the station after the close -/

theorem engineAtNotice_turn (wasJoined : Bool) (m : MergedNotice) (s : State) :
    (engineAtNotice wasJoined m s).repair.turn = s.repair.turn := by
  unfold engineAtNotice judgeOwn judgeOther answerAsk serveAsk judgeChange rollCall
  dsimp only
  (repeat' split) <;> simp

/-- The station t after the close: the notices and the re-send queue as the engine answers from state v, the table, the mode and the
events as the slot table's step leaves them. -/
structure State.WindowClosed (v t : State) (joined : Bool) (m : MergedNotice) (first : LaneId) : Prop where
  notices : t.notices = (engineAtNotice joined m v).notices
  resends : t.repair.queue = (engineAtNotice joined m v).repair.queue
  turn    : t.repair.turn = (tableAtNotice m first v).repair.turn
  table   : t.table = (tableAtNotice m first v).table
  ctrl    : t.ctrl = (tableAtNotice m first v).ctrl
  mgmt    : t.mgmt = (tableAtNotice m first v).mgmt
  send    : t.send = v.send

theorem closeNotice_closed {a b : NoticeReading} {order : CloseOrder} {u : State} (ho : order.admissible = true)
    (h : u.Unique (u.mergedNotice a b)) :
    (u.atWindow a b).WindowClosed (closeNotice a b order u) (u.ctrl.mode == .joined) (u.mergedNotice a b) order.first := by
  rw [closeNotice_of_unique ho h]
  generalize u.mergedNotice a b = m
  generalize u.atWindow a b = v
  obtain ⟨notices, table, ctrl, send, repair, -, mgmt, -⟩ :=
    beginAnswers_frame (engineAtNotice (u.ctrl.mode == .joined) m (tableAtNotice m order.first v))
  constructor
  · rw [notices, engineAtNotice_tableAtNotice]; simp
  · rw [repair, engineAtNotice_tableAtNotice]; simp
  · rw [repair, engineAtNotice_turn]
  · rw [table]; simp
  · rw [ctrl]; simp
  · rw [mgmt]; simp
  · rw [send]; simp

/-! ### The epoch rule at the close (R64, R65) -/

/-- The station numbers of the notices are heard (R65). -/
def hearAll (ns : List Notice) (s : State) : State := ns.foldl (fun s n => hear (leadInSender n.leadIn) s) s

theorem hearAll_eq (ns : List Notice) (s : State) :
    hearAll ns s = { s with table := { s.table with
      heard := ns.foldl (fun l n => l.set (leadInSender n.leadIn).toNat 0) s.table.heard } } := by
  induction ns generalizing s with
  | nil => rfl
  | cons n ns ih => exact ih (hear (leadInSender n.leadIn) s)

theorem hearAll_heard (ns : List Notice) (s : State) (k : Nat) :
    (hearAll ns s).table.heard[k]? = s.table.heard[k]?.map (fun age =>
      if ns.any (fun n => (leadInSender n.leadIn).toNat == k) then 0 else age) := by
  induction ns generalizing s with
  | nil => simp [hearAll]
  | cons n ns ih =>
    refine (ih (hear (leadInSender n.leadIn) s)).trans ?_
    rw [hear_table, List.getElem?_set]
    by_cases hk : (leadInSender n.leadIn).toNat = k
    · by_cases hl : k < s.table.heard.length <;> simp [hk, hl]
    · simp [hk]

/-- The epoch rule takes the notice: the station is JOINED and the notice's epoch is ahead (R64). -/
def State.Overtaken (s : State) (n : Notice) : Prop := s.ctrl.mode = .joined ∧ serialAhead s.table.epoch n.body.epoch = true

theorem testEpoch_of_overtaken {s : State} {n : Notice} (h : s.Overtaken n) :
    testEpoch n.body.epoch s = enterResync .epochAhead n.body.epoch s := by
  simp [testEpoch, h.1, h.2]

theorem testEpoch_of_not_overtaken {s : State} {n : Notice} (h : ¬ s.Overtaken n) : testEpoch n.body.epoch s = s := by
  have : (s.ctrl.mode == .joined && serialAhead s.table.epoch n.body.epoch) = false := by
    simpa [State.Overtaken] using h
  simp [testEpoch, this]

theorem hearAll_overtaken (ns : List Notice) (s : State) (n : Notice) : (hearAll ns s).Overtaken n ↔ s.Overtaken n := by
  rw [hearAll_eq]
  rfl

theorem State.Overtaken.of_ahead {s : State} {x y : Notice} (h : s.Overtaken x) (ahead : serialAhead s.table.epoch y.body.epoch = true) :
    s.Overtaken y := ⟨h.1, ahead⟩

/-- The epoch that is tested is the one of a notice read, and one that is ahead if any is (R64). -/
theorem tableAtNotice_tests {m : MergedNotice} {first : LaneId} {s : State} {x : Notice} (hx : x ∈ m.notices first) :
    ∃ n ∈ m.notices first, tableAtNotice m first s = testEpoch n.body.epoch (hearAll (m.notices first) s)
      ∧ (s.Overtaken x → s.Overtaken n) := by
  have pair : ∀ y z : Notice, m.notices first = [y, z] →
      ∃ n ∈ m.notices first, tableAtNotice m first s = testEpoch n.body.epoch (hearAll (m.notices first) s)
        ∧ (s.Overtaken x → s.Overtaken n) := by
    intro y z h
    have epoch : (hearAll [y, z] s).table.epoch = s.table.epoch := rfl
    have table : tableAtNotice m first s = if serialAhead s.table.epoch z.body.epoch
        && (!serialAhead s.table.epoch y.body.epoch || serialAhead y.body.epoch z.body.epoch)
        then testEpoch z.body.epoch (hearAll [y, z] s) else testEpoch y.body.epoch (hearAll [y, z] s) := by
      unfold tableAtNotice
      rw [h]
      rfl
    rw [h] at hx ⊢
    rw [table]
    split
    · next hz =>
      rw [Bool.and_eq_true] at hz
      exact ⟨z, by simp, rfl, fun hx => hx.of_ahead hz.1⟩
    · next hz =>
      refine ⟨y, by simp, rfl, fun taken => ?_⟩
      rcases List.mem_pair.mp hx with rfl | rfl
      · exact taken
      · exact taken.of_ahead (by by_contra hy; exact hz (by simp [taken.2, hy]))
  cases m with
  | valid n => exact ⟨n, by simp [MergedNotice.notices], rfl, fun h => by rwa [List.mem_singleton.mp hx] at h⟩
  | divergent y z =>
    cases first with
    | a => exact pair y z rfl
    | b => exact pair z y rfl
  | idle | erased => simp [MergedNotice.notices] at hx

/-- With no epoch ahead, or outside JOINED, the senders are heard and nothing else happens (R64, R65). -/
theorem tableAtNotice_of_not_overtaken {m : MergedNotice} {first : LaneId} {s : State} (h : ∀ n ∈ m.notices first, ¬ s.Overtaken n) :
    tableAtNotice m first s = hearAll (m.notices first) s := by
  cases hm : m.notices first with
  | nil =>
    unfold tableAtNotice
    rw [hm]
    rfl
  | cons x rest =>
    obtain ⟨n, hn, table, -⟩ := tableAtNotice_tests (s := s) (hm ▸ List.mem_cons_self : x ∈ m.notices first)
    rw [table, testEpoch_of_not_overtaken (mt (hearAll_overtaken _ s n).mp (h n hn)), hm]

/-- An epoch ahead puts the station into RESYNC, learning from an epoch that is ahead (R64). -/
theorem tableAtNotice_of_overtaken {m : MergedNotice} {first : LaneId} {s : State} {x : Notice} (hx : x ∈ m.notices first)
    (h : s.Overtaken x) : ∃ n ∈ m.notices first, s.Overtaken n
      ∧ tableAtNotice m first s = enterResync .epochAhead n.body.epoch (hearAll (m.notices first) s) := by
  obtain ⟨n, hn, table, taken⟩ := tableAtNotice_tests (s := s) hx
  exact ⟨n, hn, taken h, table.trans (testEpoch_of_overtaken ((hearAll_overtaken _ s n).mpr (taken h)))⟩

end Sys2Proof.Machine
end

section
/-! PROOF LAYER. What the notice engine answers to a notice of another station (R86 to R91, R126 to R129). -/

namespace Sys2Proof.Machine

open Sys2Proof

/-! ### The judgement -/

section
variable {s : State} {n : Notice}

/-- A CLAIM, RELEASE or RECLAIM is accepted: well formed, of the station's own epoch, its condition met (R86 to R90). -/
def State.accepts (s : State) (n : Notice) : Bool :=
  !n.malformed && n.body.epoch == s.table.epoch && acceptable (leadInSender n.leadIn) n.body s

/-- The change that the station holds as tentative once it accepts a notice (R88 to R90). -/
def Notice.change (n : Notice) : Tentative :=
  { kind := n.body.kind, run := n.body.run, owner := leadInSender n.leadIn, tag := n.body.tag }

theorem judgeOther_of_change (kind : n.body.kind ≠ .repairAsk) (notAhead : serialAhead s.table.epoch n.body.epoch = false) :
    judgeOther n s = planAnswer (some (if s.accepts n then .accept else .dissent))
      (if s.accepts n then some n.change else none) s := by
  have judged : judgeOther n s = if n.malformed then planAnswer (some .dissent) none s
      else if n.body.epoch == s.table.epoch then judgeChange (leadInSender n.leadIn) n.body s
      else if serialAhead s.table.epoch n.body.epoch then s else planAnswer (some .dissent) none s := by
    unfold judgeOther
    split
    · next ask => exact absurd ask kind
    · rfl
  rw [judged, notAhead]
  unfold State.accepts
  cases n.malformed with
  | true => rfl
  | false =>
    cases n.body.epoch == s.table.epoch with
    | false => rfl
    | true =>
      cases h : acceptable (leadInSender n.leadIn) n.body s <;> simp [judgeChange, h, Notice.change]

theorem judgeOther_of_ahead (kind : n.body.kind ≠ .repairAsk) (ahead : serialAhead s.table.epoch n.body.epoch = true) :
    judgeOther n s = if n.malformed then planAnswer (some .dissent) none s else s := by
  have epoch : (n.body.epoch == s.table.epoch) = false := by
    rw [beq_eq_false_iff_ne]
    intro same
    simp [serialAhead, same] at ahead
  unfold judgeOther
  split
  · next ask => exact absurd ask kind
  · rw [epoch, ahead]
    rfl

/-! ### The owner's answer to a REPAIR_ASK (R91, R126 to R129) -/

/-- The ask is well formed, for a stream of the station's, and not of an epoch behind (R86, R91). -/
def State.Asked (s : State) (n : Notice) : Prop :=
  leadInPriority n.leadIn = 6 ∧ 1 ≤ n.body.count.toNat ∧ n.body.count.toNat ≤ 16
    ∧ tagStation n.body.tag = s.ctrl.option.station
    ∧ (n.body.epoch = s.table.epoch ∨ serialAhead s.table.epoch n.body.epoch = true)

theorem Notice.malformed_ask (kind : n.body.kind = .repairAsk) :
    n.malformed = false ↔ leadInPriority n.leadIn = 6 ∧ 1 ≤ n.body.count.toNat ∧ n.body.count.toNat ≤ 16 := by
  simp [Notice.malformed, kind, NoticeKind.allows]
  omega

theorem judgeOther_of_not_asked (kind : n.body.kind = .repairAsk) (h : ¬ s.Asked n) : judgeOther n s = s := by
  unfold judgeOther
  rw [kind]
  dsimp only
  split
  · rfl
  · next formed =>
    obtain ⟨priority, atLeast, atMost⟩ := (Notice.malformed_ask kind).mp (Bool.eq_false_iff.mpr formed)
    split
    · next mine =>
      refine if_neg fun epoch => h ⟨priority, atLeast, atMost, beq_iff_eq.mp mine, ?_⟩
      simpa using epoch
    · rfl

theorem judgeOther_of_asked (kind : n.body.kind = .repairAsk) (h : s.Asked n) :
    judgeOther n s =
      if (s.send.get (portOfNumber n.body.tag.toNat)).keepsRing
      then serveAsk n.body (s.send.get (portOfNumber n.body.tag.toNat)) s else planAnswer (some .dissent) none s := by
  obtain ⟨priority, atLeast, atMost, mine, epoch⟩ := h
  have formed := (Notice.malformed_ask kind).mpr ⟨priority, atLeast, atMost⟩
  have taken : (n.body.epoch == s.table.epoch || serialAhead s.table.epoch n.body.epoch) = true := by simpa using epoch
  unfold judgeOther answerAsk
  rw [kind]
  simp [formed, State.station, mine, taken]

theorem SendEntry.keepsRing_iff (e : SendEntry) :
    e.keepsRing = true ↔ e.state = .live ∨ (e.state = .releasing ∧ e.releasePath = some .fromLive) := by
  simp [SendEntry.keepsRing]

/-- The sequences of an ask that a ring retains and that are not queued yet (R128, R129). -/
def State.freshSeqs (s : State) (b : NoticeBody) (e : SendEntry) : List Seq :=
  b.sequences.filter (fun q => e.holdsSeq q && !s.repair.queue.any (fun r => r.tag == b.tag && r.seq == q))

variable {b : NoticeBody} {e : SendEntry}

theorem serveAsk_all (all : b.sequences.all e.holdsSeq = true) (fits : (s.freshSeqs b e).length ≤ 64 - s.repair.queue.length) :
    serveAsk b e s = planAnswer (some .accept) none (queueResends b.tag (e.priority.getD 0) (s.freshSeqs b e) s) := by
  unfold serveAsk
  dsimp only
  rw [if_pos all]
  exact if_pos fits

theorem serveAsk_full (all : b.sequences.all e.holdsSeq = true) (full : 64 - s.repair.queue.length < (s.freshSeqs b e).length) :
    serveAsk b e s = s := by
  unfold serveAsk
  dsimp only
  rw [if_pos all]
  exact if_neg (Nat.not_le.mpr full)

theorem serveAsk_gone (gone : b.sequences.all e.holdsSeq = false) :
    serveAsk b e s = planAnswer (some .dissent) none
      (queueResends b.tag (e.priority.getD 0) ((s.freshSeqs b e).take (64 - s.repair.queue.length)) s) := by
  unfold serveAsk
  dsimp only
  rw [if_neg (by simp [gone])]
  rfl

end

/-! ### The window read by a station that sent nothing -/

theorem State.unique_of_foreign {u : State} {n : Notice} (h : leadInSender n.leadIn ≠ u.ctrl.option.station) : u.Unique (.valid n) := by
  simp [State.Unique, MergedNotice.notices, State.foreignOwn, State.station, h]

/-- A JOINED station with no notice of its own judges the notice of another station. -/
theorem engineAtNotice_judges {s : State} {n : Notice} (none : s.completedFlight = none) (mode : s.ctrl.mode = .joined) :
    engineAtNotice true (.valid n) s = judgeOther n s := by
  simp [engineAtNotice, none, mode]

theorem State.Silent.completedFlight {s : State} (h : s.Silent) : s.completedFlight = none :=
  State.completedFlight_of_not_completed h.completed

/-- The window of a silent JOINED station that reads a notice of another station. -/
theorem closeNotice_judged {a b : NoticeReading} {order : CloseOrder} {u : State} {n : Notice} (ho : order.admissible = true)
    (silent : u.Silent) (joined : u.ctrl.mode = .joined) (read : u.mergedNotice a b = .valid n)
    (foreign : leadInSender n.leadIn ≠ u.ctrl.option.station) :
    closeNotice a b order u = beginAnswers (tableAtNotice (.valid n) order.first
      (judgeOther n (tellLevels a.levelShown b.levelShown u))) := by
  have told : u.atWindow a b = tellLevels a.levelShown b.levelShown u := atWindow_of_silent silent a b
  have none : (tellLevels a.levelShown b.levelShown u).completedFlight = none := by
    rw [← told, (atWindow_frame u a b).2.2.2.2.2.2.2]
    exact silent.completedFlight
  rw [closeNotice_of_unique ho (read ▸ State.unique_of_foreign foreign), read, told, joined, engineAtNotice_tableAtNotice]
  exact congrArg (fun v => beginAnswers (tableAtNotice _ _ v)) (engineAtNotice_judges none (by simpa using joined))

theorem atEvent_silent {k : Nat} {s : State} (flight : s.notices.flight = none) (queue : ∀ q ∈ s.notices.queue, q.inFlight = false) :
    (atEvent k s).Silent := by
  unfold State.Silent
  rw [atEvent_notices_of_no_flight flight]
  exact ⟨flight, queue⟩

theorem Lane.tell_transmitUsable (shown : LevelShown) (x : Lane) : (x.tell shown).transmitUsable = x.transmitUsable := by
  obtain ⟨state, -, -, -, -, -, hold, -⟩ := x.tell_kept shown
  simp [Lane.transmitUsable, state, hold]

theorem tellLevels_transmitUsable (a b : LevelShown) (s : State) (l : LaneId) :
    ((tellLevels a b s).lanes.get l).transmitUsable = (s.lanes.get l).transmitUsable := by
  cases l
  · exact Lane.tell_transmitUsable a _
  · exact Lane.tell_transmitUsable b _

/-- The accept position of station 0 alone begins with the answer field (R93, R97). -/
theorem answerAt_noticeClose (s : State) :
    (s.answerAt == some Config.noticeCloseAt)
      = ((s.notices.plan == some .accept || s.notices.plan == some .rollCall) && s.station == 0) := by
  have zero : Config.tickUnits = 0 ∨ s.station.toNat = 0 ↔ s.station = 0#4 := by
    simp [Config.tickUnits, BitVec.toNat_eq]
  unfold State.answerAt
  rw [Bool.eq_iff_iff]
  cases s.notices.plan with
  | none => simp
  | some plan =>
    cases plan with
    | dissent => simp [Config.dissentAt, Config.noticeCloseAt]
    | accept | rollCall => simp [zero]

theorem tableAtNotice_valid_of_not_ahead {first : LaneId} {s : State} {n : Notice}
    (notAhead : serialAhead s.table.epoch n.body.epoch = false) : tableAtNotice (.valid n) first s = hear (leadInSender n.leadIn) s :=
  tableAtNotice_of_not_overtaken fun x hx taken => by
    rw [List.mem_singleton.mp hx] at taken
    exact Bool.noConfusion (notAhead.symm.trans taken.2)

theorem State.accepts_congr {s t : State} (option : t.ctrl.option = s.ctrl.option) (live : t.table.live = s.table.live)
    (epoch : t.table.epoch = s.table.epoch) (n : Notice) : t.accepts n = s.accepts n := by
  simp [State.accepts, acceptable, State.station, option, live, epoch]

/-- Settles O24: the close is the judgement, then the hearing of the sender, then the answer field; no epoch is ahead. -/
theorem noticeOfAnotherStationJudged : Obligations.NoticeOfAnotherStationJudged := by
  unfold Obligations.NoticeOfAnotherStationJudged
  intro a b order s hs ho hd joined flight queue u n read foreign kind notAhead sender run allowed accepts drives
  have accepted : (tellLevels a.levelShown b.levelShown u).accepts n = accepts :=
    State.accepts_congr (s := s) (by simp [u]) (by simp [u]) (by simp [u]) n
  clear_value accepts
  refine ⟨_, exec_noticeWindowClose_of_due hs ho hd, ?_⟩
  rw [closeNotice_judged ho (atEvent_silent flight queue) (by simpa using joined) read (by simpa using foreign),
    judgeOther_of_change kind (by simpa using notAhead), tableAtNotice_valid_of_not_ahead (by simpa using notAhead), accepted]
  obtain ⟨notices, table, ctrl, send, repair, recv, mgmt, clock, hold, pending⟩ := beginAnswers_frame (hear (leadInSender n.leadIn)
    (planAnswer (some (if accepts then .accept else .dissent)) (if accepts then some n.change else none)
      (tellLevels a.levelShown b.levelShown u)))
  refine ⟨?_, ?_, ?_, ?_, ?_, ?_, ?_, ?_, ?_, ?_, ?_⟩
  · rw [notices]; simp [u]; rfl
  · rw [table]; simp [u, sender]
  · intro l
    rw [beginAnswers_drive, answerAt_noticeClose]
    cases accepts <;> simp [drives, u, State.station, tellLevels_transmitUsable]
  · rw [clock]; simp
  · rw [ctrl]; simp [u]
  · rw [send]; simp [u]
  · rw [repair]; simp [u]
  · rw [recv]; simp [u]
  · rw [mgmt]; simp [u]
  · rw [hold]; simp [u]
  · rw [pending]; simp [u]

end Sys2Proof.Machine
end

section
/-! PROOF LAYER. A REPAIR_ASK of another station, served by the owner of the stream (R64, R91, R126 to R129). -/

namespace Sys2Proof.Machine

open Sys2Proof

section
variable {a b : NoticeReading} {order : CloseOrder} {s : State} {n : Notice}

/-- The station t after a window that read an ask: the notices, and the sequences that join the re-send queue; the sender is heard, and the
epoch rule taken (R64, R65). -/
def State.AskTaken (s : State) (n : Notice) (notices : NoticeEngine) (joining : List Seq) (t : State) : Prop :=
  t.notices = notices
  ∧ t.repair.queue = s.repair.queue ++ joining.map (fun q =>
      { tag := n.body.tag, seq := q, priority := (s.send.get (portOfNumber n.body.tag.toNat)).priority.getD 0 })
  ∧ t.table.heard = s.table.heard.set (leadInSender n.leadIn).toNat 0 ∧ t.table.live = s.table.live
  ∧ t.send = s.send ∧ t.recv = s.recv ∧ t.hold = s.hold ∧ t.pending = s.pending
  ∧ t.ctrl.mode = (if serialAhead s.table.epoch n.body.epoch then .resync else .joined)
  ∧ (serialAhead s.table.epoch n.body.epoch = false → t.ctrl = s.ctrl ∧ t.mgmt = s.mgmt ∧ t.table.learning = s.table.learning)

/-- The window of a silent JOINED station, from the state in which the ask is judged. -/
theorem exec_noticeWindowClose_asked (hs : s.holding = false) (ho : order.admissible = true) (hd : s.due 1 = true)
    (joined : s.ctrl.mode = .joined) (silent : (atEvent 1 s).Silent) (read : (atEvent 1 s).mergedNotice a b = .valid n)
    (foreign : leadInSender n.leadIn ≠ s.ctrl.option.station) {notices : NoticeEngine} {joining : List Seq} {j : State}
    (judged : judgeOther n (tellLevels a.levelShown b.levelShown (atEvent 1 s)) = j) (hn : j.notices = notices)
    (hq : j.repair.queue = s.repair.queue ++ joining.map (fun q =>
      { tag := n.body.tag, seq := q, priority := (s.send.get (portOfNumber n.body.tag.toNat)).priority.getD 0 })) :
    ∃ t, exec (.noticeWindowClose a b order) s = .next t ∧ s.AskTaken n notices joining t := by
  refine ⟨_, exec_noticeWindowClose_of_due hs ho hd, ?_⟩
  rw [closeNotice_judged ho silent (by simpa using joined) read (by simpa using foreign), judged]
  have table : j.table = s.table := by simp [← judged]
  have ctrl : j.ctrl = s.ctrl := by simp [← judged]
  obtain ⟨notices', table', ctrl', send', repair', recv', mgmt', -, hold', pending'⟩ :=
    beginAnswers_frame (tableAtNotice (.valid n) order.first j)
  refine ⟨?_, ?_, ?_, ?_, ?_, ?_, ?_, ?_, ?_, fun notAhead => ?_⟩
  · rw [notices']; simpa using hn
  · rw [repair']; simpa using hq
  · rw [table']; change (testEpoch _ (hear _ j)).table.heard = _; simp [table]
  · rw [table']; simp [table]
  · rw [send']; simp [← judged]
  · rw [recv']; simp [← judged]
  · rw [hold']; simp [← judged]
  · rw [pending']; simp [← judged]
  · rw [ctrl']; change (testEpoch _ (hear _ j)).ctrl.mode = _; simp [testEpoch_ctrl, ctrl, table, joined]
  · rw [ctrl', mgmt', table', tableAtNotice_valid_of_not_ahead (by rw [table]; exact notAhead)]
    simp [← judged]

end

/-- Settles O25: the close is the judgement of the ask against the ring of its stream, then the epoch rule and the answer field. -/
theorem repairAskServedByOwner : Obligations.RepairAskServedByOwner := by
  unfold Obligations.RepairAskServedByOwner
  intro a b order s hs ho hd joined flight queue u n read foreign kind tag e ahead mine rings retained named fresh free answers dissent
  have taken := @exec_noticeWindowClose_asked a b order s n hs ho hd joined (atEvent_silent flight queue) read foreign
  have asked : (tellLevels a.levelShown b.levelShown u).Asked n ↔ mine := by simp [State.Asked, mine, u, ahead, tag]
  have entry : (tellLevels a.levelShown b.levelShown u).send.get (portOfNumber n.body.tag.toNat) = e := by simp [u, e, tag]
  have seqs : (tellLevels a.levelShown b.levelShown u).freshSeqs n.body e = fresh := by
    simp [State.freshSeqs, u, fresh, named, retained, SendEntry.holdsSeq, NoticeBody.sequences, tag]
  have room : (tellLevels a.levelShown b.levelShown u).repair.queue.length = s.repair.queue.length := by simp [u]
  have served : mine → rings → judgeOther n (tellLevels a.levelShown b.levelShown u)
      = serveAsk n.body e (tellLevels a.levelShown b.levelShown u) := fun hm hr => by
    rw [judgeOther_of_asked kind (asked.mpr hm), entry, if_pos (e.keepsRing_iff.mpr hr)]
  refine ⟨fun hm => ?_, fun hm hr => ?_, fun hm hr all fits => ?_, fun hm hr all full => ?_, fun hm hr gone => ?_⟩
  · exact taken (judgeOther_of_not_asked kind (mt asked.mp hm)) (by simp [u]) (by simp)
  · have judged := judgeOther_of_asked kind (asked.mpr hm)
    rw [entry, if_neg (mt e.keepsRing_iff.mp hr)] at judged
    exact taken judged (by simp [u, dissent]) (by simp [u])
  · refine taken ((served hm hr).trans (serveAsk_all all ?_)) ?_ ?_
    · rw [seqs, room]; exact fits
    · simp [u]
    · simp [u, seqs, e, tag]
  · refine taken ((served hm hr).trans (serveAsk_full all ?_)) ?_ ?_
    · rw [seqs, room]; exact full
    · simp [u]
    · simp [u]
  · refine taken ((served hm hr).trans (serveAsk_gone gone)) ?_ ?_
    · simp [u, dissent]
    · simp [u, seqs, e, tag, free]

end Sys2Proof.Machine
end

section
/-! PROOF LAYER. What the notice engine answers at every other notice window (R86, R92, R97, R98), and a notice that was sent on no lane
(R81, R85). -/

namespace Sys2Proof.Machine

open Sys2Proof

/-! ### The engine, by the window and by the station's own notice -/

section
variable {v : State} {f : Flight}

theorem engineAtNotice_outside {m : MergedNotice} (h : m ≠ .idle ∨ v.completedFlight ≠ none) : engineAtNotice false m v = v := by
  unfold engineAtNotice
  cases completed : v.completedFlight with
  | some f => cases m <;> rfl
  | none =>
    cases m with
    | idle => exact absurd completed (h.resolve_left (fun ne => ne rfl))
    | valid | erased | divergent => rfl

theorem engineAtNotice_divergent (joined : v.ctrl.mode = .joined) (x y : Notice) :
    engineAtNotice true (.divergent x y) v = planAnswer (some .dissent) none v := by
  unfold engineAtNotice
  rw [joined]
  cases v.completedFlight <;> rfl

theorem engineAtNotice_erased (silent : v.completedFlight = none) (joined : Bool) : engineAtNotice joined .erased v = v := by
  simp [engineAtNotice, silent]

/-- A roll call is answered in JOINED and in RESYNC (R97). -/
theorem engineAtNotice_idle (silent : v.completedFlight = none) :
    (engineAtNotice (v.ctrl.mode == .joined) .idle v).notices = (if v.ctrl.mode = .joined ∨ v.ctrl.mode = .resync
        then { v.notices with rollCall := true, plan := some .rollCall, tentative := none } else { v.notices with rollCall := true })
      ∧ (engineAtNotice (v.ctrl.mode == .joined) .idle v).repair = v.repair := by
  unfold engineAtNotice rollCall
  rw [silent]
  cases mode : v.ctrl.mode <;> simp [mode]

/-- The sender takes its notice from what it sent, if the window reads that notice or none (R92). -/
theorem engineAtNotice_own {m : MergedNotice} (completed : v.completedFlight = some f) (joined : v.ctrl.mode = .joined)
    (read : m = .idle ∨ m = .erased ∨ m = .valid ⟨f.leadIn, f.body⟩) : engineAtNotice true m v = judgeOwn f.body v := by
  rcases read with rfl | rfl | rfl <;> simp [engineAtNotice, completed, joined]

theorem engineAtNotice_met (completed : v.completedFlight = some f) (joined : v.ctrl.mode = .joined) {n : Notice}
    (other : n ≠ ⟨f.leadIn, f.body⟩) : engineAtNotice true (.valid n) v = planAnswer (some .dissent) none v := by
  simp [engineAtNotice, completed, joined, other]

/-- The sender's judgement of its own notice in its live table (R92). -/
theorem judgeOwn_notices (b : NoticeBody) (s : State) :
    (judgeOwn b s).notices = if b.kind = .repairAsk then s.notices else
      { s.notices with
        plan := some (if acceptable s.station b s then .accept else .dissent)
        tentative := if acceptable s.station b s then some { kind := b.kind, run := b.run, owner := s.station, tag := b.tag } else none } := by
  have change : (judgeChange s.station b s).notices = { s.notices with
      plan := some (if acceptable s.station b s then .accept else .dissent)
      tentative := if acceptable s.station b s then some { kind := b.kind, run := b.run, owner := s.station, tag := b.tag } else none } := by
    unfold judgeChange
    split <;> rfl
  unfold judgeOwn
  split
  · next ask => rw [if_pos ask]
  all_goals
    next kind => rw [if_neg (by simp [kind]), change]

end

/-! ### Notices that show no duplicate of the station's number (R171) -/

/-- The notice is another station's, or the one that the station completed. -/
def State.Expects (s : State) (n : Notice) : Prop :=
  leadInSender n.leadIn ≠ s.ctrl.option.station ∨ ∃ f, s.completedFlight = some f ∧ n = ⟨f.leadIn, f.body⟩

section
variable {s : State}

theorem State.Expects.not_foreignOwn {n : Notice} (h : s.Expects n) : s.foreignOwn n = false := by
  unfold State.foreignOwn State.station
  rcases h with other | ⟨f, completed, rfl⟩
  · simp [other]
  · simp [completed]

theorem State.unique_of_expected {m : MergedNotice} (h : ∀ n ∈ m.notices .a, s.Expects n) : s.Unique m :=
  List.any_eq_false.mpr fun n hn => by simp [(h n hn).not_foreignOwn]

theorem State.unique_valid {n : Notice} (h : s.Expects n) : s.Unique (.valid n) :=
  State.unique_of_expected fun x hx => by rwa [List.mem_singleton.mp hx]

theorem State.unique_divergent {x y : Notice} (hx : s.Expects x) (hy : s.Expects y) : s.Unique (.divergent x y) :=
  State.unique_of_expected fun n hn => by
    rcases List.mem_pair.mp hn with rfl | rfl
    · exact hx
    · exact hy

end

/-! ### A window that leaves the table, the mode and the engines as they are -/

/-- The station t differs from s in what the notice engine answers, in what is heard, and in its clock and lanes alone. -/
def State.Stands (s t : State) : Prop :=
  t.table.live = s.table.live ∧ t.table.epoch = s.table.epoch ∧ t.table.learning = s.table.learning ∧ t.ctrl = s.ctrl
  ∧ t.send = s.send ∧ t.repair = s.repair ∧ t.recv = s.recv ∧ t.mgmt = s.mgmt ∧ t.hold = s.hold ∧ t.pending = s.pending

/-- The close, where no epoch is ahead and nothing joins the re-send queue: the senders are heard. -/
theorem closeNotice_stands {a b : NoticeReading} {order : CloseOrder} {u : State} (ho : order.admissible = true)
    (unique : u.Unique (u.mergedNotice a b)) (current : ∀ n ∈ (u.mergedNotice a b).notices order.first, ¬ u.Overtaken n)
    (resends : (engineAtNotice (u.ctrl.mode == .joined) (u.mergedNotice a b) (u.atWindow a b)).repair.queue = u.settled.repair.queue) :
    (closeNotice a b order u).table = (hearAll ((u.mergedNotice a b).notices order.first) u).table
      ∧ (closeNotice a b order u).ctrl = u.ctrl ∧ (closeNotice a b order u).repair = u.settled.repair
      ∧ (closeNotice a b order u).mgmt = u.settled.mgmt ∧ (closeNotice a b order u).send = u.settled.send := by
  obtain ⟨table, ctrl, -, -, send, repair, mgmt, -⟩ := atWindow_frame u a b
  have closed := closeNotice_closed ho unique
  have met : tableAtNotice (u.mergedNotice a b) order.first (u.atWindow a b)
      = hearAll ((u.mergedNotice a b).notices order.first) (u.atWindow a b) :=
    tableAtNotice_of_not_overtaken fun n hn => by
      unfold State.Overtaken
      rw [ctrl, table]
      exact current n hn
  refine ⟨?_, ?_, ?_, ?_, ?_⟩
  · rw [closed.table, met, hearAll_eq, hearAll_eq, table]
  · rw [closed.ctrl, met, hearAll_eq]; exact ctrl
  · have turn := closed.turn
    rw [met, hearAll_eq] at turn
    rw [← repair]
    exact Repair.mk.injEq .. ▸ ⟨(closed.resends.trans resends).trans (congrArg Repair.queue repair.symm), turn⟩
  · rw [closed.mgmt, met, hearAll_eq]; exact mgmt
  · rw [closed.send]; exact send

end Sys2Proof.Machine
end

section
/-! PROOF LAYER. A notice that was WON and sent on no lane (R81, R85): up to the close and at it, the station is as if none had been in
flight. -/

namespace Sys2Proof.Machine

open Sys2Proof

/-! ### Time passes alike without the flight -/

theorem applyIf_clearFlight (c : Bool) {f : State → State} (hf : ∀ s, f (clearFlight s) = clearFlight (f s)) (s : State) :
    applyIf c f (clearFlight s) = clearFlight (applyIf c f s) := by
  cases c
  · rfl
  · exact hf s

theorem endNoticeBody_clearFlight (s : State) : endNoticeBody (clearFlight s) = clearFlight (endNoticeBody s) := by
  unfold endNoticeBody
  split
  · next hf _ => exact absurd hf (by simp)
  · split <;> rfl

theorem startRepairLeadIn_clearFlight (s : State) : startRepairLeadIn (clearFlight s) = clearFlight (startRepairLeadIn s) := by
  unfold startRepairLeadIn contendOn
  dsimp only
  have queue : (beginField Config.repairLeadInAt (clearFlight s)).repair.queue = s.repair.queue := rfl
  have queue' : (beginField Config.repairLeadInAt s).repair.queue = s.repair.queue := rfl
  have mode : (beginField Config.repairLeadInAt (clearFlight s)).ctrl.mode = (beginField Config.repairLeadInAt s).ctrl.mode := rfl
  have lanes : (beginField Config.repairLeadInAt (clearFlight s)).lanes = (beginField Config.repairLeadInAt s).lanes := rfl
  rw [queue, queue', mode, lanes]
  (repeat' split) <;> rfl

theorem startSlotDrive_clearFlight (s : State) : startSlotDrive (clearFlight s) = clearFlight (startSlotDrive s) := by
  have drive : (clearFlight s).drive = s.drive := rfl
  have repair : (clearFlight s).repair = s.repair := rfl
  have ctrl : (clearFlight s).ctrl = s.ctrl := rfl
  have lanes : (clearFlight s).lanes = s.lanes := rfl
  unfold startSlotDrive
  rw [drive, repair, ctrl, lanes]
  (repeat' split) <;> rfl

theorem passMoments_clearFlight (crossed : Nat → Bool) (s : State) :
    passMoments crossed (clearFlight s) = clearFlight (passMoments crossed s) := by
  unfold passMoments
  dsimp only
  rw [applyIf_clearFlight _ endNoticeBody_clearFlight]
  generalize applyIf _ endNoticeBody s = v
  have position : ∀ v : State, (clearFlight v).answerAt = v.answerAt := fun _ => rfl
  have handed : ∀ v : State, (clearFlight v).drive = v.drive := fun _ => rfl
  rw [position, applyIf_clearFlight _ (f := startAnswer) (fun _ => rfl), position, applyIf_clearFlight _ (f := endAnswer) (fun _ => rfl),
    applyIf_clearFlight _ startRepairLeadIn_clearFlight, handed, applyIf_clearFlight _ startSlotDrive_clearFlight]

theorem reach_clearFlight (r : Nat) (s : State) : reach r (clearFlight s) = clearFlight (reach r s) := by
  have horizon : (clearFlight s).horizon = s.horizon := rfl
  have clock : (clearFlight s).clock = s.clock := rfl
  unfold reach
  dsimp only
  rw [passMoments_clearFlight, horizon, clock]
  split <;> rfl

theorem atEvent_clearFlight (k : Nat) (s : State) : atEvent k (clearFlight s) = clearFlight (atEvent k s) := by
  unfold atEvent
  rw [reach_clearFlight]
  rfl

/-! ### The close alike -/

theorem clearFlight_silent (s : State) : (clearFlight s).Silent := clearFlight_over s

theorem endFlightLost_of_standing {s : State} (stands : ∀ q, s.inFlight = some q → q.withdrawn = false) :
    endFlightLost s = clearFlight s := by
  unfold endFlightLost
  cases h : s.inFlight with
  | none => rfl
  | some q => simp [stands q h]

theorem endFlightLost_of_withdrawn {s : State} {q : Queued} (hq : s.inFlight = some q) (withdrawn : q.withdrawn = true) :
    endFlightLost s = withdrawnEnds q (outcomeRecord q s) (removeInFlight s) := by
  unfold endFlightLost
  rw [hq]
  exact if_pos withdrawn

theorem State.not_completed {s : State} {f : Flight} (hf : s.notices.flight = some f) (a : f.sent.a = false) (b : f.sent.b = false) :
    s.completed = false := by
  simp [State.completed, hf, a, b]

theorem closeNotice_clearFlight {a b : NoticeReading} {order : CloseOrder} {u : State} (unsent : u.completed = false)
    (stands : ∀ q, u.inFlight = some q → q.withdrawn = false) :
    closeNotice a b order (clearFlight u) = closeNotice a b order u := by
  have merged : (clearFlight u).mergedNotice a b = u.mergedNotice a b := rfl
  have settled : (clearFlight u).settled = u.settled := by
    rw [State.settled_of_silent (clearFlight_silent u), State.settled_of_not_completed unsent, endFlightLost_of_standing stands]
  unfold State.settled at settled
  unfold closeNotice
  dsimp only
  rw [merged, settled]

/-! ### A withdrawn notice leaves the queue (R81) -/

/-- No notice is in flight, and the queue is l. -/
def State.Rests (l : List Queued) (s : State) : Prop := s.Silent ∧ s.notices.queue = l

theorem State.Rests.of_notices {l : List Queued} {s t : State} (h : s.Rests l) (flight : t.notices.flight = s.notices.flight)
    (queue : t.notices.queue = s.notices.queue) : t.Rests l := by
  unfold State.Rests State.Silent at h ⊢
  rwa [flight, queue]

theorem enterFaulted_rests {l : List Queued} {s : State} (reason : FaultReason) (cause : ModeCause) (h : s.Rests l) :
    (enterFaulted reason cause s).Rests l := by
  have left : (endFlightOnLeaving (discardLearning s)).Rests l := by
    have silent : (discardLearning s).Silent := h.1
    unfold endFlightOnLeaving
    rw [silent.completed, endFlightLost_of_silent silent]
    exact h
  unfold enterFaulted
  exact left.of_notices (by simp) (by simp)

theorem noticeStep_rests {l : List Queued} {joined : Bool} {m : MergedNotice} {first : LaneId} {s : State} (h : s.Rests l)
    (step : CloseStep) : (noticeStep joined m first s step).Rests l := by
  cases step with
  | slotTable => exact h.of_notices (by simp [noticeStep]) (by simp [noticeStep])
  | noticeEngine => exact h.of_notices (by simp [noticeStep]) (by simp [noticeStep])
  | controller =>
    unfold noticeStep controllerAtNotice
    dsimp only
    split
    · exact enterFaulted_rests _ _ h
    · exact h

theorem foldl_noticeStep_rests {l : List Queued} {joined : Bool} {m : MergedNotice} {first : LaneId} {steps : List CloseStep} {s : State}
    (h : s.Rests l) : (steps.foldl (noticeStep joined m first) s).Rests l := by
  induction steps generalizing s with
  | nil => exact h
  | cons step steps ih => exact ih (noticeStep_rests h step)

theorem closeNotice_rests {l : List Queued} {u : State} (a b : NoticeReading) (order : CloseOrder) (h : u.settled.Rests l) :
    (closeNotice a b order u).Rests l := by
  have told : (u.atWindow a b).Rests l := h.of_notices (by simp [State.atWindow]) (by simp [State.atWindow])
  have fold := foldl_noticeStep_rests (joined := (u.atWindow a b).ctrl.mode == .joined) (m := u.mergedNotice a b) (first := order.first)
    (steps := order.steps) told
  have notices := (beginAnswers_frame (order.steps.foldl (noticeStep ((u.atWindow a b).ctrl.mode == .joined) (u.mergedNotice a b) order.first)
    (u.atWindow a b))).1
  exact fold.of_notices (congrArg NoticeEngine.flight notices) (congrArg NoticeEngine.queue notices)

theorem settled_rests {u : State} {q : Queued} (unsent : u.completed = false) (hq : u.inFlight = some q) (withdrawn : q.withdrawn = true) :
    u.settled.Rests (u.notices.queue.filter (fun x => !x.inFlight)) := by
  have ended := endFlightLost_over u
  rw [State.settled_of_not_completed unsent]
  refine ⟨ended, ?_⟩
  rw [endFlightLost_of_withdrawn hq withdrawn]
  simp

end Sys2Proof.Machine
end

section
/-! PROOF LAYER. Every other notice window (R64, R65, R81, R85, R92, R97, R98). -/

namespace Sys2Proof.Machine

open Sys2Proof

/-! ### The notices after the close -/

section
variable {a b : NoticeReading} {order : CloseOrder} {u : State} {f : Flight}

/-- The notices of the engine's answer are those after the close. -/
theorem closeNotice_notices (ho : order.admissible = true) (unique : u.Unique (u.mergedNotice a b)) {e : State}
    (answer : engineAtNotice (u.ctrl.mode == .joined) (u.mergedNotice a b) (u.atWindow a b) = e) :
    (closeNotice a b order u).notices = e.notices := by
  rw [(closeNotice_closed ho unique).notices, answer]

theorem State.completed_iff : u.completed = true ↔ ∃ f, u.notices.flight = some f ∧ (f.sent.a = true ∨ f.sent.b = true) := by
  unfold State.completed
  cases u.notices.flight <;> simp

/-- A notice that the station completed has been sent in the round, with the run it is queued with (R95, R102). -/
theorem recordSent_notices (completed : u.completed = true) :
    (recordSent u).notices = { u.notices with
      sentNotice := true
      queue := u.notices.queue.map (fun q =>
        if q.inFlight then { q with lastSent := some ⟨q.first.toNat, q.count.toNat⟩ } else q) } := by
  simp [recordSent, completed, Queued.run]

theorem atWindow_completedFlight (hf : u.notices.flight = some f) (sent : f.sent.a = true ∨ f.sent.b = true) :
    (u.atWindow a b).completedFlight = some f :=
  (atWindow_frame u a b).2.2.2.2.2.2.2.trans (State.completedFlight_of_completed hf sent)

theorem atWindow_completedFlight_of_silent (silent : u.Silent) : (u.atWindow a b).completedFlight = none :=
  (atWindow_frame u a b).2.2.2.2.2.2.2.trans silent.completedFlight

theorem atWindow_mode : (u.atWindow a b).ctrl.mode = u.ctrl.mode := congrArg Controller.mode (atWindow_frame u a b).2.1

theorem atWindow_notices_of_completed (completed : u.completed = true) : (u.atWindow a b).notices = (recordSent u).notices :=
  (atWindow_frame u a b).2.2.2.1.trans (by rw [State.settled_of_completed completed])

theorem atWindow_notices_of_silent (silent : u.Silent) : (u.atWindow a b).notices = u.notices :=
  (atWindow_frame u a b).2.2.2.1.trans (by rw [State.settled_of_silent silent])

/-- Outside JOINED the engine answers nothing but a roll call. -/
theorem engineAtNotice_of_not_joined {m : MergedNotice} (mode : u.ctrl.mode ≠ .joined)
    (h : m ≠ .idle ∨ (u.atWindow a b).completedFlight ≠ none) :
    engineAtNotice (u.ctrl.mode == .joined) m (u.atWindow a b) = u.atWindow a b := by
  rw [beq_eq_false_iff_ne.mpr mode]
  exact engineAtNotice_outside h

theorem atWindow_repair : (u.atWindow a b).repair = u.settled.repair := (atWindow_frame u a b).2.2.2.2.2.1

end

/-! ### What the slot table's step leaves (R64, R65) -/

theorem MergedNotice.any_notices (m : MergedNotice) (first : LaneId) (p : Notice → Bool) :
    (m.notices first).any p = (m.notices .a).any p := by
  cases m with
  | divergent x y =>
    cases first with
    | a => rfl
    | b => simp [MergedNotice.notices, Bool.or_comm]
  | valid | idle | erased => rfl

theorem tableAtNotice_heard (m : MergedNotice) (first : LaneId) (s : State) (k : Nat) :
    (tableAtNotice m first s).table.heard[k]? = s.table.heard[k]?.map (fun age =>
      if (m.notices .a).any (fun n => (leadInSender n.leadIn).toNat == k) then 0 else age) := by
  have heard := hearAll_heard (m.notices first) s k
  rw [m.any_notices first] at heard
  rw [← heard]
  by_cases taken : ∃ n ∈ m.notices first, s.Overtaken n
  · obtain ⟨x, hx, hover⟩ := taken
    obtain ⟨n, -, -, table⟩ := tableAtNotice_of_overtaken hx hover
    rw [table]
    simp
  · rw [tableAtNotice_of_not_overtaken fun n hn hover => taken ⟨n, hn, hover⟩]

theorem tableAtNotice_resync {m : MergedNotice} {first : LaneId} {s : State} {n : Notice} (hn : n ∈ m.notices first)
    (taken : s.Overtaken n) : (tableAtNotice m first s).ctrl.mode = .resync := by
  obtain ⟨x, -, -, table⟩ := tableAtNotice_of_overtaken hn taken
  rw [table, enterResync_ctrl]

/-! ### Windows that leave the station as it is -/

section
variable {a b : NoticeReading} {order : CloseOrder} {u : State}

/-- The flight is settled without an effect on the engines: nothing was out, or a completed notice is. -/
theorem settled_engines (h : u.Silent ∨ u.completed = true) :
    u.settled.send = u.send ∧ u.settled.repair = u.repair ∧ u.settled.mgmt = u.mgmt := by
  rcases h with silent | completed
  · simp [State.settled_of_silent silent]
  · simp [State.settled_of_completed completed]

/-- The close where no epoch is ahead and the engine leaves the repair service: the senders are heard, and all else stands. -/
theorem closeNotice_standing (ho : order.admissible = true) (unique : u.Unique (u.mergedNotice a b))
    (current : ∀ n ∈ (u.mergedNotice a b).notices order.first, ¬ u.Overtaken n) (own : u.Silent ∨ u.completed = true)
    (answer : (engineAtNotice (u.ctrl.mode == .joined) (u.mergedNotice a b) (u.atWindow a b)).repair = (u.atWindow a b).repair) :
    u.Stands (closeNotice a b order u)
      ∧ (closeNotice a b order u).table = (hearAll ((u.mergedNotice a b).notices order.first) u).table := by
  obtain ⟨send, repair, mgmt⟩ := settled_engines own
  obtain ⟨table, ctrl', repair', mgmt', send'⟩ := closeNotice_stands ho unique current
    (congrArg Repair.queue (answer.trans atWindow_repair))
  have learning : (closeNotice a b order u).table.learning = u.table.learning := by rw [table, hearAll_eq]
  exact ⟨⟨by simp, by simp, learning, ctrl', send'.trans send, repair'.trans repair, by simp, mgmt'.trans mgmt, by simp, by simp⟩, table⟩

end

end Sys2Proof.Machine
end

section
/-! PROOF LAYER. Every other notice window (R64, R65, R81, R85, R92, R97, R98), settled. -/

namespace Sys2Proof.Machine

open Sys2Proof

section
variable {a b : NoticeReading} {order : CloseOrder} {u : State} {f : Flight}

theorem State.Expects.of_foreign {n : Notice} (h : leadInSender n.leadIn ≠ u.ctrl.option.station) : u.Expects n := Or.inl h

theorem State.Expects.of_fits {n : Notice} (hf : u.notices.flight = some f) (sent : f.sent.a = true ∨ f.sent.b = true)
    (h : leadInSender n.leadIn ≠ u.ctrl.option.station ∨ n = ⟨f.leadIn, f.body⟩) : u.Expects n :=
  h.imp_right fun own => ⟨f, State.completedFlight_of_completed hf sent, own⟩

theorem State.unique_empty {m : MergedNotice} (h : m.notices .a = []) : u.Unique m := by
  simp [State.Unique, h]

/-! ### A roll call (R97) -/

theorem closeNotice_rollCall (ho : order.admissible = true) (silent : u.Silent) (read : u.mergedNotice a b = .idle) :
    (closeNotice a b order u).notices = (if u.ctrl.mode = .joined ∨ u.ctrl.mode = .resync
        then { u.notices with rollCall := true, plan := some .rollCall, tentative := none } else { u.notices with rollCall := true })
      ∧ u.Stands (closeNotice a b order u) ∧ (closeNotice a b order u).table = u.table := by
  have unique : u.Unique (u.mergedNotice a b) := State.unique_empty (by rw [read]; rfl)
  obtain ⟨notices, repair⟩ := engineAtNotice_idle (atWindow_completedFlight_of_silent (a := a) (b := b) silent)
  rw [atWindow_mode, atWindow_notices_of_silent silent, ← read] at notices
  rw [atWindow_mode, ← read] at repair
  obtain ⟨stands, table⟩ := closeNotice_standing ho unique (by simp [read, MergedNotice.notices]) (.inl silent) repair
  rw [read] at table
  exact ⟨(closeNotice_notices ho unique rfl).trans notices, stands, table⟩

/-! ### A notice of another station with an epoch ahead (R64, R66, R87) -/

theorem closeNotice_ahead {n : Notice} (ho : order.admissible = true) (silent : u.Silent) (joined : u.ctrl.mode = .joined)
    (read : u.mergedNotice a b = .valid n) (foreign : leadInSender n.leadIn ≠ u.ctrl.option.station) (kind : n.body.kind ≠ .repairAsk)
    (ahead : serialAhead u.table.epoch n.body.epoch = true) :
    (closeNotice a b order u).notices
        = (if n.malformed then { u.notices with plan := some .dissent, tentative := none } else u.notices)
      ∧ (closeNotice a b order u).ctrl.mode = .resync
      ∧ ∃ L, (closeNotice a b order u).table.learning = some L ∧ L.epoch = some n.body.epoch ∧ L.rounds = 0 := by
  have judged : judgeOther n (tellLevels a.levelShown b.levelShown u) = if n.malformed
      then planAnswer (some .dissent) none (tellLevels a.levelShown b.levelShown u) else tellLevels a.levelShown b.levelShown u :=
    judgeOther_of_ahead kind (by simpa using ahead)
  rw [closeNotice_judged ho silent joined read foreign]
  have epoch : (judgeOther n (tellLevels a.levelShown b.levelShown u)).table.epoch = u.table.epoch := by simp
  have mode : (judgeOther n (tellLevels a.levelShown b.levelShown u)).ctrl.mode = .joined := by simpa using joined
  obtain ⟨notices, table, ctrl, -⟩ := beginAnswers_frame (tableAtNotice (.valid n) order.first
    (judgeOther n (tellLevels a.levelShown b.levelShown u)))
  obtain ⟨x, hx, -, met⟩ := tableAtNotice_of_overtaken (m := .valid n) (first := order.first) List.mem_cons_self
    (⟨mode, epoch ▸ ahead⟩ : (judgeOther n (tellLevels a.levelShown b.levelShown u)).Overtaken n)
  rw [List.mem_singleton.mp hx] at met
  refine ⟨?_, ?_, ?_⟩
  · rw [notices, judged]
    split <;> simp
  · rw [ctrl, met, enterResync_ctrl]
  · rw [table, met]
    exact enterResync_learns _ _ _

/-! ### The station's own completed notice (R92) -/

/-- The notices once the station's notice has been sent (R95, R102). -/
def State.sentNotices (u : State) : NoticeEngine :=
  { u.notices with
    sentNotice := true
    queue := u.notices.queue.map (fun q =>
      if q.inFlight then { q with lastSent := some ⟨q.first.toNat, q.count.toNat⟩ } else q) }

theorem atWindow_sentNotices (completed : u.completed = true) : (u.atWindow a b).notices = u.sentNotices :=
  (atWindow_notices_of_completed completed).trans (recordSent_notices completed)

theorem closeNotice_own (ho : order.admissible = true) (hf : u.notices.flight = some f) (sent : f.sent.a = true ∨ f.sent.b = true)
    (joined : u.ctrl.mode = .joined)
    (read : u.mergedNotice a b = .idle ∨ u.mergedNotice a b = .erased ∨ u.mergedNotice a b = .valid ⟨f.leadIn, f.body⟩) :
    (closeNotice a b order u).notices = if f.body.kind = .repairAsk then u.sentNotices else
      { u.sentNotices with
        plan := some (if acceptable u.station f.body u then .accept else .dissent)
        tentative := if acceptable u.station f.body u
          then some { kind := f.body.kind, run := f.body.run, owner := u.station, tag := f.body.tag } else none } := by
  have unique : u.Unique (u.mergedNotice a b) := by
    rcases read with read | read | read
    · exact State.unique_empty (by rw [read]; rfl)
    · exact State.unique_empty (by rw [read]; rfl)
    · rw [read]
      exact State.unique_valid (.of_fits hf sent (.inr rfl))
  have answer : engineAtNotice (u.ctrl.mode == .joined) (u.mergedNotice a b) (u.atWindow a b) = judgeOwn f.body (u.atWindow a b) := by
    rw [joined]
    exact engineAtNotice_own (atWindow_completedFlight hf sent) (atWindow_mode.trans joined) read
  obtain ⟨table, ctrl, -⟩ := atWindow_frame u a b
  have station : (u.atWindow a b).station = u.station := by simp only [State.station, ctrl]
  have same : acceptable u.station f.body (u.atWindow a b) = acceptable u.station f.body u := by
    simp only [acceptable, State.station, table, ctrl]
  rw [closeNotice_notices ho unique answer, judgeOwn_notices, atWindow_sentNotices (State.completed_iff.mpr ⟨f, hf, sent⟩), station, same]

theorem closeNotice_met {n : Notice} (ho : order.admissible = true) (hf : u.notices.flight = some f)
    (sent : f.sent.a = true ∨ f.sent.b = true) (joined : u.ctrl.mode = .joined) (read : u.mergedNotice a b = .valid n)
    (other : n ≠ ⟨f.leadIn, f.body⟩) (foreign : leadInSender n.leadIn ≠ u.ctrl.option.station) :
    (closeNotice a b order u).notices = { u.sentNotices with plan := some .dissent, tentative := none } := by
  have answer : engineAtNotice (u.ctrl.mode == .joined) (u.mergedNotice a b) (u.atWindow a b)
      = planAnswer (some .dissent) none (u.atWindow a b) := by
    rw [joined, read]
    exact engineAtNotice_met (atWindow_completedFlight hf sent) (atWindow_mode.trans joined) other
  rw [closeNotice_notices ho (read ▸ State.unique_valid (.of_foreign foreign)) answer, planAnswer_notices,
    atWindow_sentNotices (State.completed_iff.mpr ⟨f, hf, sent⟩)]

/-! ### A DIVERGENT window (R98) -/

theorem closeNotice_divergent {x y : Notice} (ho : order.admissible = true) (joined : u.ctrl.mode = .joined)
    (read : u.mergedNotice a b = .divergent x y) (hx : u.Expects x) (hy : u.Expects y) :
    (closeNotice a b order u).notices = { (u.atWindow a b).notices with plan := some .dissent, tentative := none } := by
  have answer : engineAtNotice (u.ctrl.mode == .joined) (u.mergedNotice a b) (u.atWindow a b)
      = planAnswer (some .dissent) none (u.atWindow a b) := by
    rw [joined, read]
    exact engineAtNotice_divergent (atWindow_mode.trans joined) x y
  exact closeNotice_notices ho (read ▸ State.unique_divergent hx hy) answer

/-- What is heard at the close, in any mode (R65). -/
theorem closeNotice_heard (ho : order.admissible = true) (unique : u.Unique (u.mergedNotice a b)) (k : Nat) :
    (closeNotice a b order u).table.heard[k]? = u.table.heard[k]?.map (fun age =>
      if ((u.mergedNotice a b).notices .a).any (fun n => (leadInSender n.leadIn).toNat == k) then 0 else age) := by
  rw [(closeNotice_closed ho unique).table, tableAtNotice_heard, (atWindow_frame u a b).1]

/-- The mode after a DIVERGENT window of a JOINED station: RESYNC if an epoch is ahead (R64). -/
theorem closeNotice_divergent_mode {x y : Notice} (ho : order.admissible = true) (joined : u.ctrl.mode = .joined)
    (read : u.mergedNotice a b = .divergent x y) (unique : u.Unique (u.mergedNotice a b)) :
    (closeNotice a b order u).ctrl.mode = if serialAhead u.table.epoch x.body.epoch || serialAhead u.table.epoch y.body.epoch
      then .resync else .joined := by
  have mem : ∀ n, n ∈ (MergedNotice.divergent x y).notices order.first ↔ n = x ∨ n = y := fun n => by
    cases order.first <;> simp [MergedNotice.notices, or_comm]
  have taken : ∀ n, (u.atWindow a b).Overtaken n ↔ serialAhead u.table.epoch n.body.epoch = true := fun n => by
    simp [State.Overtaken, atWindow_mode, joined, (atWindow_frame u a b).1]
  rw [(closeNotice_closed ho unique).ctrl, read]
  split
  · next ahead =>
    rcases Bool.or_eq_true .. ▸ ahead with hx | hy
    · exact tableAtNotice_resync ((mem x).mpr (.inl rfl)) ((taken x).mpr hx)
    · exact tableAtNotice_resync ((mem y).mpr (.inr rfl)) ((taken y).mpr hy)
  · next current =>
    rw [tableAtNotice_of_not_overtaken fun n hn => ?_, hearAll_eq]
    · exact (atWindow_mode (a := a) (b := b)).trans joined
    · rw [taken]
      rcases (mem n).mp hn with rfl | rfl <;> intro h <;> simp [h] at current

/-! ### Outside JOINED, and an ERASED window (R65, R86, R98) -/

/-- Outside JOINED, a window that is no roll call leaves the station's answer as it is. -/
theorem closeNotice_outside (ho : order.admissible = true) (mode : u.ctrl.mode ≠ .joined) (own : u.Silent ∨ u.completed = true)
    (unique : u.Unique (u.mergedNotice a b)) (h : u.mergedNotice a b ≠ .idle ∨ u.completed = true) :
    (closeNotice a b order u).notices = (u.atWindow a b).notices ∧ u.Stands (closeNotice a b order u) := by
  have quiet : u.mergedNotice a b ≠ .idle ∨ (u.atWindow a b).completedFlight ≠ none := by
    refine h.imp_right fun completed => ?_
    obtain ⟨f, hf, sent⟩ := State.completed_iff.mp completed
    simp [atWindow_completedFlight hf sent]
  have answer := engineAtNotice_of_not_joined (a := a) (b := b) mode quiet
  refine ⟨closeNotice_notices ho unique answer, (closeNotice_standing ho unique (fun n _ taken => mode taken.1) own ?_).1⟩
  rw [answer]

theorem closeNotice_erased (ho : order.admissible = true) (silent : u.Silent) (read : u.mergedNotice a b = .erased) :
    (closeNotice a b order u).notices = u.notices ∧ u.Stands (closeNotice a b order u)
      ∧ (closeNotice a b order u).table = u.table := by
  have unique : u.Unique (u.mergedNotice a b) := State.unique_empty (by rw [read]; rfl)
  have answer : engineAtNotice (u.ctrl.mode == .joined) (u.mergedNotice a b) (u.atWindow a b) = u.atWindow a b := by
    rw [read]
    exact engineAtNotice_erased (atWindow_completedFlight_of_silent silent) _
  obtain ⟨stands, table⟩ := closeNotice_standing ho unique (by simp [read, MergedNotice.notices]) (.inl silent) (by rw [answer])
  rw [read] at table
  exact ⟨(closeNotice_notices ho unique answer).trans (atWindow_notices_of_silent silent), stands, table⟩

end

theorem State.Stands.of_atEvent {k : Nat} {s t : State} (h : (atEvent k s).Stands t) : s.Stands t := by
  simpa [State.Stands] using h

/-- Settles O26: each window as the engine's answer to it, and as what the slot table's step leaves. -/
theorem otherNoticeWindowsAnswered : Obligations.OtherNoticeWindowsAnswered := by
  unfold Obligations.OtherNoticeWindowsAnswered
  intro a b order s hs ho hd u m silent foreign ahead next dissent stands hears
  have mode : u.ctrl.mode = s.ctrl.mode := by simp [u]
  have option : u.ctrl.option = s.ctrl.option := by simp [u]
  have epoch : u.table.epoch = s.table.epoch := by simp [u]
  have closes : ∀ {P : State → Prop}, P (closeNotice a b order u) → next P := fun h => ⟨_, exec_noticeWindowClose_of_due hs ho hd, h⟩
  have known : ∀ n, foreign n → u.Expects n := fun n h => .of_foreign (by rwa [option])
  refine ⟨fun idle silent => ?_, ?_, ?_, ?_, ?_, ?_, ?_, ?_⟩
  · obtain ⟨notices, stands, table⟩ := closeNotice_rollCall ho silent idle
    obtain ⟨-, -, -, ctrl, send, repair, recv, mgmt, hold, pending⟩ := stands.of_atEvent
    exact closes ⟨mode ▸ notices, by simp, table.trans (by simp [u]), ctrl, send, repair, recv, mgmt, hold, pending⟩
  · intro n read silent foreign joined kind ahead
    obtain ⟨notices, resync, learns⟩ := closeNotice_ahead ho silent (mode.trans joined) read (by rwa [option]) kind (by rwa [epoch])
    exact closes ⟨notices, resync, by simp [u], by simp [u], learns⟩
  · intro f hf sent run station sentNotices allowed fits
    have completed : u.completed = true := State.completed_iff.mpr ⟨f, hf, sent⟩
    have expects : ∀ n, fits n → u.Expects n := fun n h => .of_fits hf sent (by rwa [option])
    have judged : acceptable u.station f.body u = allowed := by
      have same : acceptable u.station f.body u = acceptable s.station f.body s := by simp [acceptable, State.station, u]
      exact same
    have number : u.station = station := congrArg OptionWord.station option
    refine ⟨fun joined read => closes ?_, fun joined n read other foreign => closes ?_,
      fun joined x y read hx hy => closes ?_, fun outside read => closes ?_⟩
    · have notices := closeNotice_own ho hf sent (mode.trans joined) read
      rwa [judged, number] at notices
    · exact closeNotice_met ho hf sent (mode.trans joined) read other (by rwa [option])
    · have notices := closeNotice_divergent ho (mode.trans joined) read (expects x hx) (expects y hy)
      rwa [atWindow_sentNotices completed] at notices
    · have unique : u.Unique m := by
        rcases read with read | read | ⟨n, read, hn⟩ | ⟨x, y, read, hx, hy⟩
        · exact State.unique_empty (by rw [read]; rfl)
        · exact State.unique_empty (by rw [read]; rfl)
        · exact read ▸ State.unique_valid (expects n hn)
        · exact read ▸ State.unique_divergent (expects x hx) (expects y hy)
      obtain ⟨notices, stands⟩ := closeNotice_outside ho (mode ▸ outside) (.inr completed) unique (.inr completed)
      exact ⟨notices.trans (atWindow_sentNotices completed), stands.of_atEvent⟩
  · intro x y read own hx hy joined
    have expects : ∀ n, foreign n ∨ own n → u.Expects n := fun n h => by
      rcases h with h | ⟨f, hf, sent, rfl⟩
      · exact known n h
      · exact .of_fits hf sent (.inr rfl)
    have unique : u.Unique m := read ▸ State.unique_divergent (expects x hx) (expects y hy)
    have notices := closeNotice_divergent ho (mode.trans joined) read (expects x hx) (expects y hy)
    have resync := closeNotice_divergent_mode ho (mode.trans joined) read unique
    rw [epoch] at resync
    refine closes ⟨congrArg NoticeEngine.plan notices, congrArg NoticeEngine.tentative notices, resync, fun k => ?_⟩
    rw [closeNotice_heard ho unique, show u.mergedNotice a b = .divergent x y from read]
    simp [u, MergedNotice.notices]
  · intro read silent
    obtain ⟨notices, stands, table⟩ := closeNotice_erased ho silent read
    exact closes ⟨notices, stands.of_atEvent, table.trans (by simp [u]), by simp⟩
  · intro n read silent foreign outside
    have unique : u.Unique m := read ▸ State.unique_valid (known n foreign)
    obtain ⟨notices, stands⟩ := closeNotice_outside ho (mode ▸ outside) (.inl silent) unique
      (.inl (by rw [show u.mergedNotice a b = .valid n from read]; simp))
    refine closes ⟨notices.trans (atWindow_notices_of_silent silent), stands.of_atEvent, fun k => ?_, by simp⟩
    rw [closeNotice_heard ho unique, show u.mergedNotice a b = .valid n from read]
    simp [u, MergedNotice.notices]
  · intro x y read silent hx hy outside
    have unique : u.Unique m := read ▸ State.unique_divergent (known x hx) (known y hy)
    obtain ⟨notices, stands⟩ := closeNotice_outside ho (mode ▸ outside) (.inl silent) unique
      (.inl (by rw [show u.mergedNotice a b = .divergent x y from read]; simp))
    refine closes ⟨notices.trans (atWindow_notices_of_silent silent), stands.of_atEvent, fun k => ?_, by simp⟩
    rw [closeNotice_heard ho unique, show u.mergedNotice a b = .divergent x y from read]
    simp [u, MergedNotice.notices]
  · intro f hf sentA sentB clear
    have unsent : u.completed = false := State.not_completed hf sentA sentB
    refine ⟨fun stands => ?_, fun q hq withdrawn => closes ?_⟩
    · have same : exec (.noticeWindowClose a b order) clear = .next (closeNotice a b order (atEvent 1 (clearFlight s))) :=
        exec_noticeWindowClose_of_due (s := clearFlight s) hs ho hd
      rw [exec_noticeWindowClose_of_due hs ho hd, same, atEvent_clearFlight, closeNotice_clearFlight unsent stands]
    · obtain ⟨⟨flight, -⟩, queue⟩ := closeNotice_rests a b order (settled_rests unsent hq withdrawn)
      exact ⟨flight, queue⟩

end Sys2Proof.Machine
end

section
/-! PROOF LAYER. The station's own CLAIM at a read answer field (R99, R100, R110, R121). -/

namespace Sys2Proof.Machine

open Sys2Proof

/-! ### The outcome of a CLAIM at the sender -/

section
variable {s : State} {q : Queued} {p : Port}

/-- An entry whose CLAIM has committed: LIVE with an empty ring, the run kept as claim run until the next round start (R110). -/
def SendEntry.claimedLive (q : Queued) (e : SendEntry) : SendEntry :=
  { e with state := .live, requested := none, claimRun := some ⟨q.first.toNat, q.count.toNat⟩, slotRun := none, ring := [] }

theorem senderCommitted_of_claim (kind : q.kind = .claim) (origin : q.origin = .send p) (state : (s.send.get p).state = .claiming) :
    senderCommitted q s = giveEvent (.streamLive p (outcomeRecord q s)) ((removeInFlight s).mapSend p (SendEntry.claimedLive q)) := by
  simp [senderCommitted, claimCommitted, kind, origin, state, Queued.run, State.mapSend, SendEntry.claimedLive]

theorem senderDissented_of_claim_again (kind : q.kind = .claim) (attempt : q.attempt < 3) : senderDissented q s = rejoin q s := by
  simp [senderDissented, kind, attempt]

theorem claimRefused_claiming {reason : RefuseReason} {o : OutcomeRecord} (state : (s.send.get p).state = .claiming) :
    claimRefused p reason o s = giveEvent (.streamRefused p reason o) (closeSend p s) := by
  simp only [claimRefused, state]

theorem claimRefused_releasing {reason : RefuseReason} {o : OutcomeRecord} (state : (s.send.get p).state = .releasing) :
    claimRefused p reason o s = giveEvent (.streamClosed p (some o)) (closeSend p s) := by
  simp only [claimRefused, state]

theorem claimRefused_other {reason : RefuseReason} {o : OutcomeRecord} (claiming : (s.send.get p).state ≠ .claiming)
    (releasing : (s.send.get p).state ≠ .releasing) : claimRefused p reason o s = s := by
  cases state : (s.send.get p).state with
  | claiming => exact absurd state claiming
  | releasing => exact absurd state releasing
  | _ => simp only [claimRefused, state]

theorem refuseQueued_of_send {reason : RefuseReason} (origin : q.origin = .send p) :
    refuseQueued reason s q = claimRefused p reason (outcomeRecord q s) s := by
  simp [refuseQueued, origin]

theorem senderDissented_of_claim_refused (kind : q.kind = .claim) (origin : q.origin = .send p)
    (state : (s.send.get p).state = .claiming) (attempt : 3 ≤ q.attempt) :
    senderDissented q s = giveEvent (.streamRefused p .dissent (outcomeRecord q (removeInFlight s))) (closeSend p (removeInFlight s)) := by
  have refused : senderDissented q s = refuseQueued .dissent (removeInFlight s) q := by
    simp [senderDissented, kind, Nat.not_lt.mpr attempt]
  rw [refused, refuseQueued_of_send origin, claimRefused_claiming (by simpa using state)]

end

/-! ### No notice stays in flight -/

/-- No queued notice is in flight. -/
def State.QueueRests (s : State) : Prop := ∀ q ∈ s.notices.queue, q.inFlight = false

theorem State.QueueRests.of_notices {s t : State} (h : s.QueueRests) (notices : t.notices = s.notices) : t.QueueRests := by
  unfold State.QueueRests
  rwa [notices]

theorem removeInFlight_queueRests (s : State) : (removeInFlight s).QueueRests := (removeInFlight_over s).2

theorem mem_insertQueued {q x : Queued} {l : List Queued} : x ∈ insertQueued q l ↔ x = q ∨ x ∈ l := by
  have parts := List.takeWhile_append_dropWhile (p := fun x => decide (x.priority.toNat ≤ q.priority.toNat)) (l := l)
  rw [insertQueued_eq]
  conv_rhs => rw [← parts]
  simp only [List.mem_append, List.mem_cons]
  tauto

theorem rejoin_queueRests (q : Queued) (s : State) : (rejoin q s).QueueRests := by
  intro x hx
  rcases mem_insertQueued.mp hx with rfl | hx
  · rfl
  · exact removeInFlight_queueRests s x hx

theorem withdrawAsk_queueRests {s : State} (p : Port) (h : s.QueueRests) : (withdrawAsk p s).QueueRests := by
  intro x hx
  simp only [withdrawAsk, State.mapQueue_notices, List.mem_map, List.mem_filter] at hx
  obtain ⟨y, ⟨hy, -⟩, rfl⟩ := hx
  split <;> exact h y hy

theorem checkRecv_queueRests (p : Port) {s : State} (h : s.QueueRests) : (checkRecv p s).QueueRests := by
  unfold checkRecv
  split
  · exact h
  · dsimp only
    split
    · exact withdrawAsk_queueRests p h
    · split <;> exact h

theorem checkSend_queueRests (p : Port) {s : State} (h : s.QueueRests) : (checkSend p s).QueueRests :=
  h.of_notices (by simp)

theorem forPorts_queueRests {f : Port → State → State} (hf : ∀ p {s : State}, s.QueueRests → (f p s).QueueRests) {s : State}
    (h : s.QueueRests) : (forPorts f s).QueueRests :=
  hf _ (hf _ (hf _ (hf _ h)))

theorem tableChanged_queueRests (sendFirst : Bool) {s : State} (h : s.QueueRests) : (tableChanged sendFirst s).QueueRests := by
  unfold tableChanged
  split
  · exact forPorts_queueRests checkRecv_queueRests (forPorts_queueRests checkSend_queueRests h)
  · exact forPorts_queueRests checkSend_queueRests (forPorts_queueRests checkRecv_queueRests h)

/-! ### The entry that a commit has made LIVE keeps its run through the checks (R121) -/

/-- A LIVE entry whose run the live table lists as the station's with its tag. -/
def State.Owns (s : State) (p : Port) : Prop :=
  (s.send.get p).state = .live ∧ ∃ r, (s.send.get p).slotRun.or (s.send.get p).claimRun = some r
    ∧ runOwned s.table.live r s.station (s.tagOf p) = true

theorem checkSend_of_owned {p : Port} {s : State} (h : s.Owns p) : checkSend p s = s := by
  obtain ⟨live, r, run, owned⟩ := h
  unfold checkSend
  simp only [live, run]
  exact if_pos owned

theorem State.Owns.of_entry {p : Port} {s t : State} (h : s.Owns p) (entry : t.send.get p = s.send.get p) (table : t.table = s.table)
    (option : t.ctrl.option = s.ctrl.option) : t.Owns p := by
  unfold State.Owns State.station State.tagOf at h ⊢
  rwa [entry, table, option]

theorem forPorts_checkSend_owned {p : Port} {s : State} (h : s.Owns p) : (forPorts checkSend s).send.get p = s.send.get p := by
  have step : ∀ (x : Port) {t : State}, t.send.get p = s.send.get p ∧ t.table = s.table ∧ t.ctrl.option = s.ctrl.option →
      (checkSend x t).send.get p = s.send.get p ∧ (checkSend x t).table = s.table ∧ (checkSend x t).ctrl.option = s.ctrl.option := by
    intro x t ⟨entry, table, option⟩
    refine ⟨?_, by simpa using table, by simpa using option⟩
    by_cases hx : x = p
    · subst hx
      rw [checkSend_of_owned (h.of_entry entry table option), entry]
    · rw [checkSend_get_of_ne t hx, entry]
  exact (step _ (step _ (step _ (step _ ⟨rfl, rfl, rfl⟩)))).1

theorem tableChanged_owned {sendFirst : Bool} {p : Port} {s : State} (h : s.Owns p) :
    (tableChanged sendFirst s).send.get p = s.send.get p := by
  unfold tableChanged
  split
  · rw [forPorts_send checkRecv (by simp)]
    exact forPorts_checkSend_owned h
  · have recvs : (forPorts checkRecv s).send = s.send := forPorts_send checkRecv (by simp) s
    rw [forPorts_checkSend_owned (h.of_entry (by rw [recvs]) (by simp) (by simp)), recvs]

theorem commitChange_owned {s : State} {tc : Tentative} (kind : tc.kind = .claim)
    (inTable : tc.run.first + tc.run.count ≤ s.table.live.length) :
    runOwned (commitChange tc s).table.live tc.run tc.owner tc.tag = true := by
  unfold runOwned Run.every
  rw [List.all_eq_true]
  intro i hi
  have hi : i < tc.run.count := List.mem_range.mp hi
  have entry : (commitChange tc s).table.live[tc.run.first + i]? = some (SlotEntry.fresh (.owned tc.owner tc.tag)) := by
    have slot : tc.run.first + i < s.table.live.length := by omega
    simp [commitChange, Run.has, Tentative.use, kind, hi, slot]
  simp [useAt, entry, SlotEntry.fresh, SlotUse.ownedBy]

end Sys2Proof.Machine
end

section
/-! PROOF LAYER. The station's own CLAIM at a read answer field (R99, R100, R110, R121), settled. -/

namespace Sys2Proof.Machine

open Sys2Proof

section
variable {u : State} {a b : AnswerReading} {sendFirst : Bool} {q : Queued} {tc : Tentative} {p : Port}

/-- The station's own completed CLAIM, not withdrawn, of a CLAIMING entry, at a read answer field. -/
structure State.ReadsClaim (u : State) (a b : AnswerReading) (q : Queued) (p : Port) : Prop extends u.ReadsOwn a b q where
  kind : q.kind = .claim
  origin : q.origin = .send p
  stands : q.withdrawn = false
  claiming : (u.send.get p).state = .claiming

theorem State.ReadsClaim.committedAt_eq (h : u.ReadsClaim a b q p) :
    u.committedAt a b tc = giveEvent (.streamLive p (q.recordAt .claim (mergeAnswers u.lanes a b) (closeAnswers a b sendFirst u)))
      ((removeInFlight (commitChange tc (u.answered a b))).mapSend p (SendEntry.claimedLive q)) := by
  have record := h.outcomeRecord_eq (sendFirst := sendFirst) (v := commitChange tc (u.answered a b)) rfl rfl
  unfold State.committedAt
  rw [senderOutcome_of_committed h.inFlight_committed (by simp [h.kind]),
    senderCommitted_of_claim h.kind h.origin (by simpa using h.claiming), record, h.kind]

theorem State.ReadsClaim.discardedAt_eq (h : u.ReadsClaim a b q p) : u.discardedAt a b = senderDissented q (u.answered a b) :=
  senderOutcome_of_dissented h.inFlight_answered (by simp [h.kind]) h.stands

theorem State.ReadsClaim.discardedAt_of_refused (h : u.ReadsClaim a b q p) (attempt : 3 ≤ q.attempt) :
    u.discardedAt a b
      = giveEvent (.streamRefused p .dissent (q.recordAt .claim (mergeAnswers u.lanes a b) (closeAnswers a b sendFirst u)))
        (closeSend p (removeInFlight (u.answered a b))) := by
  have record : outcomeRecord q (removeInFlight (u.answered a b))
      = q.recordAt q.kind (mergeAnswers u.lanes a b) (closeAnswers a b sendFirst u) :=
    h.outcomeRecord_eq (v := u.answered a b) rfl rfl
  rw [h.discardedAt_eq, senderDissented_of_claim_refused h.kind h.origin (by simpa using h.claiming) attempt, record, h.kind]

theorem State.ReadsClaim.closed_queueRests (h : u.ReadsClaim a b q p) : (closeAnswers a b sendFirst u).QueueRests := by
  rcases u.commits_or_discards a b with ⟨tc, hc⟩ | hd
  · have rests : (u.committedAt a b tc).QueueRests := by
      rw [h.committedAt_eq (sendFirst := sendFirst)]
      exact removeInFlight_queueRests _
    rw [h.closes_committed hc]
    exact tableChanged_queueRests sendFirst rests
  · have rests : (u.discardedAt a b).QueueRests := by
      rcases Nat.lt_or_ge q.attempt 3 with again | refused
      · rw [h.discardedAt_eq, senderDissented_of_claim_again h.kind again]
        exact rejoin_queueRests q _
      · rw [h.discardedAt_of_refused (sendFirst := sendFirst) refused]
        exact (removeInFlight_queueRests (u.answered a b)).of_notices (by simp)
    rw [h.closes_discarded hd]
    exact rests

/-- A commit of the claimed run leaves the entry the owner of it. -/
theorem State.ReadsClaim.committed_owns (h : u.ReadsClaim a b q p) (kind : tc.kind = .claim) (owner : tc.owner = u.ctrl.option.station)
    (tag : tc.tag = u.tagOf p) (run : tc.run = ⟨q.first.toNat, q.count.toNat⟩)
    (inTable : tc.run.first + tc.run.count ≤ u.table.live.length) : (u.committedAt a b tc).Owns p := by
  have owned := commitChange_owned (s := u.answered a b) kind (by simpa using inTable)
  rw [owner, tag] at owned
  rw [h.committedAt_eq (sendFirst := true)]
  refine ⟨by simp [SendEntry.claimedLive], tc.run, by simp [SendEntry.claimedLive, run], ?_⟩
  simpa [State.station, State.tagOf] using owned

end

/-- Settles O29: the close as the sender's outcome, by whether the change commits and by the attempt. -/
theorem ownClaimCommitsOrRejoins : Obligations.OwnClaimCommitsOrRejoins := by
  unfold Obligations.OwnClaimCommitsOrRejoins
  intro a b sendFirst p s hs hd
  dsimp only
  intro f hf q hq sent kind origin stands tag claiming read
  refine ⟨_, exec_answerClose_of_due hs hd, ?_⟩
  have table : (atEvent 2 s).table = s.table := by simp
  have send : (atEvent 2 s).send = s.send := by simp
  have repair : (atEvent 2 s).repair = s.repair := by simp
  have mgmt : (atEvent 2 s).mgmt = s.mgmt := by simp
  have ctrl : (atEvent 2 s).ctrl = s.ctrl := by simp
  have tagOf : (atEvent 2 s).tagOf p = s.tagOf p := by simp [State.tagOf]
  rw [← table, ← send, ← repair, ← mgmt, ← ctrl, ← tagOf]
  rw [← tagOf] at tag
  rw [← send] at claiming
  generalize atEvent 2 s = u at *
  have h : u.ReadsClaim a b q p :=
    { read := read, completed := State.completed_iff.mpr ⟨f, hf, sent⟩, inFlight := hq, kind, origin, stands, claiming }
  refine ⟨h.closed_notices.1, h.closed_queueRests, ?_, ?_⟩
  · intro tc ht kind owner tcTag run inTable dissent
    have hc : u.Commits a b tc := ⟨ht, dissent⟩
    have owns := h.committed_owns kind owner (tcTag.trans tag) run inTable
    have ends := h.ends (sendFirst := sendFirst) hc (w := giveEvent
        (.streamLive p (q.recordAt .claim (mergeAnswers u.lanes a b) (closeAnswers a b sendFirst u)))
        ((u.afterCommit a b tc).mapSend p (SendEntry.claimedLive q))) (by
      rw [h.committedAt_eq (sendFirst := sendFirst)]
      exact congrArg (fun v => giveEvent (.streamLive p _) (v.mapSend p (SendEntry.claimedLive q))) (u.afterCommit_agrees a b tc))
    rw [run]
    refine ⟨?_, ends⟩
    rw [h.closes_committed hc]
    refine (tableChanged_owned owns).trans ?_
    rw [h.committedAt_eq (sendFirst := sendFirst)]
    simp [SendEntry.claimedLive]
  · intro discards
    have hd : u.Discards a b := by
      rcases discards with none | dissent <;> simp [State.Discards, *]
    refine ⟨(h.discarded_table hd).1, (h.discarded_table hd).2, fun attempt => ?_, fun attempt => ?_⟩
    · obtain ⟨send, -, mgmt, queue⟩ := h.discarded_parts (sendFirst := sendFirst) hd
        (h.discardedAt_eq.trans (senderDissented_of_claim_again kind attempt))
      exact ⟨send.trans (by simp), mgmt.trans (by simp), queue.trans (by simp [rejoin, insertQueued_eq])⟩
    · have refused := h.discardedAt_of_refused (sendFirst := sendFirst) attempt
      obtain ⟨send, -, mgmt, queue⟩ := h.discarded_parts (sendFirst := sendFirst) hd refused
      have resends : (closeAnswers a b sendFirst u).repair = (u.discardedAt a b).repair := by
        rw [h.closes_discarded hd]
        rfl
      refine ⟨send.trans (by simp [closeSend]), queue.trans (by simp), ?_, mgmt.trans (giveEvent_mgmt_congr _ (by simp) (by simp))⟩
      rw [resends, refused]
      simp [closeSend, State.tagOf]

end Sys2Proof.Machine
end

section
/-! PROOF LAYER. Answers that are not read (R15, R66, R95, R101). -/

namespace Sys2Proof.Machine

open Sys2Proof

/-! ### The end of a flight without an answer -/

/-- The station owes the report of answers lost: it sent a completed notice in the round, or holds a tentative change (R95). -/
def State.owes (s : State) : Bool := s.notices.sentNotice || s.notices.tentative.isSome

/-- The answers have not been read: the answer record tells so, and the tentative change is gone (R95). -/
def State.unread (s : State) : State := recordUnread { s with notices := { s.notices with tentative := none } }

/-- The flight has ended without an answer (R85, R95). -/
def flightUnread (s : State) : State := if s.completed then endFlightUnanswered s.unread else endFlightLost s.unread

theorem loseAnswers_eq (s : State) : loseAnswers s = applyIf s.owes reportAnswersLost (flightUnread s) := rfl

theorem endFlightUnanswered_flight (s : State) : (endFlightUnanswered s).notices.flight = none := by
  unfold endFlightUnanswered
  (repeat' split) <;> simp

theorem flightUnread_frame (s : State) :
    (flightUnread s).notices.flight = none ∧ (flightUnread s).notices.tentative = none
      ∧ (flightUnread s).notices.lastAnswer = some { read := false, accepts := 0, dissent := false }
      ∧ (flightUnread s).ctrl = s.ctrl ∧ (flightUnread s).table.epoch = s.table.epoch := by
  have last : s.unread.notices.lastAnswer = some { read := false, accepts := 0, dissent := false } := rfl
  unfold flightUnread
  split
  · exact ⟨endFlightUnanswered_flight _, by simp [State.unread], by simp [last], by simp [State.unread], by simp [State.unread]⟩
  · exact ⟨(endFlightLost_over _).1, by simp [State.unread], by simp [last], by simp [State.unread], by simp [State.unread]⟩

theorem reportAnswersLost_of_joined {s : State} (joined : s.ctrl.mode = .joined) :
    reportAnswersLost s = enterResync .answersLost s.table.epoch s := by
  simp [reportAnswersLost, joined]

theorem reportAnswersLost_outside {s : State} (mode : s.ctrl.mode ≠ .joined) : reportAnswersLost s = s := by
  simp [reportAnswersLost, mode]

/-- What the station is after its answers are lost (R66, R95). -/
theorem loseAnswers_spec (s : State) :
    (loseAnswers s).notices = (flightUnread s).notices ∧ (loseAnswers s).send = (flightUnread s).send
      ∧ (¬ (s.owes = true ∧ s.ctrl.mode = .joined) → (loseAnswers s).ctrl = s.ctrl)
      ∧ (s.owes = true → s.ctrl.mode = .joined → (loseAnswers s).ctrl.mode = .resync
          ∧ ∃ L, (loseAnswers s).table.learning = some L ∧ L.epoch = some s.table.epoch ∧ L.rounds = 0) := by
  obtain ⟨-, -, -, ctrl, epoch⟩ := flightUnread_frame s
  rw [loseAnswers_eq]
  refine ⟨by simp, by simp, fun kept => ?_, fun owes joined => ?_⟩
  · cases owes : s.owes with
    | false => exact ctrl
    | true =>
      have mode : (flightUnread s).ctrl.mode ≠ .joined := fun joined => kept ⟨owes, ctrl ▸ joined⟩
      exact (congrArg State.ctrl (reportAnswersLost_outside mode)).trans ctrl
  · have resync : applyIf s.owes reportAnswersLost (flightUnread s) = enterResync .answersLost s.table.epoch (flightUnread s) := by
      rw [owes, ← epoch]
      exact reportAnswersLost_of_joined (ctrl ▸ joined)
    rw [resync]
    exact ⟨by rw [enterResync_ctrl], enterResync_learns _ _ _⟩

/-! ### The notice that was in flight -/

section
variable {s : State} {q : Queued}

theorem endFlightUnanswered_of_claim (hq : s.inFlight = some q) (kind : q.kind = .claim) :
    (endFlightUnanswered s).notices.queue
      = s.notices.queue.map (fun x => { x with inFlight := false, pending := x.pending || x.inFlight }) := by
  have mark : ∀ x : Queued, ({ (if x.inFlight then { x with pending := true } else x) with inFlight := false } : Queued)
      = { x with inFlight := false, pending := x.pending || x.inFlight } := fun x => by
    cases h : x.inFlight <;> simp
  simp [endFlightUnanswered, hq, kind, Function.comp_def, mark]

theorem endFlightUnanswered_of_change (hq : s.inFlight = some q) (kind : q.kind = .release ∨ q.kind = .reclaim) :
    (endFlightUnanswered s).notices.queue = s.notices.queue.map (fun x => { x with inFlight := false }) := by
  rcases kind with kind | kind <;> simp [endFlightUnanswered, hq, kind]

theorem endFlightUnanswered_of_ask (hq : s.inFlight = some q) (kind : q.kind = .repairAsk) :
    (endFlightUnanswered s).notices.queue = s.notices.queue.filter (fun x => !x.inFlight) := by
  simp [endFlightUnanswered, hq, kind]

theorem flightUnread_of_completed (completed : s.completed = true) :
    flightUnread s = endFlightUnanswered s.unread := if_pos completed

/-- What becomes of the queue where the completed notice q gets no answer (R95, R101). -/
theorem flightUnread_queue (completed : s.completed = true) (hq : s.inFlight = some q) :
    (flightUnread s).send = s.send
      ∧ (q.kind = .claim → (flightUnread s).notices.queue
          = s.notices.queue.map (fun x => { x with inFlight := false, pending := x.pending || x.inFlight }))
      ∧ (q.kind = .release ∨ q.kind = .reclaim → (flightUnread s).notices.queue
          = s.notices.queue.map (fun x => { x with inFlight := false }))
      ∧ (q.kind = .repairAsk → (flightUnread s).notices.queue = s.notices.queue.filter (fun x => !x.inFlight)) := by
  rw [flightUnread_of_completed completed]
  exact ⟨by simp [State.unread], endFlightUnanswered_of_claim (s := s.unread) hq, endFlightUnanswered_of_change (s := s.unread) hq,
    endFlightUnanswered_of_ask (s := s.unread) hq⟩

/-- What becomes of the queue where the notice q, sent on no lane, loses its flight (R81, R85). -/
theorem endFlightLost_queue (hq : s.inFlight = some q) :
    (q.withdrawn = false → (endFlightLost s).notices.queue = s.notices.queue.map (fun x => { x with inFlight := false })
      ∧ (endFlightLost s).send = s.send)
    ∧ (q.withdrawn = true → (endFlightLost s).notices.queue = s.notices.queue.filter (fun x => !x.inFlight)) := by
  refine ⟨fun stands => ?_, fun withdrawn => ?_⟩
  · rw [endFlightLost_of_standing fun x hx => by cases hq.symm.trans hx; exact stands]
    simp
  · rw [endFlightLost_of_withdrawn hq withdrawn]
    simp

theorem flightUnread_of_lost (unsent : s.completed = false) :
    flightUnread s = endFlightLost s.unread := if_neg (by simp [unsent])

end

/-! ### The answer close (R95) -/

/-- The state in which the lanes have told their levels and the merged reading of the answer field stands (R93, R95). -/
def State.told (u : State) (a b : AnswerReading) : State :=
  { tellLevels a.levelShown b.levelShown u with
    notices := { u.notices with lastAnswer := some (mergeAnswers u.lanes a b) } }

theorem State.told_frame (u : State) (a b : AnswerReading) :
    (u.told a b).notices = { u.notices with lastAnswer := some (mergeAnswers u.lanes a b) } ∧ (u.told a b).ctrl = u.ctrl
      ∧ (u.told a b).table = u.table ∧ (u.told a b).send = u.send ∧ (u.told a b).recv = u.recv := by
  simp [State.told]

theorem closeAnswers_unread {a b : AnswerReading} {sendFirst : Bool} {u : State} (unread : (mergeAnswers u.lanes a b).read = false) :
    closeAnswers a b sendFirst u = beginField Config.answerCloseAt (dropAnswer (loseAnswers (u.told a b))) := by
  unfold closeAnswers State.told
  dsimp only
  rw [if_neg (by simp [unread])]
  rfl

/-! ### The adoption that cuts the round short (R15) -/

theorem recordSent_of_not_completed {s : State} (h : s.completed = false) : recordSent s = s := by
  simp [recordSent, h]

theorem recordSent_completed (s : State) : (recordSent s).completed = s.completed := by
  simp [State.completed]

theorem recordSent_owes (s : State) : (recordSent s).owes = (s.notices.sentNotice || s.completed || s.notices.tentative.isSome) := by
  cases h : s.completed with
  | false => simp [recordSent_of_not_completed h, State.owes]
  | true => simp [State.owes, recordSent_notices h]

theorem recordSent_inFlight {s : State} {q : Queued} (h : s.completed = true) (hq : s.inFlight = some q) :
    ∃ x, (recordSent s).inFlight = some x ∧ x.kind = q.kind := by
  have inFlight : q.inFlight = true := List.find?_some hq
  refine ⟨{ q with lastSent := some ⟨q.first.toNat, q.count.toNat⟩ }, ?_, rfl⟩
  have same : (fun x : Queued => (if x.inFlight then { x with lastSent := some ⟨x.first.toNat, x.count.toNat⟩ } else x).inFlight)
      = (fun x => x.inFlight) := by
    funext x
    split <;> rfl
  unfold State.inFlight at hq ⊢
  rw [recordSent_notices h, List.find?_map]
  simp [same, hq, inFlight]

theorem cutShort_of_awaiting {s : State} (h : s.awaitsAnswers = true) : cutShort s = dropAnswer (loseAnswers (recordSent s)) := by
  simp [cutShort, h]

theorem cutShort_of_not_awaiting {s : State} (h : s.awaitsAnswers = false) : cutShort s = dropAnswer (endFlightLost s) := by
  simp [cutShort, h]

/-- A notice with the run it was last sent with, if it is the one in flight (R102). -/
def Queued.recorded (x : Queued) : Queued :=
  if x.inFlight then { x with lastSent := some ⟨x.first.toNat, x.count.toNat⟩ } else x

theorem Queued.recorded_inFlight (x : Queued) : x.recorded.inFlight = x.inFlight := by
  unfold Queued.recorded
  split <;> rfl

theorem Queued.recorded_pending (x : Queued) : x.recorded.pending = x.pending := by
  unfold Queued.recorded
  split <;> rfl

theorem filter_recorded (l : List Queued) : (l.map Queued.recorded).filter (fun x => !x.inFlight) = l.filter (fun x => !x.inFlight) := by
  rw [List.filter_map, List.filter_congr (q := fun x => !x.inFlight) (by simp [Queued.recorded_inFlight])]
  refine (List.map_congr_left fun x hx => ?_).trans (List.map_id _)
  have rests : x.inFlight = false := by simpa using (List.mem_filter.mp hx).2
  simp [Queued.recorded, rests]

section
variable {s : State} {q : Queued}

theorem State.awaitsAnswers_iff : s.awaitsAnswers = true ↔ s.clock.closed = 2
    ∨ (s.clock.closed = 1 ∧ (s.notices.sentNotice = true ∨ s.completed = true)) := by
  simp [State.awaitsAnswers]

theorem recordSent_owes_iff : (recordSent s).owes = true
    ↔ s.notices.sentNotice = true ∨ s.completed = true ∨ s.notices.tentative ≠ none := by
  rw [recordSent_owes]
  simp [Option.isSome_iff_ne_none, or_assoc]

/-- The queue that the cut leaves where the notice was not completed, or its answers are not awaited: as after LOST (R81, R85). -/
theorem cutShort_queue_of_lost (lost : ¬ (s.awaitsAnswers = true ∧ s.completed = true)) (hq : s.inFlight = some q) :
    (q.withdrawn = false → (cutShort s).notices.queue = s.notices.queue.map (fun x => { x with inFlight := false })
      ∧ (cutShort s).send = s.send)
    ∧ (q.withdrawn = true → (cutShort s).notices.queue = s.notices.queue.filter (fun x => !x.inFlight)) := by
  cases awaits : s.awaitsAnswers with
  | false =>
    rw [cutShort_of_not_awaiting awaits]
    exact endFlightLost_queue hq
  | true =>
    have unsent : s.completed = false := Bool.eq_false_iff.mpr fun completed => lost ⟨awaits, completed⟩
    obtain ⟨notices, send, -⟩ := loseAnswers_spec s
    rw [cutShort_of_awaiting awaits, recordSent_of_not_completed unsent, dropAnswer_notices, dropAnswer_send, notices, send,
      flightUnread_of_lost unsent]
    exact endFlightLost_queue (s := s.unread) hq

/-- The queue that the cut leaves where a completed notice awaits its answers (R15, R95, R101). -/
theorem cutShort_queue_of_completed (awaits : s.awaitsAnswers = true) (completed : s.completed = true) (hq : s.inFlight = some q) :
    (q.kind = .claim → (cutShort s).notices.queue
        = s.notices.queue.map (fun x => { x.recorded with inFlight := false, pending := x.pending || x.inFlight }))
    ∧ (q.kind = .release ∨ q.kind = .reclaim → (cutShort s).notices.queue
        = s.notices.queue.map (fun x => { x.recorded with inFlight := false }))
    ∧ (q.kind = .repairAsk → (cutShort s).notices.queue = s.notices.queue.filter (fun x => !x.inFlight)) := by
  obtain ⟨x, hx, kind⟩ := recordSent_inFlight completed hq
  obtain ⟨-, claim, change, ask⟩ := flightUnread_queue ((recordSent_completed s).trans completed) hx
  have recorded : (recordSent s).notices.queue = s.notices.queue.map Queued.recorded :=
    congrArg NoticeEngine.queue (recordSent_notices completed)
  rw [kind, recorded] at claim change ask
  have queue : (cutShort s).notices.queue = (flightUnread (recordSent s)).notices.queue := by
    rw [cutShort_of_awaiting awaits, dropAnswer_notices, (loseAnswers_spec (recordSent s)).1]
  rw [queue]
  refine ⟨fun kind => (claim kind).trans ?_, fun kind => (change kind).trans ?_, fun kind => (ask kind).trans (filter_recorded _)⟩
  · simp [Function.comp_def, Queued.recorded_inFlight, Queued.recorded_pending]
  · simp [Function.comp_def]

end

/-- Settles O31: the unread answer field, and the round cut short, both through the flight that ends without an answer. -/
theorem unreadAnswersAreLost : Obligations.UnreadAnswersAreLost := by
  unfold Obligations.UnreadAnswersAreLost
  refine ⟨fun a b sendFirst s hs hd => ?_, fun s => ?_⟩
  · dsimp only
    intro unread sentNotice
    refine ⟨_, exec_answerClose_of_due hs hd, ?_⟩
    have table : (atEvent 2 s).table = s.table := by simp
    have ctrl : (atEvent 2 s).ctrl = s.ctrl := by simp
    have send : (atEvent 2 s).send = s.send := by simp
    have recv : (atEvent 2 s).recv = s.recv := by simp
    rw [closeAnswers_unread unread, ← table, ← ctrl, ← send, ← recv]
    generalize atEvent 2 s = u at *
    clear table ctrl send recv
    obtain ⟨told, ctrl, table, send, recv⟩ := u.told_frame a b
    generalize u.told a b = v at *
    have owes : v.owes = true := by simp [State.owes, told, sentNotice]
    obtain ⟨notices, sends, kept, resync⟩ := loseAnswers_spec v
    obtain ⟨flight, -, last, -, -⟩ := flightUnread_frame v
    rw [ctrl] at kept resync
    rw [table] at resync
    refine ⟨by simp [notices, flight], rfl, rfl, by simp [notices, last], by simp [table], by simp [table], by simp [recv], resync owes,
      fun outside => kept fun h => outside h.2, ?_⟩
    intro f hf q hq sent
    have completed : v.completed = true := State.completed_iff.mpr ⟨f, by simp [told, hf], sent⟩
    obtain ⟨stays, queue⟩ := flightUnread_queue completed (q := q) (by simpa [State.inFlight, told] using hq)
    rw [told, ← notices] at queue
    exact ⟨(sends.trans stays).trans send, queue⟩
  · intro t sent awaits owes
    have hsent : s.completed = true ↔ sent := State.completed_iff
    have hawaits : s.awaitsAnswers = true ↔ awaits := by rw [State.awaitsAnswers_iff, hsent]
    have howes : (recordSent s).owes = true ↔ owes := by rw [recordSent_owes_iff, hsent]
    have hlost : ¬ (s.awaitsAnswers = true ∧ s.completed = true) ↔ ¬ (awaits ∧ sent) := by rw [hsent, hawaits]
    obtain ⟨notices, -, kept, resync⟩ := loseAnswers_spec (recordSent s)
    obtain ⟨flight, -, last, -, -⟩ := flightUnread_frame (recordSent s)
    have awaiting : awaits → t = dropAnswer (loseAnswers (recordSent s)) := fun h => cutShort_of_awaiting (hawaits.mpr h)
    have lost : ¬ awaits → t = dropAnswer (endFlightLost s) := fun h =>
      cutShort_of_not_awaiting (Bool.eq_false_iff.mpr (mt hawaits.mp h))
    have ended : t.notices.flight = none := by
      by_cases h : awaits
      · rw [awaiting h]
        exact (congrArg NoticeEngine.flight notices).trans flight
      · rw [lost h]
        exact (endFlightLost_over s).1
    refine ⟨ended, rfl, rfl, rfl, by simp [t], by simp [t], by simp [t], by simp [t], fun h => ?_, fun h => ?_, fun h => ?_, fun h => ?_,
      fun q hq => ?_⟩
    · rw [lost h]
      simp
    · rw [awaiting h]
      exact (congrArg NoticeEngine.lastAnswer notices).trans last
    · rw [awaiting h, ← howes]
      simpa using kept
    · rw [awaiting h, ← howes]
      simpa using resync
    · intro stays leaves lost record
      have completes : ¬ lost → s.awaitsAnswers = true ∧ s.completed = true := fun h => by
        rw [hawaits, hsent]
        exact not_not.mp h
      refine ⟨fun h => (cutShort_queue_of_lost (hlost.mpr h) hq).1, fun h => (cutShort_queue_of_lost (hlost.mpr h) hq).2,
        fun h => ?_, fun h => ?_, fun h => ?_⟩
      · exact (cutShort_queue_of_completed (completes h).1 (completes h).2 hq).1
      · exact (cutShort_queue_of_completed (completes h).1 (completes h).2 hq).2.1
      · exact (cutShort_queue_of_completed (completes h).1 (completes h).2 hq).2.2

end Sys2Proof.Machine
end

section
/-! PROOF LAYER. The end of the seventh lead-in tick (R28, R85, R130, R131). -/

namespace Sys2Proof.Machine

open Sys2Proof

section
variable {s u : State} {q : Queued}

theorem exec_seventhLeadInTick_of_reaches {field : LeadInField} (hs : s.holding = false) (hr : s.reaches (leadInEnd field) = true) :
    exec (.seventhLeadInTick field) s = .next (match field with
      | .noticeWindow => noticeOutcome (reach (leadInEnd field) s)
      | .repairWindow => repairOutcome (reach (leadInEnd field) s)) := by
  change running (dated _ _) s = _
  rw [running_of_free hs, dated_of_reaches _ hr]
  cases field <;> rfl

theorem State.contending_iff : s.contending = true ↔ s.lanes.a.drive = .contending ∨ s.lanes.b.drive = .contending := by
  simp [State.contending, PerLane.any_iff]

/-! ### The notice window -/

/-- Nothing is driven any longer. -/
def State.undriven (u : State) : State := { u with drive := { u.drive with content := .none } }

theorem noticeOutcome_of_over (h : u.notices.flight = none ∨ u.drive.content = .noticeBody) : noticeOutcome u = u := by
  unfold noticeOutcome
  split
  · rfl
  · next f hf =>
    rcases h with flight | content
    · cases flight.symm.trans hf
    · simp [content]

theorem noticeOutcome_of_won (flight : u.notices.flight ≠ none) (content : u.drive.content = .leadIn .noticeWindow)
    (contending : u.contending = true) : noticeOutcome u = drivePastLeadIn .noticeBody u := by
  obtain ⟨f, hf⟩ := Option.ne_none_iff_exists'.mp flight
  simp [noticeOutcome, hf, content, contending]

theorem noticeOutcome_of_lost (flight : u.notices.flight ≠ none) (content : u.drive.content ≠ .noticeBody)
    (lost : ¬ (u.drive.content = .leadIn .noticeWindow ∧ u.contending = true)) : noticeOutcome u = endFlightLost u.undriven := by
  obtain ⟨f, hf⟩ := Option.ne_none_iff_exists'.mp flight
  have test : (u.drive.content == .leadIn .noticeWindow && u.contending) = false := by
    simpa [Bool.and_eq_false_iff, not_and_or] using lost
  simp [noticeOutcome, hf, content, test, State.undriven]

/-! ### A withdrawn notice without a commit (R81) -/

theorem withdrawnEnds_of_other (o : OutcomeRecord) (kind : q.kind ≠ .claim) : withdrawnEnds q o s = s := by
  unfold withdrawnEnds
  split
  · next claim _ => exact absurd claim kind
  · rfl

theorem claimNotCommitted_other {p : Port} (o : OutcomeRecord) (state : (s.send.get p).state ≠ .releasing) :
    claimNotCommitted p o s = s := by
  unfold claimNotCommitted
  split
  · next releasing => exact absurd releasing state
  all_goals rfl

/-! ### The repair window -/

theorem repairOutcome_of_silent (content : u.drive.content ≠ .leadIn .repairWindow) : repairOutcome u = u := by
  simp [repairOutcome, content]

theorem repairOutcome_of_lost (content : u.drive.content = .leadIn .repairWindow) (lost : u.contending = false) :
    repairOutcome u = u.undriven := by
  simp [repairOutcome, content, lost, State.undriven]

theorem repairOutcome_of_won {b : Block} (content : u.drive.content = .leadIn .repairWindow) (won : u.contending = true)
    (head : resendBlock 31 u = some b) :
    repairOutcome u = drivePastLeadIn (.block b) { u with repair := { u.repair with turn := true } } := by
  simp [repairOutcome, content, won, head]

theorem resendBlock_of_head {x : Tag × Retained} (index : Nat)
    (head : u.repair.queue.head?.bind (fun r => (retainedOf u r).map (fun b => (r.tag, b))) = some x) :
    resendBlock index u = some (stamp u x.1 x.2 true index) := by
  unfold resendBlock
  cases hq : u.repair.queue with
  | nil => simp [hq] at head
  | cons r rest =>
    obtain ⟨b, hb, rfl⟩ : ∃ b, retainedOf u r = some b ∧ (r.tag, b) = x := by simpa [hq] using head
    simp [hb]

end

/-- Settles O20: the outcome of either field, by what is driven and whether a lane still contends. -/
theorem leadInOutcome : Obligations.LeadInOutcome := by
  unfold Obligations.LeadInOutcome
  intro s hs driven contending
  refine ⟨fun hr => ?_, fun hr => ?_⟩
  · have outcome : exec (.seventhLeadInTick .noticeWindow) s = .next (noticeOutcome (reach 1500 s)) :=
      exec_seventhLeadInTick_of_reaches (field := .noticeWindow) hs hr
    intro u won ended
    refine ⟨fun silent => ?_, fun flight hwon => ?_, fun q hq flight content lost => ?_⟩
    · rw [outcome, noticeOutcome_of_over silent]
    · rw [outcome, noticeOutcome_of_won flight hwon.1 (State.contending_iff.mpr hwon.2)]
      rfl
    · have loses : noticeOutcome u = endFlightLost u.undriven :=
        noticeOutcome_of_lost flight content fun h => lost ⟨h.1, State.contending_iff.mp h.2⟩
      rw [outcome, loses]
      refine ⟨fun stands => ?_, fun withdrawn => ?_⟩
      · rw [endFlightLost_of_standing fun x hx => by cases hq.symm.trans hx; exact stands]
        rfl
      · rw [endFlightLost_of_withdrawn (s := u.undriven) hq withdrawn]
        refine ⟨_, rfl, by simp [ended, State.undriven], by simp [ended, State.undriven], by simp [State.undriven], fun kind => ?_,
          fun p kind origin => ?_⟩
        · rw [withdrawnEnds_of_other _ kind]
          simp [State.undriven, u]
        · rw [withdrawnEnds_of_claim kind origin]
          intro e record
          refine ⟨fun state => ?_, fun state => ?_⟩
          · have last : u.undriven.notices.lastAnswer = s.notices.lastAnswer := by simp [State.undriven, u]
            have table : u.undriven.table = s.table := by simp [State.undriven, u]
            have recorded : outcomeRecord q u.undriven = record := by
              unfold outcomeRecord
              rw [last, table, kind]
              rfl
            rw [recorded, claimNotCommitted_releasing _ (by simpa [State.undriven, u, e] using state)]
            refine ⟨by simp [State.undriven, u, e], by simp [State.undriven, u, State.tagOf], giveEvent_mgmt_congr _ ?_ ?_⟩
            · simp [State.undriven]
            · simp [State.undriven]
          · rw [claimNotCommitted_other _ (by simpa [State.undriven, u, e] using state)]
            simp [State.undriven, u]
  · have outcome : exec (.seventhLeadInTick .repairWindow) s = .next (repairOutcome (reach 4300 s)) :=
      exec_seventhLeadInTick_of_reaches (field := .repairWindow) hs hr
    intro u
    refine ⟨fun content => ?_, fun content lost => ?_, ?_⟩
    · rw [outcome, repairOutcome_of_silent content]
    · rw [outcome, repairOutcome_of_lost content (Bool.eq_false_iff.mpr (mt State.contending_iff.mp lost))]
      rfl
    · intro head x hx content won
      have block : resendBlock 31 u = some (stamp u x.1 x.2 true 31) := resendBlock_of_head 31 (by
        simpa [retainedOf, u, head] using hx)
      rw [outcome, repairOutcome_of_won content (State.contending_iff.mpr won) block]
      simp [drivePastLeadIn, stamp, driven, u, State.station]

end Sys2Proof.Machine
end

section
/-! PROOF LAYER. An OPEN_SEND that passes its tests (R79, R105, R107 to R109, R111). -/

namespace Sys2Proof.Machine

open Sys2Proof

/-! ### The queue and the slots that an offer finds -/

section
variable {s : State} {q : Queued}

theorem Queued.duplicates_iff {x y : Queued} : x.duplicates y = true ↔ x.kind = y.kind ∧ x.tag = y.tag
    ∧ (x.kind = .release → x.first = y.first ∧ x.count = y.count) ∧ (x.kind = .repairAsk → x.first = y.first) := by
  unfold Queued.duplicates
  cases x.kind <;> simp [and_assoc]

theorem offerAnswer_queued_iff : offerAnswer q s = .queued
    ↔ ¬ ((∃ x ∈ s.notices.queue, q.duplicates x = true) ∨ 8 ≤ s.notices.queue.length) := by
  unfold offerAnswer Config.noticeQueueSize
  rw [← List.any_eq_true]
  split
  · simp [*]
  · split <;> simp [*]

theorem offer_of_queued (h : offerAnswer q s = .queued) : offer q s = s.mapQueue (insertQueued q) := if_pos h

theorem offer_of_not_queued (h : offerAnswer q s ≠ .queued) : offer q s = s := if_neg h

/-- The lowest run that is all OPEN is the one found (R82, R108). -/
theorem firstOpenRun_of_lowest {live : List SlotEntry} {first count : Nat} (inTable : first + count ≤ 24)
    (opened : runOpen live ⟨first, count⟩ = true) (lowest : ∀ f < first, runOpen live ⟨f, count⟩ = false) :
    firstOpenRun live count = some ⟨first, count⟩ := by
  have found : (List.range (Config.slots + 1 - count)).find? (fun f => runOpen live ⟨f, count⟩) = some first := by
    rw [List.find?_range_eq_some]
    refine ⟨opened, List.mem_range.mpr ?_, fun f hf => by simp [lowest f hf]⟩
    unfold Config.slots
    omega
  unfold firstOpenRun
  rw [List.find?_map]
  exact congrArg (Option.map _) found

end

/-! ### The tests passed, and the two effects -/

section
variable {s : State} {p : Port} {c : RetClass} {port count cls priority : Byte}

/-- An OPEN_SEND that passes every test of its operands and of the block store (R107). -/
structure State.AdmitsSend (s : State) (port count cls priority : Byte) (p : Port) (c : RetClass) : Prop where
  joined : s.ctrl.mode = .joined
  port : portOf port = some p
  cls : retClassOf cls = some c
  count : 1 ≤ count.toNat ∧ count.toNat ≤ 12
  priority : 2 ≤ priority.toNat ∧ priority.toNat ≤ 5
  room : s.reserved + c.size ≤ 4096

theorem State.AdmitsSend.operands (h : s.AdmitsSend port count cls priority p c) :
    slotCount count = some count.toNat ∧ streamPriority priority = some (BitVec.ofNat 3 priority.toNat) := by
  simp [slotCount, streamPriority, h.count, h.priority]

theorem State.AdmitsSend.level_toNat (h : s.AdmitsSend port count cls priority p c) :
    (BitVec.ofNat 3 priority.toNat).toNat = priority.toNat := by
  have := h.priority.2
  rw [BitVec.toNat_ofNat]
  omega

theorem State.AdmitsSend.openSend_closed (h : s.AdmitsSend port count cls priority p c) (state : (s.send.get p).state = .closed) :
    openSend port count cls priority s = claimSlots p count.toNat c (BitVec.ofNat 3 priority.toNat) s := by
  have room : ¬ Config.blockStore < s.reserved + c.size := Nat.not_lt.mpr h.room
  simp [openSend, h.joined, h.port, h.cls, h.operands, state, room]

theorem State.AdmitsSend.openSend_held (h : s.AdmitsSend port count cls priority p c) (state : (s.send.get p).state = .held) :
    openSend port count cls priority s = adoptHeld p c (BitVec.ofNat 3 priority.toNat) s := by
  have room : ¬ Config.blockStore < s.reserved + c.size := Nat.not_lt.mpr h.room
  simp [openSend, h.joined, h.port, h.cls, h.operands, state, room]

theorem claimSlots_of_queued {n : Nat} {level : BitVec 3} {run : Run} (found : firstOpenRun s.table.live n = some run)
    (queued : offerAnswer (claimNotice s p level run) s = .queued) :
    claimSlots p n c level s = reply .started .none
      ((s.mapQueue (insertQueued (claimNotice s p level run))).mapSend p (fun e => e.claiming c level run)) := by
  unfold claimSlots
  rw [found]
  dsimp only
  rw [if_pos queued, offer_of_queued queued]

/-- A HELD entry that a request has adopted: LIVE, with the request's priority and class and an empty ring (R109). -/
def SendEntry.adopted (e : SendEntry) (c : RetClass) (level : BitVec 3) : SendEntry :=
  { e with state := .live, priority := some level, cls := some c, heldRounds := none, ring := [] }

theorem adoptHeld_of_run {level : BitVec 3} {run : Run} (hrun : (s.send.get p).slotRun = some run) :
    adoptHeld p c level s = reply .done (.heldCount run.count) (s.mapSend p (fun e => e.adopted c level)) := by
  unfold adoptHeld
  rw [hrun]
  rfl

/-- The block store after one send entry has changed (R106). -/
theorem reserved_of_set {t : State} {e : SendEntry} (send : t.send = s.send.set p e) (recv : t.recv = s.recv)
    (free : (s.send.get p).reservation = 0) : t.reserved = s.reserved + e.reservation := by
  unfold State.reserved
  rw [send, recv]
  cases p <;> simp only [PerPort.get] at free <;> simp only [PerPort.set, free] <;> omega

end

/-- Settles O7: the CLAIM that is queued by a CLOSED entry, and the adoption of a HELD one. -/
theorem openSendTakesEntry : Obligations.OpenSendTakesEntry := by
  unfold Obligations.OpenSendTakesEntry
  intro port count cls priority p c s ⟨free, idle⟩ joined hport hcls one twelve two five room level done
  have admits : s.AdmitsSend port count cls priority p c :=
    { joined, port := hport, cls := hcls, count := ⟨one, twelve⟩, priority := ⟨two, five⟩, room }
  have taken : exec (.openSend port count cls priority) s = .next (openSend port count cls priority s) := request_taken free idle
  refine ⟨?_, fun run hrun state => ?_⟩
  · intro first state inTable opened lowest unclaimed short claim before entry
    have found : firstOpenRun s.table.live count.toNat = some ⟨first, count.toNat⟩ :=
      firstOpenRun_of_lowest inTable opened fun f hf => lowest ⟨f, hf.trans first.isLt⟩ hf
    have queued : offerAnswer (claimNotice s p level ⟨first, count.toNat⟩) s = .queued := by
      rw [offerAnswer_queued_iff]
      rintro (⟨x, hx, same⟩ | full)
      · obtain ⟨kind, tag, -⟩ := Queued.duplicates_iff.mp same
        exact unclaimed x hx kind.symm tag.symm
      · omega
    have joins : insertQueued claim s.notices.queue = s.notices.queue.takeWhile before ++ claim :: s.notices.queue.dropWhile before := by
      rw [insertQueued_eq]
      simp only [claim, level, admits.level_toNat, before]
    refine ⟨_, taken, ?_⟩
    rw [admits.openSend_closed state, claimSlots_of_queued found queued]
    refine ⟨?_, ?_, ?_⟩
    · rw [← joins]
      rfl
    · exact reserved_of_set (e := entry) rfl rfl (by simp [SendEntry.reservation, state])
    · simp [State.ready, SendEntry.claiming, SendEntry.inHalfOpen, SendEntry.places, SendEntry.reset, Config.fifoSize, joined]
  · refine ⟨_, taken, ?_⟩
    rw [admits.openSend_held state, adoptHeld_of_run hrun]
    exact ⟨rfl, reserved_of_set (e := (s.send.get p).adopted c level) rfl rfl (by simp [SendEntry.reservation, state])⟩

end Sys2Proof.Machine
end

section
/-! PROOF LAYER. The outgoing notice queue at a round start (R79, R80, R82 to R84, R110, R120). -/

namespace Sys2Proof.Machine

open Sys2Proof

/-- The station with the outgoing notice queue l. -/
def State.withQueue (s : State) (l : List Queued) : State := { s with notices := { s.notices with queue := l } }

/-! ### An offer (R79, R80) -/

theorem offer_refused {s : State} {q : Queued} (h : (∃ x ∈ s.notices.queue, q.duplicates x = true) ∨ 8 ≤ s.notices.queue.length) :
    offer q s = s :=
  offer_of_not_queued fun queued => offerAnswer_queued_iff.mp queued h

theorem offer_joins {s : State} {q : Queued} (h : ¬ ((∃ x ∈ s.notices.queue, q.duplicates x = true) ∨ 8 ≤ s.notices.queue.length)) :
    offer q s = s.withQueue (s.notices.queue.takeWhile (fun x => decide (x.priority.toNat ≤ q.priority.toNat))
      ++ q :: s.notices.queue.dropWhile (fun x => decide (x.priority.toNat ≤ q.priority.toNat))) := by
  rw [offer_of_queued (offerAnswer_queued_iff.mpr h), State.withQueue, ← insertQueued_eq]
  rfl

/-! ### Refused CLAIMs (R83, R110, R120) -/

/-- A CLOSED entry keeps its next generation and next sequence alone (R104). -/
def SendEntry.afterClose (e : SendEntry) : SendEntry := { SendEntry.reset with gen := e.gen, nextSeq := e.nextSeq }

/-- A refused CLAIM closes the entry: it is CLAIMING, or RELEASING (R110, R120). -/
def SendEntry.closedByRefusal (e : SendEntry) : Prop := e.state = .claiming ∨ e.state = .releasing

theorem SendEntry.afterClose_not_closedByRefusal (e : SendEntry) : ¬ e.afterClose.closedByRefusal := by
  rintro (h | h) <;> cases h

section
variable {s : State} {q : Queued} {p : Port} {reason : RefuseReason}

theorem claimRefused_get_of_closes (o : OutcomeRecord) (h : (s.send.get p).closedByRefusal) :
    (claimRefused p reason o s).send.get p = (s.send.get p).afterClose := by
  rcases h with claiming | releasing
  · rw [claimRefused_claiming claiming]
    simp [closeSend, SendEntry.afterClose]
  · rw [claimRefused_releasing releasing]
    simp [closeSend, SendEntry.afterClose]

theorem claimRefused_of_stays (o : OutcomeRecord) (h : ¬ (s.send.get p).closedByRefusal) : claimRefused p reason o s = s :=
  claimRefused_other (fun claiming => h (.inl claiming)) (fun releasing => h (.inr releasing))

theorem claimRefused_get_of_ne {x : Port} (o : OutcomeRecord) (h : p ≠ x) : (claimRefused x reason o s).send.get p = s.send.get p := by
  have others : (closeSend x s).send.get p = s.send.get p := by simp [closeSend, PerPort.get_set_of_ne _ _ h]
  by_cases closes : (s.send.get x).closedByRefusal
  · rcases closes with claiming | releasing
    · rw [claimRefused_claiming claiming]
      simpa using others
    · rw [claimRefused_releasing releasing]
      simpa using others
  · rw [claimRefused_of_stays o closes]

theorem refuseQueued_get_of_other (h : q.origin ≠ .send p) : (refuseQueued reason s q).send.get p = s.send.get p := by
  unfold refuseQueued
  split
  · next x origin => exact claimRefused_get_of_ne _ fun same => h (same ▸ origin)
  all_goals rfl

/-- What several refusals make of an entry: the first of its own closes it, and the others find it closed. -/
theorem foldl_refuseQueued_get (l : List Queued) :
    ((s.send.get p).closedByRefusal → (∃ q ∈ l, q.origin = .send p) →
      (l.foldl (refuseQueued reason) s).send.get p = (s.send.get p).afterClose)
    ∧ (¬ ((s.send.get p).closedByRefusal ∧ ∃ q ∈ l, q.origin = .send p) →
      (l.foldl (refuseQueued reason) s).send.get p = s.send.get p) := by
  induction l generalizing s with
  | nil => simp
  | cons q l ih =>
    obtain ⟨closes, stays⟩ := ih (s := refuseQueued reason s q)
    rw [List.foldl_cons]
    by_cases own : q.origin = .send p
    · rw [refuseQueued_of_send own] at closes stays ⊢
      refine ⟨fun h _ => ?_, fun h => ?_⟩
      · have closed := claimRefused_get_of_closes (reason := reason) (outcomeRecord q s) h
        rw [stays fun again => (s.send.get p).afterClose_not_closedByRefusal (closed ▸ again.1), closed]
      · have unclosed : ¬ (s.send.get p).closedByRefusal := fun closed => h ⟨closed, q, List.mem_cons_self, own⟩
        rw [claimRefused_of_stays _ unclosed] at stays ⊢
        exact stays fun again => unclosed again.1
    · have entry := refuseQueued_get_of_other (reason := reason) (s := s) own
      rw [entry] at closes stays
      refine ⟨fun h ⟨x, hx, origin⟩ => closes h ⟨x, ?_, origin⟩, fun h => stays fun ⟨hc, x, hx, origin⟩ => ?_⟩
      · exact (List.mem_cons.mp hx).resolve_left fun same => own (same ▸ origin)
      · exact h ⟨hc, x, List.mem_cons_of_mem q hx, origin⟩

end

theorem limitClaims_get (s : State) (p : Port) :
    let refused := (s.send.get p).closedByRefusal ∧ ∃ q ∈ s.notices.queue, q.overdue s.clock.round = true ∧ q.origin = .send p
    (refused → (limitClaims s).send.get p = (s.send.get p).afterClose) ∧ (¬ refused → (limitClaims s).send.get p = s.send.get p) := by
  have mem : (∃ q ∈ s.notices.queue.filter (Queued.overdue s.clock.round), q.origin = .send p)
      ↔ ∃ q ∈ s.notices.queue, q.overdue s.clock.round = true ∧ q.origin = .send p := by
    simp only [List.mem_filter, and_assoc]
  obtain ⟨closes, stays⟩ := foldl_refuseQueued_get (s := s.mapQueue (fun l => l.filter (fun q => !q.overdue s.clock.round)))
    (p := p) (reason := .timeout) (s.notices.queue.filter (Queued.overdue s.clock.round))
  rw [mem] at closes stays
  exact ⟨fun h => closes h.1 h.2, stays⟩

/-! ### The head revalidated (R82) -/

/-- The station when the head of its queue has been revalidated, until one passes. -/
def State.prepared (s : State) : State := revalidate s.notices.queue.length s

section
variable {s : State} {q : Queued} {rest : List Queued}

theorem State.prepared_of_empty (h : s.notices.queue = []) : s.prepared = s := by
  simp [State.prepared, h, revalidate]

theorem State.prepared_of_keep (h : s.notices.queue = q :: rest) (keep : checkHead q s = .keep) : s.prepared = s := by
  simp [State.prepared, h, revalidate, keep]

theorem State.prepared_of_aim {first : BitVec 16} {count : BitVec 5} (h : s.notices.queue = q :: rest)
    (aim : checkHead q s = .aim first count) : s.prepared = aimHead q first count s := by
  simp [State.prepared, h, revalidate, aim]

theorem State.prepared_of_remove (h : s.notices.queue = q :: rest) (remove : checkHead q s = .remove) :
    s.prepared = (if q.kind == .claim then refuseQueued .noSlots (s.withQueue rest) q else s.withQueue rest).prepared := by
  have tail : s.mapQueue List.tail = s.withQueue rest := by simp [State.mapQueue, State.withQueue, h]
  have length : (if q.kind == .claim then refuseQueued .noSlots (s.withQueue rest) q else s.withQueue rest).notices.queue.length
      = rest.length := by
    split <;> simp [State.withQueue]
  unfold State.prepared
  rw [h, length, List.length_cons, revalidate, h]
  dsimp only
  rw [remove, tail]

theorem State.prepared_of_claim_removed (h : s.notices.queue = q :: rest) (kind : q.kind = .claim) (remove : checkHead q s = .remove) :
    s.prepared = (refuseQueued .noSlots (s.withQueue rest) q).prepared := by
  rw [State.prepared_of_remove h remove, if_pos (by simp [kind])]

theorem State.prepared_of_other_removed (h : s.notices.queue = q :: rest) (kind : q.kind ≠ .claim) (remove : checkHead q s = .remove) :
    s.prepared = (s.withQueue rest).prepared := by
  rw [State.prepared_of_remove h remove, if_neg (by simp [kind])]

/-! ### The test of the head, by its kind (R82) -/

theorem checkHead_claim_open (kind : q.kind = .claim) (opened : runOpen s.table.live q.run = true) : checkHead q s = .keep := by
  simp only [checkHead, kind]
  exact if_pos opened

theorem checkHead_claim_aimed {r : Run} (kind : q.kind = .claim) (taken : runOpen s.table.live q.run = false)
    (found : firstOpenRun s.table.live q.count.toNat = some r) : checkHead q s = .aim (BitVec.ofNat 16 r.first) q.count := by
  simp [checkHead, kind, taken, found]

theorem checkHead_claim_removed (kind : q.kind = .claim) (taken : runOpen s.table.live q.run = false)
    (found : firstOpenRun s.table.live q.count.toNat = none) : checkHead q s = .remove := by
  simp [checkHead, kind, taken, found]

theorem checkHead_release (kind : q.kind = .release) :
    checkHead q s = if runOwned s.table.live q.run s.station q.tag then .keep else .remove := by
  simp only [checkHead, kind]

theorem checkHead_reclaim (kind : q.kind = .reclaim) :
    checkHead q s = if runOwned s.table.live q.run q.target q.tag && runSilent s.table.live q.run then .keep else .remove := by
  simp only [checkHead, kind]

/-- The sequence i of the ask may still be asked for. -/
def State.askableAt (s : State) (p : Port) (q : Queued) (i : Nat) : Bool :=
  match (s.recv.get p).stream with
  | some st => st.askable s.clock.round (q.first + BitVec.ofNat 16 i)
  | none => false

theorem checkHead_repairAsk_removed {p : Port} (kind : q.kind = .repairAsk) (origin : q.origin = .recv p)
    (found : (List.range q.count.toNat).find? (s.askableAt p q) = none) : checkHead q s = .remove := by
  unfold State.askableAt at found
  unfold checkHead firstAskable
  simp only [kind, origin]
  cases stream : (s.recv.get p).stream with
  | none => rfl
  | some st =>
    simp only [stream] at found
    simp [found]

theorem checkHead_repairAsk_aimed {p : Port} {i : Nat} (kind : q.kind = .repairAsk) (origin : q.origin = .recv p)
    (found : (List.range q.count.toNat).find? (s.askableAt p q) = some i) :
    checkHead q s = .aim (q.first + BitVec.ofNat 16 i) (BitVec.ofNat 5
      ((List.range (q.count.toNat - i)).takeWhile (fun j => s.askableAt p q (i + j))).length) := by
  unfold State.askableAt at found ⊢
  unfold checkHead firstAskable
  simp only [kind, origin]
  cases stream : (s.recv.get p).stream with
  | none => simp [stream] at found
  | some st =>
    simp only [stream] at found
    simp [found]

theorem aimHead_queue {first : BitVec 16} {count : BitVec 5} (h : s.notices.queue = q :: rest) :
    (aimHead q first count s).notices.queue = { q with first := first, count := count } :: rest := by
  unfold aimHead
  dsimp only
  split <;> simp [h]

theorem aimHead_claimRun {p : Port} {first : BitVec 16} {count : BitVec 5} (kind : q.kind = .claim) (origin : q.origin = .send p) :
    ((aimHead q first count s).send.get p).claimRun = some ⟨first.toNat, count.toNat⟩ := by
  simp [aimHead, kind, origin]

theorem aimHead_of_other {first : BitVec 16} {count : BitVec 5} (h : s.notices.queue = q :: rest) (kind : q.kind ≠ .claim) :
    aimHead q first count s = s.withQueue ({ q with first := first, count := count } :: rest) := by
  unfold aimHead
  dsimp only
  split
  · next claim _ => exact absurd claim kind
  · simp [State.mapQueue, State.withQueue, h]

end

/-- Settles O46: the offer, the limit of queued CLAIMs, the refusal, the head's test by its kind, and the selection. -/
theorem noticesPreparedAtRoundStart : Obligations.NoticesPreparedAtRoundStart := by
  unfold Obligations.NoticesPreparedAtRoundStart
  intro s withQueue
  refine ⟨fun q => ?_, ?_, fun reason q p origin => ?_, ⟨State.prepared_of_empty, fun q rest h => ?_⟩, fun h => ?_, fun q rest h => ?_⟩
  · intro same before
    have found : (∃ x ∈ s.notices.queue, q.duplicates x = true) ↔ ∃ x ∈ s.notices.queue, same x := by
      refine exists_congr fun x => and_congr_right fun _ => Queued.duplicates_iff.trans ?_
      simp only [same, eq_comm]
    split
    · next refused => exact offer_refused (by rwa [found])
    · next joins => exact offer_joins (by rwa [found])
  · intro overdue t
    refine ⟨?_, fun p => ?_, by simp [t], by simp [t], by simp [t], rfl⟩
    · unfold t limitClaims
      rw [foldl_notices _ (by simp)]
      rfl
    · obtain ⟨closes, stays⟩ := limitClaims_get s p
      split
      · next refused => exact closes refused
      · next stands => exact stays stands
  · intro e record closed
    rw [refuseQueued_of_send origin]
    refine ⟨fun claiming => claimRefused_claiming claiming, fun releasing => claimRefused_releasing releasing, fun claiming releasing => ?_⟩
    · exact claimRefused_other claiming releasing
  · intro run removed
    refine ⟨fun kind opened => State.prepared_of_keep h (checkHead_claim_open kind opened), fun kind taken => ?_, fun kind => ?_,
      fun kind => ?_, fun p origin kind => ?_⟩
    · intro found
      refine ⟨fun r hr => ?_, fun hr => State.prepared_of_claim_removed h kind (checkHead_claim_removed kind taken hr)⟩
      change s.prepared.notices.queue = _ ∧ ∀ p : Port, _ → (s.prepared.send.get p).claimRun = _
      rw [State.prepared_of_aim h (checkHead_claim_aimed kind taken hr)]
      exact ⟨aimHead_queue h, fun p origin => aimHead_claimRun kind origin⟩
    · have test := checkHead_release (s := s) kind
      refine ⟨fun owned => State.prepared_of_keep h (test.trans (if_pos owned)), fun lost => ?_⟩
      exact State.prepared_of_other_removed h (by simp [kind]) (test.trans (if_neg (Bool.eq_false_iff.mp lost)))
    · have test := checkHead_reclaim (s := s) kind
      refine ⟨fun stands => State.prepared_of_keep h (test.trans (if_pos stands)), fun falls => ?_⟩
      exact State.prepared_of_other_removed h (by simp [kind]) (test.trans (if_neg (Bool.eq_false_iff.mp falls)))
    · have other : q.kind ≠ .claim := by simp [kind]
      refine ⟨fun hn => State.prepared_of_other_removed h other (checkHead_repairAsk_removed kind origin hn), fun i hi => ?_⟩
      exact (State.prepared_of_aim h (checkHead_repairAsk_aimed kind origin hi)).trans (aimHead_of_other h other)
  · simp [selectNotice, h]
  · simp [selectNotice, h, leadInValue, State.station, Queued.body]

end Sys2Proof.Machine
end

section
/-! PROOF LAYER. The block store (R105, R106, R139): no operation but the opening of a stream reserves buffers. -/

namespace Sys2Proof.Machine

open Sys2Proof

/-- The streams of the station reserve at most n buffers (R106). -/
def State.ReservesAtMost (n : Nat) (s : State) : Prop := s.reserved ≤ n

section
variable {n : Nat} {s : State}

/-! ### Changes of one entry -/

/-- An operation that leaves every entry alone. -/
theorem State.ReservesAtMost.of_frame {t : State} (h : s.ReservesAtMost n) (frame : t.send = s.send ∧ t.recv = s.recv) :
    t.ReservesAtMost n := by
  unfold State.ReservesAtMost State.reserved
  rw [frame.1, frame.2]
  exact h

theorem State.ReservesAtMost.mapSend {p : Port} {f : SendEntry → SendEntry} (h : s.ReservesAtMost n)
    (hf : (f (s.send.get p)).reservation ≤ (s.send.get p).reservation) : (s.mapSend p f).ReservesAtMost n := by
  unfold State.ReservesAtMost State.reserved at h ⊢
  cases p <;> simp only [State.mapSend, PerPort.set, PerPort.get] at hf ⊢ <;> omega

theorem State.ReservesAtMost.mapRecv {p : Port} {f : RecvEntry → RecvEntry} (h : s.ReservesAtMost n)
    (hf : (f (s.recv.get p)).reservation ≤ (s.recv.get p).reservation) : (s.mapRecv p f).ReservesAtMost n := by
  unfold State.ReservesAtMost State.reserved at h ⊢
  cases p <;> simp only [State.mapRecv, PerPort.set, PerPort.get] at hf ⊢ <;> omega

/-- A change of every send entry. -/
theorem State.ReservesAtMost.mapSends {f : SendEntry → SendEntry} (h : s.ReservesAtMost n)
    (hf : ∀ e, (f e).reservation = e.reservation) : ({ s with send := s.send.map f } : State).ReservesAtMost n := by
  unfold State.ReservesAtMost State.reserved
  simp only [PerPort.map, hf]
  exact h

/-- The window class of an open stream stands until it closes, and with it the reservation (R139). -/
theorem State.ReservesAtMost.mapStream {p : Port} {f : RecvStream → RecvStream} (h : s.ReservesAtMost n)
    (hf : ∀ st, (f st).cls = st.cls) : (s.mapStream p f).ReservesAtMost n := by
  refine h.mapRecv (Nat.le_of_eq ?_)
  unfold RecvEntry.reservation
  cases (s.recv.get p).stream with
  | none => rfl
  | some st => exact congrArg WinClass.size (hf st)

/-! ### Sequences of operations -/

theorem foldl_reserves {α : Type} {f : State → α → State} {l : List α} (h : s.ReservesAtMost n)
    (hf : ∀ (t : State) (a : α), t.ReservesAtMost n → (f t a).ReservesAtMost n) : (l.foldl f s).ReservesAtMost n := by
  induction l generalizing s with
  | nil => exact h
  | cons a l ih => exact ih (hf s a h)

theorem forPorts_reserves {f : Port → State → State} (h : s.ReservesAtMost n)
    (hf : ∀ (p : Port) (t : State), t.ReservesAtMost n → (f p t).ReservesAtMost n) : (forPorts f s).ReservesAtMost n :=
  hf _ _ (hf _ _ (hf _ _ (hf _ _ h)))

theorem ite_reserves {c : Prop} [Decidable c] {t : State} (hs : c → s.ReservesAtMost n) (ht : ¬ c → t.ReservesAtMost n) :
    (if c then s else t).ReservesAtMost n := by
  split
  · exact hs (by assumption)
  · exact ht (by assumption)

theorem applyIf_reserves {c : Bool} {f : State → State} (h : s.ReservesAtMost n) (hf : (f s).ReservesAtMost n) :
    (applyIf c f s).ReservesAtMost n :=
  ite_reserves (fun _ => hf) (fun _ => h)

/-! ### The send entries -/

theorem giveEvent_reserves (e : Event) (h : s.ReservesAtMost n) : (giveEvent e s).ReservesAtMost n := h

theorem reply_reserves (code : ReplyCode) (content : ReplyContent) (h : s.ReservesAtMost n) :
    (reply code content s).ReservesAtMost n := h

theorem closeSend_reserves (p : Port) (h : s.ReservesAtMost n) : (closeSend p s).ReservesAtMost n := by
  unfold closeSend
  exact State.ReservesAtMost.mapSend h (Nat.zero_le _)

theorem offerRelease_reserves (p : Port) (h : s.ReservesAtMost n) : (offerRelease p s).ReservesAtMost n := by
  unfold offerRelease
  split
  · exact h
  · exact (h.of_frame (t := offer _ s) (by simp)).mapSend le_rfl

theorem claimCommitted_reserves (p : Port) (q : Queued) (outcome : OutcomeRecord) (atRoundStart : Bool) (h : s.ReservesAtMost n) :
    (claimCommitted p q outcome atRoundStart s).ReservesAtMost n := by
  unfold claimCommitted
  dsimp only
  split
  · next claiming => exact giveEvent_reserves _ (h.mapSend (by simp [SendEntry.reservation, claiming]))
  · have taken : (s.mapSend p (fun e => { e with
        claimRun := if atRoundStart then none else some q.run, slotRun := if atRoundStart then some q.run else none,
        releaseDue := true })).ReservesAtMost n := h.mapSend le_rfl
    exact ite_reserves (fun _ => offerRelease_reserves p taken) (fun _ => taken)
  all_goals exact h

theorem claimRefused_reserves (p : Port) (reason : RefuseReason) (outcome : OutcomeRecord) (h : s.ReservesAtMost n) :
    (claimRefused p reason outcome s).ReservesAtMost n := by
  unfold claimRefused
  split
  iterate 2 exact giveEvent_reserves _ (closeSend_reserves p h)
  all_goals exact h

theorem withdrawnEnds_reserves (q : Queued) (outcome : OutcomeRecord) (h : s.ReservesAtMost n) :
    (withdrawnEnds q outcome s).ReservesAtMost n := by
  unfold withdrawnEnds
  split
  · unfold claimNotCommitted
    split
    · exact giveEvent_reserves _ (closeSend_reserves _ h)
    all_goals exact h
  · exact h

theorem endFlightLost_reserves (h : s.ReservesAtMost n) : (endFlightLost s).ReservesAtMost n := by
  unfold endFlightLost
  split
  · exact h
  · exact ite_reserves (fun _ => withdrawnEnds_reserves (s := removeInFlight s) _ _ h) (fun _ => h)

theorem endFlightOnLeaving_reserves (h : s.ReservesAtMost n) : (endFlightOnLeaving s).ReservesAtMost n :=
  ite_reserves (c := s.completed = true) (fun _ => h.of_frame (by simp)) (fun _ => endFlightLost_reserves h)

/-! ### Modes and lane states -/

theorem changeMode_reserves (m : Mode) (cause : ModeCause) (h : s.ReservesAtMost n) : (changeMode m cause s).ReservesAtMost n :=
  h.of_frame (by simp)

theorem enterDark_reserves (back : Mode) (h : s.ReservesAtMost n) : (enterDark back s).ReservesAtMost n :=
  (endFlightOnLeaving_reserves (s := discardLearning s) h).of_frame (by simp [enterDark])

theorem enterFaulted_reserves (reason : FaultReason) (cause : ModeCause) (h : s.ReservesAtMost n) :
    (enterFaulted reason cause s).ReservesAtMost n :=
  (endFlightOnLeaving_reserves (s := discardLearning s) h).of_frame (by simp [enterFaulted])

theorem laneChanged_reserves (wasDark : Bool) (h : s.ReservesAtMost n) : (laneChanged wasDark s).ReservesAtMost n := by
  have mute : (dropTurnIfMute s).ReservesAtMost n := h.of_frame (by simp)
  have onset : (darkOnset (dropTurnIfMute s)).ReservesAtMost n := by
    unfold darkOnset
    split
    iterate 3 exact enterDark_reserves _ mute
    all_goals exact mute
  exact ite_reserves (fun _ => onset) (fun _ => ite_reserves (fun _ => mute.of_frame (by simp)) (fun _ => mute))

theorem enterSurge_reserves (l : LaneId) (cause : SurgeCause) (h : s.ReservesAtMost n) : (enterSurge l cause s).ReservesAtMost n :=
  laneChanged_reserves _ h

theorem judgeWindow_reserves (l : LaneId) (h : s.ReservesAtMost n) : (judgeWindow l s).ReservesAtMost n := by
  unfold judgeWindow
  dsimp only
  split
  · exact h
  · exact ite_reserves (fun _ => h.of_frame (by simp)) (fun _ => h)
  · exact ite_reserves (fun _ => enterSurge_reserves _ _ h) (fun _ => h.of_frame (by simp))
  · exact ite_reserves (fun _ => laneChanged_reserves _ h) (fun _ => h)
  · exact ite_reserves (fun _ => enterSurge_reserves _ _ h) (fun _ => h.of_frame (by simp))

theorem closeWindow_reserves (l : LaneId) (run : Nat) (h : s.ReservesAtMost n) : (closeWindow l run s).ReservesAtMost n :=
  ite_reserves (fun _ => judgeWindow_reserves (s := s.mapLane l (Lane.readRun run)) l h) (fun _ => h)

theorem closeBoth_reserves (first : LaneId) (runA runB : Nat) (h : s.ReservesAtMost n) :
    (closeBoth first runA runB s).ReservesAtMost n := by
  cases first
  · exact closeWindow_reserves .b runB (closeWindow_reserves .a runA h)
  · exact closeWindow_reserves .a runA (closeWindow_reserves .b runB h)

theorem longRunOn_reserves (l : LaneId) (h : s.ReservesAtMost n) : (longRunOn l s).ReservesAtMost n := by
  unfold longRunOn
  dsimp only
  split
  · exact h
  iterate 3 exact enterSurge_reserves (s := s.mapLane l _) _ _ h
  · split <;> exact h

theorem echoLateOn_reserves (l : LaneId) (h : s.ReservesAtMost n) : (echoLateOn l s).ReservesAtMost n :=
  ite_reserves (fun _ => h) (fun _ => enterSurge_reserves (s := s.mapLane l _) l .echoLate h)

theorem driveFaultOn_reserves (l : LaneId) (h : s.ReservesAtMost n) : (driveFaultOn l s).ReservesAtMost n :=
  ite_reserves (fun _ => enterSurge_reserves (s := withdrawAll (s.mapLane l _)) l .drive h) (fun _ => h)

/-! ### Changes of the live table -/

theorem checkSend_reserves (p : Port) (h : s.ReservesAtMost n) : (checkSend p s).ReservesAtMost n := by
  have closes : ∀ e, (giveEvent e (closeSend p s)).ReservesAtMost n := fun _ => closeSend_reserves p h
  unfold checkSend
  dsimp only
  split
  iterate 3
    · split
      · exact ite_reserves (fun _ => h) (fun _ => closes _)
      · exact h
  all_goals exact h

theorem checkRecv_reserves (p : Port) (h : s.ReservesAtMost n) : (checkRecv p s).ReservesAtMost n := by
  have changed : ∀ f : RecvStream → RecvStream, (∀ st, (f st).cls = st.cls) → (s.mapStream p f).ReservesAtMost n :=
    fun _ hf => h.mapStream hf
  unfold checkRecv
  split
  · exact h
  · exact ite_reserves (fun _ => changed _ fun _ => rfl) (fun _ => ite_reserves (fun _ => changed _ fun _ => rfl) (fun _ => h))

theorem tableChanged_reserves (sendFirst : Bool) (h : s.ReservesAtMost n) : (tableChanged sendFirst s).ReservesAtMost n :=
  ite_reserves
    (fun _ => forPorts_reserves (forPorts_reserves h (fun p _ => checkSend_reserves p)) (fun p _ => checkRecv_reserves p))
    (fun _ => forPorts_reserves (forPorts_reserves h (fun p _ => checkRecv_reserves p)) (fun p _ => checkSend_reserves p))

/-! ### The receive engine -/

theorem RecvStream.addManyMissing_cls (now : Round) (a : Anchor) (k : Nat) (st : RecvStream) :
    (RecvStream.addManyMissing now a k st).cls = st.cls := by
  induction k generalizing st with
  | zero => rfl
  | succ k ih => exact ih _

theorem RecvStream.fill_cls (a : Anchor) (b : Block) (st : RecvStream) : (st.fill a b).cls = st.cls := by
  unfold RecvStream.fill
  (repeat' split) <;> rfl

theorem takeStanding_reserves (p : Port) (b : Block) (h : s.ReservesAtMost n) : (takeStanding p b s).ReservesAtMost n := by
  unfold takeStanding
  split
  · exact h
  · split
    · exact h
    · refine ite_reserves (fun _ => ite_reserves (fun _ => ?_) (fun _ => ite_reserves (fun _ => ?_) (fun _ => h))) (fun _ => ?_)
      · exact h.mapStream (fun st => RecvStream.addManyMissing_cls _ _ _ st)
      · exact State.ReservesAtMost.mapStream h (fun _ => rfl)
      · exact ite_reserves (fun _ => h.mapStream (RecvStream.fill_cls _ b)) (fun _ => h)

theorem takeBlock_reserves (p : Port) (b : Block) (h : s.ReservesAtMost n) : (takeBlock p b s).ReservesAtMost n := by
  have changed : ∀ f : RecvStream → RecvStream, (∀ st, (f st).cls = st.cls) → (s.mapStream p f).ReservesAtMost n :=
    fun _ hf => h.mapStream hf
  unfold takeBlock
  split
  · exact h
  · split
    · exact takeStanding_reserves _ _ (changed _ fun _ => rfl)
    · exact takeStanding_reserves _ _ (ite_reserves (fun _ => h) (fun _ => changed _ fun _ => rfl))

theorem markMissing_reserves (p : Port) (h : s.ReservesAtMost n) : (markMissing p s).ReservesAtMost n := by
  refine h.mapStream (fun st => ?_)
  (repeat' split) <;> rfl

theorem takeResents_reserves (m : Copy Block) (h : s.ReservesAtMost n) : (takeResents m s).ReservesAtMost n := by
  cases m with
  | valid b =>
    refine forPorts_reserves h (fun p t ht => State.ReservesAtMost.mapStream ht (fun st => ?_))
    (repeat' split)
    · exact RecvStream.fill_cls _ b st
    all_goals rfl
  | erased => exact h
  | idle => exact h

theorem servePass_reserves (k : Nat) (m : Copy Block) (p : Port) (h : s.ReservesAtMost n) : (servePass k m p s).ReservesAtMost n := by
  have missing := markMissing_reserves p h
  unfold servePass
  split
  · exact h
  · split
    · refine ite_reserves (fun _ => ?_) (fun _ => h)
      split
      · exact ite_reserves (fun _ => takeBlock_reserves p _ h) (fun _ => missing)
      all_goals exact missing
    all_goals exact h

theorem handItem_reserves (p : Port) (seq : Seq) (item : OutItem) (h : s.ReservesAtMost n) :
    (handItem p seq item s).ReservesAtMost n := by
  have changed : ∀ f : RecvEntry → RecvEntry, (∀ e, (f e).stream = e.stream) → (s.mapRecv p f).ReservesAtMost n := by
    intro f hf
    refine h.mapRecv (Nat.le_of_eq ?_)
    unfold RecvEntry.reservation
    rw [hf]
  exact ite_reserves (fun _ => changed _ fun _ => rfl)
    (fun _ => ite_reserves (fun _ => h) (fun _ => giveEvent_reserves _ (changed _ fun _ => rfl)))

theorem playout_reserves (p : Port) (h : s.ReservesAtMost n) : (playout p s).ReservesAtMost n := by
  unfold playout
  split
  · exact h
  · split
    · exact h
    · refine foldl_reserves (foldl_reserves (h.mapStream fun _ => rfl) fun t pl ht => ?_) fun _ _ ht => ht
      unfold playPlace
      split
      · exact ht
      all_goals exact handItem_reserves _ _ _ ht

theorem endWaits_reserves (p : Port) (h : s.ReservesAtMost n) : (endWaits p s).ReservesAtMost n := by
  unfold endWaits
  split
  · exact h
  · exact foldl_reserves (h.mapStream fun _ => rfl) fun _ _ ht => ht

/-! ### The steps of a round start -/

theorem countRounds_reserves (ctx : RoundCtx) (h : s.ReservesAtMost n) : (countRounds ctx s).ReservesAtMost n := by
  have started : ∀ u : State, u.ReservesAtMost n → (endStarting u).ReservesAtMost n := fun u hu =>
    ite_reserves (fun _ => enterFaulted_reserves _ _ (s := { u with ctrl := _ }) hu)
      (fun _ => ite_reserves (fun _ => enterDark_reserves _ (s := { u with ctrl := _ }) hu) (fun _ => hu.of_frame (by simp)))
  have alone : ∀ u : State, u.ReservesAtMost n → (reachAloneLimit ctx.sendFirst u).ReservesAtMost n :=
    fun u hu => changeMode_reserves _ _ (tableChanged_reserves ctx.sendFirst (s := { setAllOpen u with ctrl := _ }) hu)
  unfold countRounds
  split
  · exact ite_reserves (fun _ => started _ h) (fun _ => h)
  · split
    · exact ite_reserves (fun _ => ite_reserves (fun _ => alone _ h) (fun _ => h)) (fun _ => h)
    · exact h
  all_goals exact h

theorem settlePending_reserves (h : s.ReservesAtMost n) : (settlePending s).ReservesAtMost n := by
  have without : (s.mapQueue (fun l => l.filter (fun x => !x.pending))).ReservesAtMost n := h
  unfold settlePending
  split
  · exact h
  · refine ite_reserves (fun _ => ?_) (fun _ => ite_reserves (fun _ => withdrawnEnds_reserves _ _ without) (fun _ => h))
    split
    · exact claimCommitted_reserves _ _ _ _ without
    all_goals exact h

theorem warmRejoin_reserves (h : s.ReservesAtMost n) : (warmRejoin s).ReservesAtMost n := by
  refine ite_reserves (fun _ => ?_) (fun _ => h)
  exact foldl_reserves (f := fun s (r : ContextRecord) => s.mapSend r.port (fun _ => r.heldEntry)) h
    (fun _ _ ht => ht.mapSend (Nat.zero_le _))

theorem learnRound_reserves (ctx : RoundCtx) (h : s.ReservesAtMost n) : (learnRound ctx s).ReservesAtMost n := by
  unfold learnRound
  split
  · exact h
  · next L hL =>
    refine ite_reserves (fun _ => ?_) (fun _ => h)
    have settled := settlePending_reserves
      (tableChanged_reserves ctx.sendFirst (s := replaceTable { L with rounds := L.rounds + 1 } s) h)
    have rejoined := ite_reserves (c := (ctx.mode == .listening) = true) (fun _ => warmRejoin_reserves settled) (fun _ => settled)
    refine rejoined.of_frame ?_
    unfold completeLearning
    dsimp only
    split <;> simp [formOrphans]

theorem takeRuns_reserves (p : Port) (h : s.ReservesAtMost n) : (takeRuns p s).ReservesAtMost n := by
  have taken : (s.mapSend p SendEntry.takeSlotRun).ReservesAtMost n := by
    refine h.mapSend (Nat.le_of_eq ?_)
    unfold SendEntry.takeSlotRun
    split <;> rfl
  unfold takeRuns
  split
  · exact taken
  · exact ite_reserves (fun _ => offerRelease_reserves p taken) (fun _ => h)
  all_goals exact h

theorem heldRound_reserves (p : Port) (h : s.ReservesAtMost n) : (heldRound p s).ReservesAtMost n := by
  have released : (s.mapSend p (fun e => { e with
      state := .releasing, releasePath := some .fromHeld, heldRounds := none })).ReservesAtMost n := h.mapSend (Nat.zero_le _)
  unfold heldRound
  dsimp only
  split
  · exact ite_reserves (fun _ => h.mapSend le_rfl) (fun _ => offerRelease_reserves p released)
  · exact h

theorem refuseQueued_reserves (reason : RefuseReason) (q : Queued) (h : s.ReservesAtMost n) :
    (refuseQueued reason s q).ReservesAtMost n := by
  unfold refuseQueued
  split
  · exact claimRefused_reserves _ _ _ h
  all_goals exact h

theorem revalidate_reserves (fuel : Nat) (h : s.ReservesAtMost n) : (revalidate fuel s).ReservesAtMost n := by
  induction fuel generalizing s with
  | zero => exact h
  | succ fuel ih =>
    unfold revalidate
    split
    · exact h
    · split
      · exact h
      · unfold aimHead
        dsimp only
        split
        · exact State.ReservesAtMost.mapSend h le_rfl
        · exact h
      · exact ih (ite_reserves (fun _ => refuseQueued_reserves (s := s.mapQueue List.tail) _ _ h) (fun _ => h))

theorem roundStep_reserves (ctx : RoundCtx) (step : RoundStep) (h : s.ReservesAtMost n) : (roundStep ctx s step).ReservesAtMost n := by
  cases step with
  | monitors => exact h.of_frame (by simp [roundStep])
  | heard => exact h
  | playout => exact forPorts_reserves h (fun p _ => playout_reserves p)
  | askWaits => exact forPorts_reserves h (fun p _ => endWaits_reserves p)
  | counts => exact countRounds_reserves ctx h
  | learning => exact learnRound_reserves ctx h
  | runs => exact forPorts_reserves h (fun p _ => takeRuns_reserves p)
  | held => exact applyIf_reserves h (forPorts_reserves h (fun p _ => heldRound_reserves p))
  | reclaims => exact applyIf_reserves h (h.of_frame (by simp))
  | asker => exact applyIf_reserves h (h.of_frame (by simp))
  | claimLimit => exact applyIf_reserves h (foldl_reserves (s := s.mapQueue _) h (fun _ q => refuseQueued_reserves _ q))
  | revalidate => exact applyIf_reserves h (revalidate_reserves _ h)
  | select => exact applyIf_reserves h (h.of_frame (by simp))
  | orphans => exact h.of_frame (by simp [roundStep])
  | rewrite => exact applyIf_reserves h h

theorem startRound_reserves (order : RoundOrder) (expiry : Bool) (r : Nat) (h : s.ReservesAtMost n) :
    (startRound order expiry r s).ReservesAtMost n :=
  foldl_reserves (s := openRound r s) (h.mapSends (f := fun e => { e with served := none }) fun _ => rfl)
    (fun _ step => roundStep_reserves _ step)

end

end Sys2Proof.Machine
end

section
/-! PROOF LAYER. Every step keeps the block store within its 4096 buffers (R106): the round clock, the closes of the fields, the slots, the
requests and the resets. -/

namespace Sys2Proof.Machine

open Sys2Proof

section
variable {n : Nat} {s : State}

/-! ### The round clock -/

theorem reach_reserves (r : Nat) (h : s.ReservesAtMost n) : (reach r s).ReservesAtMost n := h.of_frame (by simp)

theorem tellLevels_reserves (a b : LevelShown) (h : s.ReservesAtMost n) : (tellLevels a b s).ReservesAtMost n := h

theorem loseAnswers_reserves (h : s.ReservesAtMost n) : (loseAnswers s).ReservesAtMost n := by
  have unread : (recordUnread { s with notices := { s.notices with tentative := none } }).ReservesAtMost n := h
  have ended : ∀ u : State, u.ReservesAtMost n → (if s.completed then endFlightUnanswered u else endFlightLost u).ReservesAtMost n :=
    fun u hu => ite_reserves (fun _ => hu.of_frame (by simp)) (fun _ => endFlightLost_reserves hu)
  exact applyIf_reserves (ended _ unread) ((ended _ unread).of_frame (by simp))

theorem cutShort_reserves (h : s.ReservesAtMost n) : (cutShort s).ReservesAtMost n :=
  ite_reserves (c := s.awaitsAnswers = true) (fun _ => loseAnswers_reserves (h.of_frame (by simp))) (fun _ => endFlightLost_reserves h)

theorem adoptMark_reserves (l : LaneId) (x : Search) (second : MarkReading) (leadInFirst : Bool) (order : RoundOrder)
    (h : s.ReservesAtMost n) : (adoptMark l x second leadInFirst order s).ReservesAtMost n := by
  have told : (tellAdoption l second (reach x.completesAt s)).ReservesAtMost n := h.of_frame (by simp)
  have adopted := ite_reserves (c := x.crossed = true) (fun _ => told)
    (fun _ => startRound_reserves order false (tellAdoption l second (reach x.completesAt s)).clock.timer (cutShort_reserves told))
  cases l
  iterate 2 exact adopted.of_frame (by simp [adoptMark])

theorem expire_reserves (order : RoundOrder) (h : s.ReservesAtMost n) : (expire order s).ReservesAtMost n :=
  (startRound_reserves order true Config.roundUnits (reach_reserves Config.roundUnits h)).of_frame (by simp [expire])

theorem startAtEdge_reserves (l : LaneId) (r : Nat) (order : RoundOrder) (h : s.ReservesAtMost n) :
    (startAtEdge l r order s).ReservesAtMost n :=
  startRound_reserves order false r (s := { (reach r s).mapLane l Lane.beginRun with clock := _ }) (reach_reserves r h)

/-! ### The lead-ins, the closes of the fields, and the slots -/

theorem endLeadIn_reserves (field : LeadInField) (h : s.ReservesAtMost n) : (endLeadIn field s).ReservesAtMost n := by
  refine dated_cases (P := State.ReservesAtMost n) (fun _ => ?_) h
  have reached := reach_reserves (leadInEnd field) h
  cases field with
  | noticeWindow =>
    unfold noticeOutcome
    dsimp only
    split
    · exact reached
    · exact ite_reserves (fun _ => reached) (fun _ => ite_reserves (fun _ => reached.of_frame (by simp))
        (fun _ => endFlightLost_reserves (s := { reach _ s with drive := _ }) reached))
  | repairWindow => exact reached.of_frame (by simp)

theorem duplicateIf_reserves {c : Prop} [Decidable c] (h : s.ReservesAtMost n) :
    (if c then enterFaulted .duplicate .duplicate s else s).ReservesAtMost n :=
  ite_reserves (fun _ => enterFaulted_reserves _ _ h) (fun _ => h)

theorem noticeStep_reserves (wasJoined : Bool) (m : MergedNotice) (first : LaneId) (step : CloseStep) (h : s.ReservesAtMost n) :
    (noticeStep wasJoined m first s step).ReservesAtMost n := by
  cases step with
  | slotTable => exact h.of_frame (by simp [noticeStep])
  | noticeEngine => exact h.of_frame (by simp [noticeStep])
  | controller => exact duplicateIf_reserves h

theorem closeNotice_reserves (a b : NoticeReading) (order : CloseOrder) (h : s.ReservesAtMost n) :
    (closeNotice a b order s).ReservesAtMost n := by
  have flown := ite_reserves (c := s.completed = true) (fun _ => h.of_frame (t := recordSent s) (by simp))
    (fun _ => endFlightLost_reserves h)
  have told := tellLevels_reserves a.levelShown b.levelShown flown
  have taken := fun wasJoined => foldl_reserves (l := order.steps) told
    (fun _ step => noticeStep_reserves wasJoined (s.mergedNotice a b) order.first step)
  exact (taken ((if s.completed then recordSent s else endFlightLost s).ctrl.mode == .joined)).of_frame (by simp [closeNotice])

theorem senderCommitted_reserves (q : Queued) (h : s.ReservesAtMost n) : (senderCommitted q s).ReservesAtMost n := by
  have removed : (removeInFlight s).ReservesAtMost n := h
  unfold senderCommitted
  dsimp only
  split
  · exact claimCommitted_reserves _ _ _ _ removed
  · exact ite_reserves (fun _ => giveEvent_reserves _ (closeSend_reserves _ removed)) (fun _ => h)
  · exact h

theorem senderDissented_reserves (q : Queued) (h : s.ReservesAtMost n) : (senderDissented q s).ReservesAtMost n := by
  have removed : (removeInFlight s).ReservesAtMost n := h
  unfold senderDissented
  dsimp only
  split
  · exact ite_reserves (fun _ => h) (fun _ => refuseQueued_reserves _ _ removed)
  · refine ite_reserves (fun _ => h) (fun _ => ?_)
    unfold releaseRefused
    split
    · exact ite_reserves (fun _ => giveEvent_reserves _ (removed.mapSend le_rfl)) (fun _ => h)
    all_goals exact h
  all_goals exact h

theorem askOutcome_reserves (q : Queued) (ans : AnswerRecord) (h : s.ReservesAtMost n) : (askOutcome q ans s).ReservesAtMost n := by
  have changed : ∀ (p : Port) (f : RecvStream → RecvStream), (∀ st, (f st).cls = st.cls) →
      ((removeInFlight s).mapStream p f).ReservesAtMost n := fun _ _ hf => State.ReservesAtMost.mapStream h hf
  unfold askOutcome
  dsimp only
  split
  · exact ite_reserves (fun _ => h) (fun _ => ite_reserves (fun _ => changed _ _ fun _ => rfl)
      (fun _ => ite_reserves (fun _ => giveEvent_reserves _ (changed _ _ fun _ => rfl)) (fun _ => h)))
  all_goals exact h

theorem senderOutcome_reserves (committed : Bool) (ans : AnswerRecord) (h : s.ReservesAtMost n) :
    (senderOutcome committed ans s).ReservesAtMost n := by
  unfold senderOutcome
  split
  · exact h
  · split
    · exact askOutcome_reserves _ _ h
    · exact ite_reserves (fun _ => senderCommitted_reserves _ h) (fun _ => ite_reserves
        (fun _ => withdrawnEnds_reserves (s := removeInFlight s) _ _ h) (fun _ => senderDissented_reserves _ h))

theorem takeAnswers_reserves (ans : AnswerRecord) (sendFirst : Bool) (h : s.ReservesAtMost n) :
    (takeAnswers ans sendFirst s).ReservesAtMost n := by
  have heard : (applyIf s.notices.rollCall (hearRollCall ans) s).ReservesAtMost n := applyIf_reserves h h
  unfold takeAnswers
  dsimp only
  split
  · next t _ =>
    have committed : (commitChange t (applyIf s.notices.rollCall (hearRollCall ans) s)).ReservesAtMost n := heard
    exact ite_reserves (fun _ => applyIf_reserves heard (senderOutcome_reserves _ _ heard))
      (fun _ => tableChanged_reserves _ (applyIf_reserves committed (senderOutcome_reserves _ _ committed)))
  · exact applyIf_reserves heard (senderOutcome_reserves _ _ heard)

theorem closeAnswers_reserves (a b : AnswerReading) (sendFirst : Bool) (h : s.ReservesAtMost n) :
    (closeAnswers a b sendFirst s).ReservesAtMost n := by
  have recorded : ({ tellLevels a.levelShown b.levelShown s with
      notices := { (tellLevels a.levelShown b.levelShown s).notices with
        lastAnswer := some (mergeAnswers s.lanes a b) } } : State).ReservesAtMost n := h
  exact ite_reserves (c := (mergeAnswers s.lanes a b).read = true) (fun _ => takeAnswers_reserves _ sendFirst recorded)
    (fun _ => loseAnswers_reserves recorded)

theorem closeRepair_reserves (a b : BlockReading) (h : s.ReservesAtMost n) : (closeRepair a b s).ReservesAtMost n := by
  have counted : (countHeader .b b (countHeader .a a s)).ReservesAtMost n := h.of_frame (by simp)
  have told := tellLevels_reserves (a.levelShown 1400) (b.levelShown 1400) counted
  have learned := told.of_frame (t := learnHeader (s.mergedBlock false a b).copy (takeHeader (s.mergedBlock false a b).copy
    (tellLevels (a.levelShown 1400) (b.levelShown 1400) (countHeader .b b (countHeader .a a s))))) (by simp)
  exact takeResents_reserves (s.mergedBlock false a b).copy learned

theorem buildBlock_reserves (k : Nat) (p : Port) (h : s.ReservesAtMost n) : (buildBlock k p s).ReservesAtMost n := by
  have served : (s.mapSend p (fun e => { e with served := some k })).ReservesAtMost n := h.mapSend le_rfl
  have taken : ∀ (ring : List Retained) (fifo : List PortBlock), ((s.mapSend p (fun e => { e with served := some k })).mapSend p
      (fun x => { x with ring := ring, fifo := fifo })).ReservesAtMost n := fun _ _ => served.mapSend le_rfl
  unfold buildBlock
  dsimp only
  refine ite_reserves (fun _ => ?_) (fun _ => served)
  split
  · exact ite_reserves (fun _ => served) (fun _ => taken _ _)
  · exact taken _ _

theorem startSlot_reserves (k : Nat) (h : s.ReservesAtMost n) : (startSlot k s).ReservesAtMost n := by
  unfold startSlot
  split
  · exact buildBlock_reserves _ _ h
  · exact h.of_frame (by simp)

theorem advanceSend_reservation (mode : Mode) (k : Nat) (e : SendEntry) : (advanceSend mode k e).reservation = e.reservation := by
  unfold advanceSend
  split <;> rfl

theorem passStep_reserves (k : Nat) (m : MergedBlock) (step : PassStep) (h : s.ReservesAtMost n) :
    (passStep k m s step).ReservesAtMost n := by
  cases step with
  | slotTable => exact h.of_frame (by simp [passStep])
  | sendEngine => exact h.mapSends (advanceSend_reservation _ _)
  | receiveEngine => exact takeResents_reserves _ (forPorts_reserves h (fun p _ => servePass_reserves _ _ p))
  | controller =>
    unfold passStep controllerAtPass
    dsimp only
    split
    · exact duplicateIf_reserves h
    all_goals exact h

theorem passSlot_reserves (k : Nat) (a b : BlockReading) (order : List PassStep) (h : s.ReservesAtMost n) :
    (passSlot k a b order s).ReservesAtMost n := by
  have told : (tellLevels (a.levelShown 800) (b.levelShown 800) (countHeader .b b (countHeader .a a s))).ReservesAtMost n :=
    h.of_frame (by simp)
  exact foldl_reserves told (fun _ step => passStep_reserves _ _ step)

/-! ### The in halves of the ports -/

theorem takeLength_reserves (p : Port) (value : Nat) (h : s.ReservesAtMost n) : (takeLength p value s).ReservesAtMost n := by
  have opened : (s.mapSend p (openAssembly value)).ReservesAtMost n := h.mapSend le_rfl
  exact ite_reserves (fun _ => h) (fun _ => ite_reserves (fun _ => giveEvent_reserves _ opened) (fun _ => opened))

theorem takeByte_reserves (p : Port) (byte : Byte) (h : s.ReservesAtMost n) : (takeByte p byte s).ReservesAtMost n := by
  unfold takeByte
  split
  · refine h.mapSend (Nat.le_of_eq ?_)
    unfold appendByte
    dsimp only
    split <;> rfl
  · exact ite_reserves (fun _ => h) (fun _ => giveEvent_reserves _ (h.mapSend le_rfl))

/-! ### CLOSE -/

/-- A stream that is being released reserves what it did, and nothing if it was HELD (R105, R120). -/
theorem SendEntry.releasing_reservation {e : SendEntry} {path : ReleasePath}
    (h : e.state = .claiming ∨ e.state = .live ∨ path = .fromHeld) : (e.releasing path).reservation ≤ e.reservation := by
  unfold SendEntry.reservation SendEntry.releasing
  rcases h with state | state | rfl
  · simp only [state]
    split <;> simp
  · simp only [state]
    split <;> simp
  · simp

theorem closeEntry_reserves (entry : Byte) (h : s.ReservesAtMost n) : (closeEntry entry s).ReservesAtMost n := by
  have holding : ∀ (p : Port) (path : ReleasePath), (s.send.get p).state = .live ∨ path = .fromHeld →
      (closeHolding p path s).ReservesAtMost n := by
    intro p path hp
    have leaving : (s.mapSend p (fun e => e.releasing path)).ReservesAtMost n :=
      h.mapSend (SendEntry.releasing_reservation (.inr hp))
    exact ite_reserves (c := ((s.mapSend p (fun e => e.releasing path)).send.get p).slotRun.isSome = true)
      (fun _ => offerRelease_reserves p leaving) (fun _ => leaving.mapSend le_rfl)
  unfold closeEntry
  split
  · next p _ =>
    unfold closeSendEntry
    split
    iterate 2 exact h
    · next state =>
      have queued : ∀ f : List Queued → List Queued, (s.mapQueue f).ReservesAtMost n := fun _ => h
      exact ite_reserves (fun _ => reply_reserves _ _ ((queued _).mapSend (SendEntry.releasing_reservation (.inl state))))
        (fun _ => reply_reserves _ _ (closeSend_reserves p (queued _)))
    · next state => exact holding _ _ (.inl state)
    · exact holding _ _ (.inr rfl)
  · next p _ =>
    unfold closeRecvEntry
    split
    · exact h
    · have withdrawn : (withdrawAsk p s).ReservesAtMost n := h
      exact reply_reserves _ _ (withdrawn.mapRecv (Nat.zero_le _))
  · exact h

end

/-! ### The opening of a stream -/

/-- A send entry that reserved nothing takes the buffers of its class where the block store has room for them (R105, R106). -/
theorem openSend_storeFits (port count cls priority : Byte) {s : State} (h : s.StoreFits) :
    (openSend port count cls priority s).StoreFits := by
  unfold openSend
  refine ite_reserves (fun _ => h) (fun _ => ?_)
  split
  · next p k c level _ _ _ _ =>
    dsimp only
    refine ite_reserves (fun _ => h) (fun shut => ite_reserves (fun _ => h) (fun room => ?_))
    have fits : s.reserved + c.size ≤ 4096 := Nat.not_lt.mp room
    have free : (s.send.get p).reservation = 0 := by
      unfold SendEntry.reservation
      cases state : (s.send.get p).state <;> simp [state] at shut ⊢
    refine ite_reserves (fun _ => ?_) (fun _ => ?_)
    · have adopted : (adoptHeld p c level s).reserved = s.reserved + ((s.send.get p).adopted c level).reservation :=
        reserved_of_set rfl rfl free
      exact adopted.trans_le fits
    · unfold claimSlots
      split
      · exact h
      · next run _ =>
        have claimed : (reply .started .none ((offer (claimNotice s p level run) s).mapSend p
            (fun e => e.claiming c level run))).reserved = s.reserved + ((s.send.get p).claiming c level run).reservation :=
          reserved_of_set (by simp) (by simp) free
        exact ite_reserves (fun _ => claimed.trans_le fits) (fun _ => h)
  · exact h

/-- The block store after one receive entry has changed (R106). -/
theorem reserved_of_setRecv {s t : State} {p : Port} {e : RecvEntry} (send : t.send = s.send) (recv : t.recv = s.recv.set p e)
    (free : (s.recv.get p).reservation = 0) : t.reserved = s.reserved + e.reservation := by
  unfold State.reserved
  rw [send, recv]
  cases p <;> simp only [PerPort.get] at free <;> simp only [PerPort.set, free] <;> omega

theorem openReceive_storeFits (port tag : Byte) (delay : BitVec 16) (cls : Byte) {s : State} (h : s.StoreFits) :
    (openReceive port tag delay cls s).StoreFits := by
  unfold openReceive
  refine ite_reserves (fun _ => h) (fun _ => ?_)
  split
  · next p t d w _ _ _ _ =>
    refine ite_reserves (fun _ => h) (fun shut => ite_reserves (fun _ => h) (fun _ => ite_reserves (fun _ => h) (fun room => ?_)))
    have fits : s.reserved + w.size ≤ 4096 := Nat.not_lt.mp room
    have free : (s.recv.get p).reservation = 0 := by
      unfold RecvEntry.reservation
      cases stream : (s.recv.get p).stream <;> simp [stream] at shut ⊢
    have opened : (s.mapRecv p (fun _ => { stream := some (newStream s t d w), out := [], overflow := false })).reserved
        = s.reserved + w.size :=
      reserved_of_setRecv (e := { stream := some (newStream s t d w), out := [], overflow := false }) rfl rfl free
    exact reply_reserves _ _ (opened.trans_le fits)
  · exact h

/-! ### Every command -/

section
variable {n : Nat} {s t : State} {f : State → State}

theorem running_reserves (h : s.ReservesAtMost n) (e : running f s = .next t) (hf : (f s).ReservesAtMost n) : t.ReservesAtMost n := by
  obtain ⟨rfl, -⟩ | ⟨rfl, -⟩ := running_next e
  · exact h
  · exact hf

theorem request_reserves (h : s.ReservesAtMost n) (e : request f s = .next t) (hf : (f s).ReservesAtMost n) : t.ReservesAtMost n := by
  obtain rfl | ⟨rfl, -⟩ := request_next e
  · exact h
  · exact hf

/-- A command that comes at a reading. -/
theorem dated_reserves {r : Nat} (h : s.ReservesAtMost n) (e : running (dated r f) s = .next t)
    (hf : ∀ u : State, u.ReservesAtMost n → (f u).ReservesAtMost n) : t.ReservesAtMost n :=
  running_reserves h e (dated_cases (P := State.ReservesAtMost n) (fun _ => hf _ (reach_reserves r h)) h)

theorem fieldEvent_reserves {k : Nat} (h : s.ReservesAtMost n) (e : running (fieldEvent k f) s = .next t)
    (hf : ∀ u : State, u.ReservesAtMost n → (f u).ReservesAtMost n) : t.ReservesAtMost n :=
  running_reserves h e (fieldEvent_cases (P := State.ReservesAtMost n) (fun _ => hf _ (h.of_frame (by simp))) h)

end

theorem cleared_storeFits (hold : ResetHold) (o : OptionWord) (c : Context) (pending : List Instr) :
    (State.cleared hold o c pending).StoreFits := Nat.zero_le 4096

theorem exec_storeFits {c : Instr} {s t : State} (h : s.StoreFits) (e : exec c s = .next t) : t.StoreFits := by
  cases c with
  | openSend port count cls priority => exact request_reserves h e (openSend_storeFits _ _ _ _ h)
  | openReceive port tag delay cls => exact request_reserves h e (openReceive_storeFits _ _ _ _ h)
  | close entry => exact request_reserves h e (closeEntry_reserves entry h)
  | readStream entry => exact request_reserves h e (State.ReservesAtMost.of_frame h (by simp))
  | readLanes => exact request_reserves h e h
  | readSlot slot => exact request_reserves h e (State.ReservesAtMost.of_frame h (by simp))
  | readStation => exact request_reserves h e h
  | takeEvents n => exact request_reserves h e (State.ReservesAtMost.of_frame h (by simp))
  | setAlertMask causes => exact request_reserves (f := fun s => reply .done .none (setMask (causesOf causes) s)) h e h
  | clearAlert causes => exact request_reserves (f := fun s => reply .done .none (clearCauses (causesOf causes) s)) h e h
  | holdLane lane hold => exact request_reserves h e (State.ReservesAtMost.of_frame h (by simp))
  | unknownRequestKind kind => exact request_reserves h (checked_next e).2 h
  | frameDiscarded flaw =>
    obtain rfl := Host.Outcome.next.inj e
    exact h
  | frameIdleTimeout =>
    obtain rfl := Host.Outcome.next.inj e
    exact h
  | replyFrameSent =>
    obtain rfl := Host.Outcome.next.inj e
    exact h
  | roundTimerExpiry order => exact running_reserves h (checked_next e).2 (ite_reserves (fun _ => expire_reserves order h) (fun _ => h))
  | earlyWindowEdge lane reading order =>
    exact running_reserves h (checked_next e).2 (ite_reserves (fun _ => startAtEdge_reserves lane reading order h) (fun _ => h))
  | lateWindowEdge lane reading =>
    have realigned : (realign lane reading s).ReservesAtMost 4096 := State.ReservesAtMost.of_frame h (by simp)
    exact running_reserves h e (ite_reserves (fun _ => realigned) (fun _ => h))
  | deferralPoint =>
    have reached := reach_reserves s.deferralAt h
    exact running_reserves h e (ite_reserves (fun _ => ite_reserves (fun _ => reached.of_frame (by simp)) (fun _ => reached)) (fun _ => h))
  | openSearchAdoption lane otherLane leadInFirst order =>
    refine running_reserves h (checked_next e).2 ?_
    split
    · exact ite_reserves (fun _ => adoptMark_reserves _ _ _ _ order h) (fun _ => h)
    · exact h
  | markClose a b leadInFirst => exact fieldEvent_reserves h e (fun _ hu => hu.of_frame (by simp))
  | seventhLeadInTick field => exact running_reserves h e (endLeadIn_reserves field h)
  | arbitrationLoss field tick lane => exact dated_reserves h e (fun _ hu => ite_reserves (fun _ => hu) (fun _ => hu))
  | driveFault field tick lane =>
    exact dated_reserves h e (fun _ hu => ite_reserves (fun _ => driveFaultOn_reserves lane hu) (fun _ => hu))
  | echoMismatch lane reading =>
    exact dated_reserves h e (fun _ hu => ite_reserves (fun _ => hu.of_frame (by simp)) (fun _ => hu))
  | echoMeasurement lane value reading =>
    exact dated_reserves h e (fun _ hu => ite_reserves (fun _ => hu.of_frame (by simp))
      (fun _ => ite_reserves (fun _ => hu.of_frame (by simp)) (fun _ => hu)))
  | echoLate lane reading => exact dated_reserves h e (fun _ hu => ite_reserves (fun _ => echoLateOn_reserves lane hu) (fun _ => hu))
  | noticeWindowClose a b order => exact fieldEvent_reserves h (checked_next e).2 (fun _ => closeNotice_reserves a b order)
  | answerClose a b sendFirst => exact fieldEvent_reserves h e (fun _ => closeAnswers_reserves a b sendFirst)
  | repairWindowClose a b => exact fieldEvent_reserves h e (fun _ => closeRepair_reserves a b)
  | slotStart slot => exact running_reserves h e (ite_reserves (fun _ => startSlot_reserves slot.val h) (fun _ => h))
  | resendSent =>
    unfold exec execResendSent at e
    refine running_reserves h e ?_
    split
    · next b _ =>
      exact dated_cases (P := State.ReservesAtMost 4096) (fun _ => (reach_reserves (blockEnd b) h).of_frame (by simp)) h
    · exact h
  | slotPass slot a b order => exact fieldEvent_reserves h (checked_next e).2 (fun _ => passSlot_reserves slot.val a b order)
  | windowClose first runA runB reading =>
    exact dated_reserves h e (fun _ hu => ite_reserves (fun _ => closeBoth_reserves first runA runB hu) (fun _ => hu))
  | longRun lane reading => exact dated_reserves h e (fun _ hu => ite_reserves (fun _ => longRunOn_reserves lane hu) (fun _ => hu))
  | heldRun lane reading => exact dated_reserves h e (fun _ hu => ite_reserves (fun _ => hu.of_frame (by simp)) (fun _ => hu))
  | codeViolation lane kind reading =>
    exact dated_reserves h e (fun _ hu => ite_reserves (fun _ => hu.of_frame (by simp)) (fun _ => hu))
  | uncleanStretch lane activity => exact running_reserves h e (ite_reserves (fun _ => h) (fun _ => h))
  | lengthWord port value => exact running_reserves h e (ite_reserves (fun _ => takeLength_reserves port value h) (fun _ => h))
  | dataByte port byte => exact running_reserves h e (ite_reserves (fun _ => takeByte_reserves port byte h) (fun _ => h))
  | outHalfItemTaken port =>
    unfold exec execOutHalfItemTaken at e
    exact running_reserves h e (State.ReservesAtMost.mapRecv h le_rfl)
  | supplyWarn => exact running_reserves h e (ite_reserves (fun _ => h) (fun _ => h))
  | supplyOk => exact running_reserves h e (ite_reserves (fun _ => h) (fun _ => h))
  | supplyReset =>
    obtain rfl := Host.Outcome.next.inj e
    exact cleared_storeFits _ _ _ _
  | backupSupplyLow =>
    obtain rfl := Host.Outcome.next.inj e
    exact h
  | powerOnReset =>
    obtain rfl := Host.Outcome.next.inj e
    exact cleared_storeFits _ _ _ _
  | pinReset =>
    obtain rfl := Host.Outcome.next.inj e
    exact cleared_storeFits _ _ _ _
  | resetRelease straps aboveWarn =>
    obtain rfl := Host.Outcome.next.inj e
    have cleared := cleared_storeFits s.hold.released (optionOf straps)
      (contextAtRelease (optionOf straps).station aboveWarn s.ctrl.context) s.pending
    exact ite_reserves (fun _ => ite_reserves (c := aboveWarn = true) (fun _ => cleared) (fun _ => cleared)) (fun _ => h)
  | openSearchEdge lane reading passiveFor =>
    exact running_reserves h e (ite_reserves (fun _ => reach_reserves reading h) (fun _ => h))

/-- Settles O60: the front command, or one unit of time, keeps the block store within its buffers. -/
theorem stepKeepsStoreFits : Obligations.StepKeepsStoreFits := by
  intro s t h e
  unfold step at e
  split at e
  · obtain rfl := Host.Outcome.next.inj e
    exact ite_reserves (fun _ => h) (fun _ => reach_reserves _ h)
  · next c rest _ =>
    have front : ({ s with pending := rest } : State).StoreFits := h
    exact exec_storeFits front e

end Sys2Proof.Machine
end

section
/-! PROOF LAYER. An OPEN_SEND that fails a test (R107, R108). -/

namespace Sys2Proof.Machine

open Sys2Proof

/-! ### The ranges of the arguments (R107) -/

theorem portOf_eq_none_iff {b : Byte} : portOf b = none ↔ 3 < b.toNat := by
  unfold portOf
  split
  iterate 4
    · next h => simp [h]
  · next zero one two three =>
    simp only [imp_false] at zero one two three
    simp only [true_iff]
    omega

theorem retClassOf_eq_none_iff {b : Byte} : retClassOf b = none ↔ 3 < b.toNat := by
  unfold retClassOf
  split
  iterate 4
    · next h => simp [h]
  · next zero one two three =>
    simp only [imp_false] at zero one two three
    simp only [true_iff]
    omega

theorem slotCount_eq_none_iff {b : Byte} : slotCount b = none ↔ ¬ (1 ≤ b.toNat ∧ b.toNat ≤ 12) := by
  unfold slotCount
  split <;> simp_all

theorem streamPriority_eq_none_iff {b : Byte} : streamPriority b = none ↔ ¬ (2 ≤ b.toNat ∧ b.toNat ≤ 5) := by
  unfold streamPriority
  split <;> simp_all

/-- No run of the count is all OPEN (R108). -/
theorem firstOpenRun_eq_none_iff {live : List SlotEntry} {count : Nat} (one : 1 ≤ count) :
    firstOpenRun live count = none ↔ ∀ f : Fin 24, f.val + count ≤ 24 → runOpen live ⟨f.val, count⟩ = false := by
  unfold firstOpenRun Config.slots
  simp only [List.find?_eq_none, List.mem_map, List.mem_range, forall_exists_index, and_imp, forall_apply_eq_imp_iff₂,
    Bool.not_eq_true]
  exact ⟨fun h f inTable => h f.val (by omega), fun h f inTable => h ⟨f, by omega⟩ (by simp only; omega)⟩

/-! ### The tests in their order -/

section
variable {s : State} {p : Port} {c : RetClass} {port count cls priority : Byte}

theorem openSend_of_outOfRange (joined : s.ctrl.mode = .joined)
    (h : portOf port = none ∨ slotCount count = none ∨ retClassOf cls = none ∨ streamPriority priority = none) :
    openSend port count cls priority s = reply .badArg .none s := by
  unfold openSend
  simp only [joined, bne_self_eq_false, Bool.false_eq_true, if_false]
  split
  · next hp hn hc hk => simp [hp, hn, hc, hk] at h
  · rfl

/-- The tests that follow the ranges: the state of the entry, then the room in the block store (R107). -/
theorem openSend_of_inRange {n : Nat} {level : BitVec 3} (joined : s.ctrl.mode = .joined) (hport : portOf port = some p)
    (hcount : slotCount count = some n) (hcls : retClassOf cls = some c) (hlevel : streamPriority priority = some level) :
    openSend port count cls priority s =
      if (s.send.get p).state ≠ .closed ∧ (s.send.get p).state ≠ .held then reply .portTaken .none s
      else if 4096 < s.reserved + c.size then reply .noRoom .none s
      else if (s.send.get p).state = .held then adoptHeld p c level s
      else claimSlots p n c level s := by
  simp [openSend, joined, hport, hcount, hcls, hlevel, Config.blockStore]

theorem claimSlots_of_none {n : Nat} {level : BitVec 3} (h : firstOpenRun s.table.live n = none) :
    claimSlots p n c level s = reply .noSlots .none s := by
  simp [claimSlots, h]

theorem claimSlots_of_not_queued {n : Nat} {level : BitVec 3} {run : Run} (found : firstOpenRun s.table.live n = some run)
    (h : offerAnswer (claimNotice s p level run) s ≠ .queued) : claimSlots p n c level s = reply .busy .none s := by
  simp [claimSlots, found, h]

end

/-- Settles O6: the tests of OPEN_SEND in their order, each with its reply. -/
theorem openSendTestedInOrder : Obligations.OpenSendTestedInOrder := by
  unfold Obligations.OpenSendTestedInOrder
  intro port count cls priority s ⟨free, idle⟩ answers inRange
  have answered : ∀ {c : ReplyCode}, openSend port count cls priority s = reply c .none s → answers c :=
    fun h => (request_taken free idle).trans (congrArg _ h)
  refine ⟨fun mode => answered ?_, fun joined outside => answered (openSend_of_outOfRange joined ?_), ?_⟩
  · simp [openSend, mode]
  · simp only [portOf_eq_none_iff, slotCount_eq_none_iff, retClassOf_eq_none_iff, streamPriority_eq_none_iff]
    simp only [inRange] at outside
    omega
  · rintro p c joined ⟨-, one, twelve, -, two, five⟩ hport hcls
    have hcount : slotCount count = some count.toNat := if_pos (by simp [one, twelve])
    have hlevel : streamPriority priority = some (BitVec.ofNat 3 priority.toNat) := if_pos (by simp [two, five])
    have tested := openSend_of_inRange joined hport hcount hcls hlevel
    refine ⟨fun notClosed notHeld => answered ?_, fun takes full => answered ?_, fun closed room => ?_⟩
    · rw [tested, if_pos ⟨notClosed, notHeld⟩]
    · rw [tested, if_neg (by tauto), if_pos full]
    · rw [if_neg (by simp [closed]), if_neg (Nat.not_lt.mpr room), if_neg (by simp [closed])] at tested
      refine ⟨fun taken => answered ?_, fun ⟨f, inTable, opened⟩ refused => answered ?_⟩
      · rw [tested, claimSlots_of_none ((firstOpenRun_eq_none_iff one).mpr taken)]
      · have found : firstOpenRun s.table.live count.toNat ≠ none := fun taken => by
          simp [(firstOpenRun_eq_none_iff one).mp taken f inTable] at opened
        obtain ⟨run, hrun⟩ := Option.ne_none_iff_exists'.mp found
        rw [tested, claimSlots_of_not_queued hrun]
        rw [Ne, offerAnswer_queued_iff, Classical.not_not]
        refine refused.imp_left fun ⟨q, hq, kind, tag⟩ => ⟨q, hq, Queued.duplicates_iff.mpr ?_⟩
        simp [claimNotice, kind, tag]

end Sys2Proof.Machine
end

section
/-! PROOF LAYER. CLOSE of a send entry and of a receive entry (R80, R81, R120, R158, R179), and the offer of a RELEASE. -/

namespace Sys2Proof.Machine

open Sys2Proof

/-! ### The offer of a RELEASE (R79, R80) -/

/-- A RELEASE of the tag and the run is queued (R79). -/
def State.ReleaseQueued (s : State) (tag : Tag) (run : Run) : Prop :=
  ∃ x ∈ s.notices.queue, x.kind = .release ∧ x.tag = tag ∧ x.first = BitVec.ofNat 16 run.first ∧ x.count = BitVec.ofNat 5 run.count

section
variable {s : State} {q : Queued}

theorem releaseQueued_iff {origin : Origin} {tag : Tag} {run : Run} :
    (∃ x ∈ s.notices.queue, (releaseNotice origin tag run).duplicates x = true) ↔ s.ReleaseQueued tag run := by
  refine exists_congr fun x => and_congr_right fun _ => Queued.duplicates_iff.trans ?_
  simp [releaseNotice, eq_comm]

theorem offerAnswer_full_iff :
    offerAnswer q s = .full ↔ 8 ≤ s.notices.queue.length ∧ ¬ ∃ x ∈ s.notices.queue, q.duplicates x = true := by
  unfold offerAnswer Config.noticeQueueSize
  rw [← List.any_eq_true]
  split
  · simp [*]
  · split <;> simp [*]

theorem offerAnswer_release_full_iff {origin : Origin} {tag : Tag} {run : Run} :
    offerAnswer (releaseNotice origin tag run) s = .full ↔ 8 ≤ s.notices.queue.length ∧ ¬ s.ReleaseQueued tag run := by
  rw [offerAnswer_full_iff, releaseQueued_iff]

/-- The RELEASE of an entry's slot run is offered, and is still due if the queue is full without it (R80, R120). -/
theorem offerRelease_of_run {p : Port} {run : Run} {due : Bool} (h : (s.send.get p).slotRun = some run)
    (hdue : due = true ↔ 8 ≤ s.notices.queue.length ∧ ¬ s.ReleaseQueued (s.tagOf p) run) :
    offerRelease p s = { s with
      notices := (offer (releaseNotice (.send p) (s.tagOf p) run) s).notices
      send := s.send.set p { s.send.get p with releaseDue := due } } := by
  have answer : decide (offerAnswer (releaseNotice (.send p) (s.tagOf p) run) s = .full) = due := by
    rw [Bool.eq_iff_iff, decide_eq_true_iff, hdue, offerAnswer_release_full_iff]
  calc offerRelease p s
      = (offer (releaseNotice (.send p) (s.tagOf p) run) s).mapSend p fun e => { e with releaseDue := due } := by
        simp only [offerRelease, h, answer]
    _ = _ := by
        unfold offer
        split <;> rfl

theorem offer_mapSend {p : Port} {f : SendEntry → SendEntry} : offer q (s.mapSend p f) = (offer q s).mapSend p f := by
  have answer : offerAnswer q (s.mapSend p f) = offerAnswer q s := rfl
  unfold offer
  rw [answer]
  split <;> rfl

/-- The same for an entry that has changed before the offer: the queue does not read the send entries. -/
theorem offerRelease_mapSend_of_run {p : Port} {f : SendEntry → SendEntry} {run : Run} {due : Bool}
    (h : (f (s.send.get p)).slotRun = some run)
    (hdue : due = true ↔ 8 ≤ s.notices.queue.length ∧ ¬ s.ReleaseQueued (s.tagOf p) run) :
    offerRelease p (s.mapSend p f) = { s with
      notices := (offer (releaseNotice (.send p) (s.tagOf p) run) s).notices
      send := s.send.set p { f (s.send.get p) with releaseDue := due } } := by
  have kept : ((s.mapSend p f).send.get p).slotRun = some run := by simpa [State.mapSend] using h
  have answer : (offer (releaseNotice (.send p) (s.tagOf p) run) (s.mapSend p f)).notices
      = (offer (releaseNotice (.send p) (s.tagOf p) run) s).notices := by
    rw [offer_mapSend]
    rfl
  rw [offerRelease_of_run kept hdue, show (s.mapSend p f).tagOf p = s.tagOf p from rfl, answer]
  simp only [State.mapSend, PerPort.get_set_same, PerPort.set_set]

theorem offerRelease_of_none {p : Port} (h : (s.send.get p).slotRun = none) : offerRelease p s = s := by
  simp [offerRelease, h]

/-- A RELEASE joins behind the notices of priority 0 (R79). -/
theorem offer_release_joins {origin : Origin} {tag : Tag} {run : Run} (fresh : ¬ s.ReleaseQueued tag run)
    (room : s.notices.queue.length < 8) :
    (offer (releaseNotice origin tag run) s).notices = { s.notices with
      queue := s.notices.queue.takeWhile (fun x => x.priority == 0) ++ releaseNotice origin tag run
        :: s.notices.queue.dropWhile (fun x => x.priority == 0) } := by
  have urgent : (fun x : Queued => decide (x.priority.toNat ≤ (releaseNotice origin tag run).priority.toNat))
      = fun x => x.priority == 0 := by
    funext x
    rw [Bool.eq_iff_iff, decide_eq_true_iff, beq_iff_eq, ← BitVec.toNat_inj]
    simp [releaseNotice]
  rw [offer_joins (by rw [releaseQueued_iff]; exact not_or.mpr ⟨fresh, by omega⟩), urgent]
  rfl

theorem offer_release_refused {origin : Origin} {tag : Tag} {run : Run}
    (h : s.ReleaseQueued tag run ∨ 8 ≤ s.notices.queue.length) : offer (releaseNotice origin tag run) s = s :=
  offer_refused (h.imp_left releaseQueued_iff.mpr)

end

/-! ### The entry that the argument names (R179) -/

theorem entryOf_eq_none_iff {b : Byte} : entryOf b = none ↔ 7 < b.toNat := by
  unfold entryOf
  split
  iterate 8
    · next h => simp [h]
  · next zero one two three four five six seven =>
    simp only [imp_false] at zero one two three four five six seven
    simp only [true_iff]
    omega

section
variable {s : State} {p : Port}

theorem closeClaiming_of_in_flight (h : ∃ q ∈ s.notices.queue, q.claimOf p = true ∧ q.inFlight = true) :
    closeClaiming p s = reply .started .none
      ((s.mapQueue (fun l => l.map (fun q => if q.claimOf p then { q with withdrawn := true } else q))).mapSend p
        (fun e => e.releasing .fromClaim)) := by
  unfold closeClaiming
  rw [if_pos]
  simpa using h

theorem closeClaiming_of_not_in_flight (h : ∀ q ∈ s.notices.queue, q.claimOf p = true → q.inFlight = false) :
    closeClaiming p s = reply .done .none (closeSend p (s.mapQueue (fun l => l.filter (fun q => !q.claimOf p)))) := by
  unfold closeClaiming
  rw [if_neg]
  simpa using h

/-- What CLOSE leaves of a LIVE or HELD entry (R120). -/
def State.leaving (s : State) (p : Port) (path : ReleasePath) (notices : NoticeEngine) (due : Bool) : State :=
  { s with notices := notices, send := s.send.set p { (s.send.get p).releasing path with releaseDue := due } }

theorem closeHolding_of_none {path : ReleasePath} (h : (s.send.get p).slotRun = none) :
    closeHolding p path s = reply .started .none (s.leaving p path s.notices true) := by
  simp [closeHolding, State.leaving, SendEntry.releasing, State.mapSend, h]

theorem closeHolding_of_run {path : ReleasePath} {run : Run} {due : Bool} (h : (s.send.get p).slotRun = some run)
    (hdue : due = true ↔ 8 ≤ s.notices.queue.length ∧ ¬ s.ReleaseQueued (s.tagOf p) run) :
    closeHolding p path s = reply .started .none
      (s.leaving p path (offer (releaseNotice (.send p) (s.tagOf p) run) s).notices due) := by
  have kept : ((s.send.get p).releasing path).slotRun = some run := h
  have offers : closeHolding p path s = reply .started .none (offerRelease p (s.mapSend p (fun e => e.releasing path))) := by
    simp [closeHolding, State.mapSend, kept]
  rw [offers, offerRelease_mapSend_of_run kept hdue]
  rfl

theorem closeRecvEntry_of_stream (h : (s.recv.get p).stream ≠ none) :
    closeRecvEntry p s = reply .done .none ((withdrawAsk p s).mapRecv p (fun _ => RecvEntry.reset)) := by
  obtain ⟨st, some_st⟩ := Option.ne_none_iff_exists'.mp h
  simp [closeRecvEntry, some_st]

end

/-- Settles O9: each part is the branch of the model's CLOSE for that entry, with the answer of the queue to the RELEASE. -/
theorem closeEndsEntry : Obligations.CloseEndsEntry := by
  intro entry s ⟨free, idle⟩ answers
  have closes {t : State} (h : closeEntry entry s = t) : exec (.close entry) s = .next t := by
    rw [← h]
    exact request_taken free idle
  refine ⟨fun bad => closes ?_, fun p isRecv => ⟨fun unused => closes ?_, fun used => closes ?_⟩, fun p isSend => ?_⟩
  · simp only [closeEntry, entryOf_eq_none_iff.mpr bad]
    rfl
  · simp only [closeEntry, isRecv, closeRecvEntry, unused]
    rfl
  · simp only [closeEntry, isRecv, closeRecvEntry_of_stream used]
    rfl
  have closesSend {t : State} (h : closeSendEntry p s = t) : exec (.close entry) s = .next t :=
    closes (by simpa only [closeEntry, isSend] using h)
  refine ⟨fun closed => closesSend ?_, fun releasing => closesSend ?_, fun claiming waits => closesSend ?_,
    fun claiming inFlight => closesSend ?_, fun path holding => ?_⟩
  · simp only [closeSendEntry, closed]
    rfl
  · simp only [closeSendEntry, releasing]
    rfl
  · simp only [closeSendEntry, claiming]
    exact closeClaiming_of_not_in_flight waits
  · simp only [closeSendEntry, claiming]
    exact closeClaiming_of_in_flight inFlight
  have holds : closeSendEntry p s = closeHolding p path s := by
    rcases holding with ⟨live, rfl⟩ | ⟨held, rfl⟩
    · simp only [closeSendEntry, live]
    · simp only [closeSendEntry, held]
  refine ⟨fun unset => closesSend ?_, fun run set => ⟨fun (queued : s.ReleaseQueued (s.tagOf p) run) => closesSend ?_,
    fun (fresh : ¬ s.ReleaseQueued (s.tagOf p) run) full => closesSend ?_,
    fun (fresh : ¬ s.ReleaseQueued (s.tagOf p) run) room => closesSend ?_⟩⟩
  · rw [holds, closeHolding_of_none unset]
    rfl
  · rw [holds, closeHolding_of_run (due := false) set (by simp [queued]), offer_release_refused (.inl queued)]
    rfl
  · rw [holds, closeHolding_of_run (due := true) set (by simp [full, fresh]), offer_release_refused (.inr full)]
    rfl
  · rw [holds, closeHolding_of_run (due := false) set (by simp [room]), offer_release_joins fresh room]
    rfl

end Sys2Proof.Machine
end

section
/-! PROOF LAYER. The block ports (R111 to R113, R150). -/

namespace Sys2Proof.Machine

open Sys2Proof

section
variable {s : State} {p : Port}

theorem SendEntry.inHalfOpen_iff {e : SendEntry} : e.inHalfOpen = true ↔ e.state = .claiming ∨ e.state = .live := by
  simp [SendEntry.inHalfOpen]

theorem ready_iff : s.ready p = true ↔ ((s.send.get p).state = .claiming ∨ (s.send.get p).state = .live)
    ∧ (s.send.get p).fifo.length + (if (s.send.get p).assembly.isSome then 1 else 0) < 8 ∧ s.ctrl.mode ≠ .faulted := by
  rw [← SendEntry.inHalfOpen_iff]
  simp only [State.ready, Bool.and_eq_true, bne_iff_ne, and_assoc]
  exact and_congr_right fun _ => and_congr_left fun _ => decide_eq_true_iff

/-! ### A length word (R111, R113) -/

section
variable {value : Nat}

theorem takeLength_of_bad (bad : value = 0 ∨ 256 < value) : takeLength p value s = giveEvent (.sendPortError p .badLength) s := by
  unfold takeLength
  rw [if_pos]
  simp only [Bool.or_eq_true, decide_eq_true_eq]
  omega

/-- A length in range opens a block, in the place of a partial one (R113). -/
theorem takeLength_of_good (least : 1 ≤ value) (most : value ≤ 256) :
    takeLength p value s = if (s.send.get p).assembly.isSome then
      giveEvent (.sendPortError p .lengthInAssembly) (s.mapSend p (openAssembly value)) else s.mapSend p (openAssembly value) := by
  unfold takeLength
  rw [if_neg]
  simp only [Bool.or_eq_true, decide_eq_true_eq]
  omega

end

/-! ### A data byte (R112, R113) -/

section
variable {byte : Byte}

theorem appendByte_of_partial {a : Assembly} {e : SendEntry} (more : a.payload.length + 1 < a.length) :
    appendByte a byte e = { e with assembly := some { a with payload := a.payload ++ [byte] } } := by
  simp [appendByte, more]

theorem appendByte_of_last {a : Assembly} {e : SendEntry} (last : a.length ≤ a.payload.length + 1) :
    appendByte a byte e = { e with
      assembly := none
      fifo := e.fifo ++ [{ payload := a.payload ++ [byte], check := check32 (a.payload ++ [byte]) }] } := by
  simp [appendByte, Nat.not_lt.mpr last]

theorem takeByte_of_assembly {a : Assembly} (h : (s.send.get p).assembly = some a) :
    takeByte p byte s = s.mapSend p (appendByte a byte) := by
  simp only [takeByte, h]

/-- With no block being assembled only the first byte of a run is reported (R113). -/
theorem takeByte_of_none (h : (s.send.get p).assembly = none) :
    takeByte p byte s = if (s.send.get p).overrun then s
      else giveEvent (.sendPortError p .overrun) (s.mapSend p (fun e => { e with overrun := true })) := by
  simp only [takeByte, h]

end

end

/-- Settles O15: a length word by the ready line and its range, a byte by the state of the entry and the block it joins. -/
theorem blockPortsTakeAndGive : Obligations.BlockPortsTakeAndGive := by
  intro p s free e taken
  refine ⟨ready_iff, fun value => ?_, fun byte => ?_, (running_of_free free : execOutHalfItemTaken p s = _)⟩
  · have run : exec (.lengthWord p value) s = .next (if s.ready p then takeLength p value s else s) := running_of_free free
    refine ⟨fun low => ?_, fun high bad => ?_, fun high least most unopened => ?_, fun high least most opened => ?_⟩
    · rw [run, low, if_neg Bool.false_ne_true]
    · rw [run, if_pos high, takeLength_of_bad bad]
    · rw [run, if_pos high, takeLength_of_good least most, if_neg (by simpa using unopened)]
      rfl
    · rw [run, if_pos high, takeLength_of_good least most, if_pos (Option.isSome_iff_ne_none.mpr opened)]
      rfl
  · have run : exec (.dataByte p byte) s = .next (if (s.send.get p).inHalfOpen then takeByte p byte s else s) := running_of_free free
    have open_iff : (s.send.get p).inHalfOpen = true ↔ taken := SendEntry.inHalfOpen_iff
    refine ⟨fun shut => ?_, fun a joins isOpen more => ?_, fun a joins isOpen last => ?_, fun isOpen unopened again => ?_,
      fun isOpen unopened first => ?_⟩
    · rw [run, if_neg (mt open_iff.mp shut)]
    · rw [run, if_pos (open_iff.mpr isOpen), takeByte_of_assembly joins, State.mapSend, appendByte_of_partial more]
    · rw [run, if_pos (open_iff.mpr isOpen), takeByte_of_assembly joins, State.mapSend, appendByte_of_last last]
    · rw [run, if_pos (open_iff.mpr isOpen), takeByte_of_none unopened, if_pos again]
    · rw [run, if_pos (open_iff.mpr isOpen), takeByte_of_none unopened, if_neg (Bool.not_eq_true _ ▸ first)]
      rfl

end Sys2Proof.Machine
end

section
/-! PROOF LAYER. What the engines do when the live table has changed (R121, R122, R136, R142, R157). -/

namespace Sys2Proof.Machine

open Sys2Proof

/-! ### A send entry (R121, R122) -/

/-- The run that a send entry holds or is to take; losing a slot of it closes the entry. -/
def SendEntry.engagedRun (e : SendEntry) : Option Run :=
  match e.state with
  | .live => e.slotRun.or e.claimRun
  | .held => e.slotRun
  | .releasing => e.slotRun
  | .closed => none
  | .claiming => none

section
variable {s : State} {p : Port}

theorem checkSend_of_none (h : (s.send.get p).engagedRun = none) : checkSend p s = s := by
  unfold SendEntry.engagedRun at h
  unfold checkSend
  cases state : (s.send.get p).state <;> simp only [state] at h ⊢ <;> simp only [h]

theorem checkSend_of_run {r : Run} (h : (s.send.get p).engagedRun = some r) :
    checkSend p s = if runOwned s.table.live r s.station (s.tagOf p) then s
      else giveEvent (if (s.send.get p).state = .releasing then .streamClosed p none else .slotsLost p r s.table.epoch)
        (closeSend p s) := by
  unfold SendEntry.engagedRun at h
  unfold checkSend
  cases state : (s.send.get p).state
  case closed => simp [state] at h
  case claiming => simp [state] at h
  case live =>
    simp only [state] at h ⊢
    simp [h]
  case held =>
    simp only [state] at h ⊢
    simp [h]
  case releasing =>
    simp only [state] at h ⊢
    simp [h]

end

/-! ### The run of a tag (R142) -/

/-- The key of a slot in the statement of R142: set where the table lists the tag. -/
def listedKey (live : List SlotEntry) (t : Tag) (n : Nat) : Option Unit :=
  match (live[n]?).map (fun (e : SlotEntry) => e.use) with
  | some (.owned _ t') => if t' = t then some () else none
  | _ => none

/-- The keys that `runOfTag` collects. -/
def tagKeys (live : List SlotEntry) (t : Tag) : List (Option Tag) := live.map (fun e => if e.use.hasTag t then some t else none)

section
variable {live : List SlotEntry} {t : Tag} {n : Nat}

theorem listedKey_iff : listedKey live t n = some () ↔ (useAt live n).hasTag t = true := by
  unfold listedKey useAt
  cases live[n]? with
  | none => simp [SlotUse.hasTag]
  | some e => cases use : e.use <;> simp [use, SlotUse.hasTag]

theorem tagKeys_iff {k : Tag} : ((tagKeys live t)[n]?).join = some k ↔ k = t ∧ (useAt live n).hasTag t = true := by
  unfold tagKeys useAt
  cases h : live[n]? with
  | none => simp [h, SlotUse.hasTag]
  | some e =>
    simp only [List.getElem?_map, h, Option.map_some, Option.join_some, ite_eq_iff]
    grind

theorem any_hasTag_iff : live.any (fun e => e.use.hasTag t) = true ↔ ∃ n, listedKey live t n = some () := by
  simp only [listedKey_iff, List.any_eq_true, List.mem_iff_getElem?]
  constructor
  · rintro ⟨e, ⟨n, he⟩, tagged⟩
    exact ⟨n, by simpa [useAt, he] using tagged⟩
  · rintro ⟨n, tagged⟩
    unfold useAt at tagged
    split at tagged
    · next e he => exact ⟨e, ⟨n, he⟩, tagged⟩
    · simp [SlotUse.hasTag] at tagged

theorem MaximalRun.congr {κ κ' : Type} {key : Nat → Option κ} {key' : Nat → Option κ'} {k : κ} {k' : κ'} {f c : Nat}
    (same : ∀ n, key n = some k ↔ key' n = some k') (h : MaximalRun key f c k) : MaximalRun key' f c k' := by
  simpa only [MaximalRun, ne_eq, same] using h

/-- Each slot with a key lies in a run that is collected. -/
theorem exists_collectRuns {κ : Type} [DecidableEq κ] {keys : List (Option κ)} {k : κ} (h : (keys[n]?).join = some k) :
    ∃ x ∈ collectRuns 0 keys none, x.1.first ≤ n ∧ n < x.1.first + x.1.count :=
  (collectRuns_spec (fun n => (keys[n]?).join) keys 0 none (fun g hg => by omega) (fun i => by simp)).2.1 n (Nat.zero_le n) k h

/-- The first run collected begins at the lowest slot with a key. -/
theorem collectRuns_head_le {κ : Type} [DecidableEq κ] {keys : List (Option κ)} {x : Run × κ} {rest : List (Run × κ)} {k : κ}
    (collected : collectRuns 0 keys none = x :: rest) (h : (keys[n]?).join = some k) : x.1.first ≤ n := by
  obtain ⟨y, hy, first_le, -⟩ := exists_collectRuns h
  have ordered := (collectRuns_maximal keys).2
  rw [collected] at hy ordered
  rcases List.mem_cons.mp hy with rfl | later
  · exact first_le
  · have := (List.pairwise_cons.mp ordered).1 y later
    omega

/-- Of several runs of a tag the lowest is its run (log 61). -/
theorem runOfTag_spec (listed : ∃ n, listedKey live t n = some ()) :
    MaximalRun (listedKey live t) (runOfTag live t).first (runOfTag live t).count ()
      ∧ ∀ n, listedKey live t n = some () → (runOfTag live t).first ≤ n := by
  have keyed {n : Nat} (h : listedKey live t n = some ()) : ((tagKeys live t)[n]?).join = some t :=
    tagKeys_iff.mpr ⟨rfl, listedKey_iff.mp h⟩
  obtain ⟨m, hm⟩ := listed
  cases collected : collectRuns 0 (tagKeys live t) none with
  | nil =>
    obtain ⟨x, hx, -⟩ := exists_collectRuns (keyed hm)
    simp [collected] at hx
  | cons x rest =>
    obtain ⟨⟨f, c⟩, k⟩ := x
    have run : runOfTag live t = ⟨f, c⟩ := by
      unfold runOfTag
      rw [show live.map (fun e => if e.use.hasTag t then some t else none) = tagKeys live t from rfl, collected]
    have maximal : MaximalRun (fun n => ((tagKeys live t)[n]?).join) f c k :=
      ((collectRuns_maximal (tagKeys live t)).1 f c k).mp (collected ▸ List.mem_cons_self)
    obtain ⟨rfl, -⟩ := tagKeys_iff.mp (maximal.2.1 0 maximal.1)
    rw [run]
    refine ⟨maximal.congr fun n => ?_, fun n h => collectRuns_head_le collected (keyed h)⟩
    rw [tagKeys_iff, listedKey_iff, and_iff_right rfl]

end

/-! ### A receive entry (R142, R157) -/

section
variable {s : State} {p : Port} {st : RecvStream}

theorem checkRecv_of_none (h : (s.recv.get p).stream = none) : checkRecv p s = s := by
  simp only [checkRecv, h]

theorem checkRecv_of_unchanged (h : (s.recv.get p).stream = some st)
    (same : st.active = true ↔ s.table.live.any (fun e => e.use.hasTag st.tag) = true) : checkRecv p s = s := by
  rw [← Bool.eq_iff_iff] at same
  simp [checkRecv, h, same]

theorem checkRecv_of_lost (h : (s.recv.get p).stream = some st) (active : st.active = true)
    (lost : s.table.live.any (fun e => e.use.hasTag st.tag) = false) :
    checkRecv p s = giveEvent (.receiveWaiting p st.tag)
      (withdrawAsk p (s.mapStream p (fun x => { x with active := false, gaps := [] }))) := by
  simp only [checkRecv, h, active, lost, Bool.not_false, Bool.and_self, if_true]

theorem checkRecv_of_found (h : (s.recv.get p).stream = some st) (waiting : st.active = false)
    (found : s.table.live.any (fun e => e.use.hasTag st.tag) = true) :
    checkRecv p s = giveEvent (.receiveActive p st.tag (runOfTag s.table.live st.tag))
      (s.mapStream p (fun x => { x with active := true })) := by
  simp [checkRecv, h, waiting, found]

theorem mapStream_of_some {f : RecvStream → RecvStream} (h : (s.recv.get p).stream = some st) :
    s.mapStream p f = { s with recv := s.recv.set p { s.recv.get p with stream := some (f st) } } := by
  simp [State.mapStream, State.mapRecv, h]

/-- The queue without the REPAIR_ASK of the entry, or with it marked if it is in flight (R81). -/
theorem withdrawAsk_eq : withdrawAsk p s = { s with notices := { s.notices with
    queue := (s.notices.queue.filter (fun q => !(q.kind == .repairAsk && q.origin == .recv p) || q.inFlight)).map
      (fun q => if q.kind == .repairAsk && q.origin == .recv p then { q with withdrawn := true } else q) } } := by
  simp only [withdrawAsk, State.mapQueue, Bool.not_and, Bool.not_not, Bool.or_assoc]

end

/-- Settles O28: the check of a send entry by its run, that of a receive entry by the slots listed with its tag. -/
theorem tableChangeChecksEntries : Obligations.TableChangeChecksEntries := by
  intro s
  refine ⟨fun p => ⟨checkSend_of_none, fun r run => ?_⟩, fun p => checkRecv_of_none, fun p st stream => ?_, rfl, rfl⟩
  · have check := checkSend_of_run (p := p) run
    exact ⟨fun owned => check.trans (if_pos owned), fun lost => check.trans (if_neg lost)⟩
  · have listed_iff := any_hasTag_iff (live := s.table.live) (t := st.tag)
    refine ⟨fun same => checkRecv_of_unchanged stream (same.trans listed_iff.symm), fun active lost => ?_, fun waiting listed => ?_⟩
    · rw [checkRecv_of_lost stream active (Bool.not_eq_true _ ▸ mt listed_iff.mp lost), mapStream_of_some stream, withdrawAsk_eq]
    · obtain ⟨maximal, least⟩ := runOfTag_spec listed
      refine ⟨runOfTag s.table.live st.tag, maximal, least, ?_⟩
      rw [checkRecv_of_found stream waiting (listed_iff.mpr listed), mapStream_of_some stream]

end Sys2Proof.Machine
end

section
/-! PROOF LAYER. What the slot start hands to the front ends (R114 to R118, R133). -/

namespace Sys2Proof.Machine

open Sys2Proof

/-! ### The entry that is served (R114) -/

section
variable {s : State} {n : Nat} {p : Port}

theorem mem_allPorts : p ∈ allPorts := by cases p <;> decide

theorem portOfNumber_portNumber : portOfNumber (portNumber p) = p := by cases p <;> rfl

theorem portNumber_injective {q : Port} (h : portNumber p = portNumber q) : p = q := by
  rw [← portOfNumber_portNumber (p := p), h, portOfNumber_portNumber]

/-- The entries of a station have tags of their own (R104). -/
theorem tagOf_injective {q : Port} (h : s.tagOf p = s.tagOf q) : p = q := by
  have small (r : Port) : portNumber r < 4 := by cases r <;> decide
  have station := s.ctrl.option.station.isLt
  have := small p
  have := small q
  have numbers := congrArg BitVec.toNat h
  simp only [State.tagOf, BitVec.toNat_ofNat] at numbers
  exact portNumber_injective (by omega)

theorem SendEntry.fills_iff {e : SendEntry} : e.fills = true ↔ e.state = .live ∨ e.state = .held
    ∨ e.state = .releasing ∧ (e.releasePath = some .fromLive ∨ e.releasePath = some .fromHeld) := by
  simp [SendEntry.fills, or_assoc]

theorem Mode.issues_iff {m : Mode} : m.issues = true ↔ m = .joined ∨ m = .resync ∨ m = .dark := by
  cases m <;> simp [Mode.issues]

theorem serves_iff : s.serves n p = true ↔ s.ctrl.mode.issues = true ∧ (s.send.get p).fills = true
    ∧ (∃ run : Run, (s.send.get p).slotRun = some run ∧ run.first ≤ n ∧ n < run.first + run.count)
    ∧ useAt s.table.live n = .owned s.ctrl.option.station (s.tagOf p) := by
  unfold State.serves
  cases run : (s.send.get p).slotRun <;> simp [run, Run.has, SlotUse.ownedBy, State.station, and_assoc]

theorem startSlot_of_serves (h : s.serves n p = true) : startSlot n s = buildBlock n p s := by
  unfold startSlot
  cases found : allPorts.find? (s.serves n) with
  | none => exact absurd h (List.find?_eq_none.mp found p mem_allPorts)
  | some q =>
    obtain ⟨-, -, -, mine⟩ := serves_iff.mp h
    obtain ⟨-, -, -, its⟩ := serves_iff.mp (List.find?_some found)
    rw [mine] at its
    injection its with _ tags
    rw [tagOf_injective tags]

theorem startSlot_of_not_serves (h : ∀ p, s.serves n p ≠ true) : startSlot n s = handResend n s := by
  unfold startSlot
  rw [List.find?_eq_none.mpr fun p _ => h p]

/-! ### The block that is built (R115, R116, R118) -/

/-- The state after a slot start that hands over block `b` of an entry. -/
def State.handing (s : State) (n : Nat) (p : Port) (b : Retained) (e : SendEntry) (queue : List Resend) : State :=
  { s with
    send := s.send.set p { e with served := some n }
    repair := { s.repair with queue := queue }
    drive := { s.drive with handed := some (n, stamp s (s.tagOf p) b false n) } }

/-- The re-send queue without the block that a new one evicts (R118, R135). -/
def State.resendsAfter (s : State) (p : Port) (evicted : Option Retained) : List Resend :=
  match evicted with
  | some o => s.repair.queue.filter (fun r => !(r.tag == s.tagOf p && r.seq == o.seq))
  | none => s.repair.queue

theorem buildBlock_of_prepared {r : Retained} (keeps : (s.send.get p).keepsRing = true)
    (found : ringAt (s.send.get p) (s.send.get p).nextSeq = some r) (prepared : r.seq = (s.send.get p).nextSeq) :
    buildBlock n p s = s.handing n p r (s.send.get p) s.repair.queue := by
  simp only [buildBlock, keeps, found, prepared, if_true]
  rfl

/-- With no prepared block a new one is retained (R115, R118). -/
theorem buildBlock_of_fresh (keeps : (s.send.get p).keepsRing = true)
    (fresh : ¬ ∃ r, ringAt (s.send.get p) (s.send.get p).nextSeq = some r ∧ r.seq = (s.send.get p).nextSeq) :
    buildBlock n p s = s.handing n p (newBlock (s.send.get p))
      { s.send.get p with
        ring := ringWrite (s.send.get p) (newBlock (s.send.get p))
        fifo := fifoAfter (s.send.get p) }
      (s.resendsAfter p (ringAt (s.send.get p) (s.send.get p).nextSeq)) := by
  cases found : ringAt (s.send.get p) (s.send.get p).nextSeq with
  | none =>
    simp only [buildBlock, keeps, found, if_true]
    simp [handOver, State.handing, State.mapSend, State.resendsAfter]
  | some r =>
    have other : r.seq ≠ (s.send.get p).nextSeq := fun h => fresh ⟨r, found, h⟩
    simp only [buildBlock, keeps, found, other, if_true, if_false]
    simp [handOver, dropResend, State.handing, State.mapSend, State.resendsAfter]

theorem buildBlock_of_unretained (keeps : (s.send.get p).keepsRing = false) :
    buildBlock n p s = s.handing n p (fillBlock (s.send.get p)) (s.send.get p) s.repair.queue := by
  simp only [buildBlock, keeps, Bool.false_eq_true, if_false]
  rfl

section
variable {e : SendEntry}

theorem newBlock_of_idle (h : e.fifo = []) : newBlock e = fillBlock e := by
  unfold newBlock
  rw [h]
  split
  · next none_waits => cases none_waits
  · rfl

theorem newBlock_of_waiting {w : PortBlock} {rest : List PortBlock} (live : e.state = .live) (h : e.fifo = w :: rest) :
    newBlock e = portBlock e w := by
  simp only [newBlock, live, h]

theorem newBlock_of_not_live (h : e.state ≠ .live) : newBlock e = fillBlock e := by
  unfold newBlock
  split
  · next live _ => exact absurd live h
  · rfl

theorem fifoAfter_of_idle (h : e.fifo = []) : fifoAfter e = e.fifo := by simp [fifoAfter, h]

theorem fifoAfter_of_live (live : e.state = .live) : fifoAfter e = e.fifo.tail := by simp [fifoAfter, live]

theorem fifoAfter_of_not_live (h : e.state ≠ .live) : fifoAfter e = e.fifo := by simp [fifoAfter, h]

end

/-! ### The repair service in an OPEN slot (R133) -/

theorem handResend_of_not_open (h : useAt s.table.live n ≠ .openSlot) : handResend n s = s := by
  simp [handResend, h]

theorem handResend_of_turn {b : Block} (h : useAt s.table.live n = .openSlot)
    (turn : s.repair.turn = true ∧ (s.lanes.a.transmitUsable = true ∨ s.lanes.b.transmitUsable = true))
    (head : resendBlock n s = some b) : handResend n s = handOver n b s := by
  simp [handResend, h, turn, PerLane.any, head]

theorem handResend_of_not_turn
    (h : ¬ (s.repair.turn = true ∧ (s.lanes.a.transmitUsable = true ∨ s.lanes.b.transmitUsable = true))) :
    handResend n s = s := by
  unfold handResend
  rw [if_neg]
  simp only [PerLane.any, Bool.and_eq_true, Bool.or_eq_true]
  exact fun due => h ⟨due.1.1, due.2⟩

theorem handResend_of_no_block (head : resendBlock n s = none) : handResend n s = s := by
  simp [handResend, head]

theorem resendBlock_of_no_head (index : Nat)
    (h : s.repair.queue.head?.bind (fun r => (retainedOf s r).map (fun b => (r.tag, b))) = none) : resendBlock index s = none := by
  unfold resendBlock
  cases queue : s.repair.queue with
  | nil => rfl
  | cons r rest => simpa [queue] using h

end

theorem exec_slotStart {s : State} {n : Fin 24} (free : s.holding = false) (closed : s.clock.closed = n.val + 4)
    (timer : s.clock.timer = 5000 + 800 * n.val) : exec (.slotStart n) s = .next (startSlot n.val s) := by
  have at_start : s.atSlotStart n.val = true := by simp [State.atSlotStart, Config.slotStartAt, closed, timer]
  change running _ s = _
  rw [running_of_free free, if_pos at_start]

/-- Settles O33: the served entry by its state and its ring, then the repair service where no entry is served. -/
theorem slotStartHandsBlock : Obligations.SlotStartHandsBlock := by
  intro n s free closed timer stamped
  have starts : exec (.slotStart n) s = .next (startSlot n.val s) := exec_slotStart free closed timer
  refine ⟨fun p run hrun first last mode owned => ?_, fun isOpen => ?_, fun isUnknown => ?_, fun owner tag isOwned => ?_⟩
  · intro e hands fill shares old kept queue fromLive prepared
    have builds (fills : e.fills = true) {t : State} (h : buildBlock n.val p s = t) : exec (.slotStart n) s = .next t := by
      rw [starts, startSlot_of_serves (serves_iff.mpr ⟨Mode.issues_iff.mpr mode, fills, ⟨run, hrun, first, last⟩, owned⟩), h]
    have live_fills (h : e.state = .live) : e.fills = true := SendEntry.fills_iff.mpr (.inl h)
    have live_keeps (h : e.state = .live) : e.keepsRing = true := (SendEntry.keepsRing_iff _).mpr (.inl h)
    have fromLive_fills (h : fromLive) : e.fills = true := SendEntry.fills_iff.mpr (.inr (.inr ⟨h.1, .inl h.2⟩))
    have fromLive_keeps (h : fromLive) : e.keepsRing = true := (SendEntry.keepsRing_iff _).mpr (.inr h)
    refine ⟨fun r found same state => ?_, fun idle live fresh => ?_, fun w rest waits live fresh => ?_, fun path fresh => ?_,
      fun held => ?_⟩
    · exact builds (state.elim live_fills fromLive_fills)
        (buildBlock_of_prepared (state.elim live_keeps fromLive_keeps) found same)
    · refine builds (live_fills live) ((buildBlock_of_fresh (live_keeps live) fresh).trans ?_)
      rw [newBlock_of_idle idle, fifoAfter_of_idle idle]
      rfl
    · refine builds (live_fills live) ((buildBlock_of_fresh (live_keeps live) fresh).trans ?_)
      rw [newBlock_of_waiting live waits, fifoAfter_of_live live, waits]
      rfl
    · have not_live : e.state ≠ .live := by simp [path.1]
      refine builds (fromLive_fills path) ((buildBlock_of_fresh (fromLive_keeps path) fresh).trans ?_)
      rw [newBlock_of_not_live not_live, fifoAfter_of_not_live not_live]
      rfl
    · refine builds (SendEntry.fills_iff.mpr (.inr (held.imp_right fun h => ⟨h.1, .inr h.2⟩))) (buildBlock_of_unretained ?_)
      rw [Bool.eq_false_iff, ne_eq, SendEntry.keepsRing_iff]
      rcases held with held | ⟨releasing, path⟩
      · simp [e, held]
      · simp [e, releasing, path]
  · have repairs : startSlot n.val s = handResend n.val s :=
      startSlot_of_not_serves fun p h => by
        obtain ⟨-, -, -, owned⟩ := serves_iff.mp h
        simp [isOpen] at owned
    rw [starts, repairs]
    refine ⟨fun x head turn => ?_, fun idle => ?_⟩
    · rw [handResend_of_turn isOpen turn (resendBlock_of_head n.val head)]
      rfl
    · rcases idle with noHead | other
      · rw [handResend_of_no_block (resendBlock_of_no_head n.val noHead)]
      · rw [handResend_of_not_turn other]
  · rw [starts, startSlot_of_not_serves fun p h => ?_, handResend_of_not_open (by simp [isUnknown])]
    obtain ⟨-, -, -, owned⟩ := serves_iff.mp h
    simp [isUnknown] at owned
  · intro served unserved
    rw [starts, startSlot_of_not_serves fun p h => ?_, handResend_of_not_open (by simp [isOwned])]
    obtain ⟨mode, fills, run, owned⟩ := serves_iff.mp h
    rw [isOwned] at owned
    injection owned with hOwner hTag
    rcases unserved with other | silent | nobody
    · exact other hOwner
    · exact absurd (Mode.issues_iff.mp mode) (by simp [silent])
    · exact nobody p ⟨hTag, run, SendEntry.fills_iff.mp fills⟩

end Sys2Proof.Machine
end

section
/-! PROOF LAYER. The send entries at the pass of a slot (R117, R123), in any order of the blocks. -/

namespace Sys2Proof.Machine

open Sys2Proof

section
variable {n : Nat} {m : MergedBlock} {s : State}

/-! ### What the steps keep -/

/-- The epoch rule leads from one mode that issues to another (R64, R123). -/
theorem issues_modeAfter (m : Copy Block) (epoch : Epoch) (mode : Mode) : (modeAfter m epoch mode).issues = mode.issues := by
  cases m with
  | valid b =>
    simp only [modeAfter]
    split
    · next h => rw [h.1]; rfl
    · rfl
  | erased | idle => rfl

theorem passStep_not_findsDuplicate {step : PassStep} (h : ¬ s.FindsDuplicate n m.copy) :
    ¬ (passStep n m s step).FindsDuplicate n m.copy := by
  by_cases table : step = .slotTable
  · subst table
    exact mt (tableAtPass_findsDuplicate n m s).mp h
  · exact mt (State.findsDuplicate_congr (passStep_view_of_other table h)).mp h

theorem passStep_issues {step : PassStep} (h : ¬ s.FindsDuplicate n m.copy) :
    (passStep n m s step).ctrl.mode.issues = s.ctrl.mode.issues := by
  by_cases table : step = .slotTable
  · subst table
    obtain ⟨-, -, -, ctrl, -, -⟩ := PassView.mk.inj (tableAtPass_view n m s)
    rw [passStep, ctrl, issues_modeAfter]
  · obtain ⟨-, -, -, ctrl, -, -⟩ := PassView.mk.inj (passStep_view_of_other table h)
    rw [ctrl]

theorem passStep_send_of_other {step : PassStep} (other : step ≠ .sendEngine) (h : ¬ s.FindsDuplicate n m.copy) :
    (passStep n m s step).send = s.send := by
  cases step with
  | sendEngine => exact absurd rfl other
  | slotTable => simp [passStep]
  | receiveEngine => simp [passStep]
  | controller => rw [passStep, controllerAtPass_of_no_duplicate h]

theorem foldl_passStep_issues {steps : List PassStep} (h : ¬ s.FindsDuplicate n m.copy) :
    (steps.foldl (passStep n m) s).ctrl.mode.issues = s.ctrl.mode.issues := by
  induction steps generalizing s with
  | nil => rfl
  | cons step steps ih => rw [List.foldl_cons, ih (passStep_not_findsDuplicate h), passStep_issues h]

theorem foldl_passStep_not_findsDuplicate {steps : List PassStep} (h : ¬ s.FindsDuplicate n m.copy) :
    ¬ (steps.foldl (passStep n m) s).FindsDuplicate n m.copy := by
  induction steps generalizing s with
  | nil => exact h
  | cons step steps ih => exact ih (passStep_not_findsDuplicate h)

theorem foldl_passStep_send_of_others {steps : List PassStep} (others : .sendEngine ∉ steps) (h : ¬ s.FindsDuplicate n m.copy) :
    (steps.foldl (passStep n m) s).send = s.send := by
  induction steps generalizing s with
  | nil => rfl
  | cons step steps ih =>
    obtain ⟨head, tail⟩ := not_or.mp (mt List.mem_cons.mpr others)
    rw [List.foldl_cons, ih tail (passStep_not_findsDuplicate h), passStep_send_of_other (Ne.symm head) h]

/-! ### The send engine's own step, wherever it stands in the order -/

/-- What `advanceSend` reads of the mode. -/
theorem advanceSend_congr {x y : Mode} (h : x.issues = y.issues) : advanceSend x n = advanceSend y n := by
  funext e
  rw [advanceSend, h, advanceSend]

theorem foldl_passStep_send {order : List PassStep} (admissible : passAdmissible order = true) (h : ¬ s.FindsDuplicate n m.copy) :
    (order.foldl (passStep n m) s).send = s.send.map (advanceSend s.ctrl.mode n) := by
  have once := count_of_passAdmissible admissible .sendEngine
  obtain ⟨front, back, rfl⟩ := List.append_of_mem (List.count_pos_iff.mp (by omega : 0 < order.count .sendEngine))
  rw [List.count_append, List.count_cons_self] at once
  have hfront : PassStep.sendEngine ∉ front := List.count_eq_zero.mp (by omega)
  have hback : PassStep.sendEngine ∉ back := List.count_eq_zero.mp (by omega)
  have unique := foldl_passStep_not_findsDuplicate (steps := front) h
  rw [List.foldl_append, List.foldl_cons, foldl_passStep_send_of_others hback (passStep_not_findsDuplicate unique), passStep, sendAtPass,
    foldl_passStep_send_of_others hfront h, advanceSend_congr (foldl_passStep_issues h)]

theorem passSlot_send {a b : BlockReading} {order : List PassStep} (admissible : passAdmissible order = true)
    (h : ¬ s.FindsDuplicate n (s.mergedBlock true a b).copy) :
    (passSlot n a b order s).send = s.send.map (advanceSend s.ctrl.mode n) := by
  have told : (tellLevels (a.levelShown 800) (b.levelShown 800) (countHeader .b b (countHeader .a a s))).passView = s.passView := by
    simp [State.passView]
  have steps := foldl_passStep_send admissible (mt (State.findsDuplicate_congr told).mp h)
  simpa [passSlot, clearHanded] using steps

end

/-- Settles O38: the send engine's step, which the epoch rule's change of mode does not touch. -/
theorem slotPassAdvancesSequence : Obligations.SlotPassAdvancesSequence := by
  intro n a b order s free admissible due u issues noDuplicate
  have unique : ¬ u.FindsDuplicate n.val (u.mergedBlock true a b).copy := by
    rintro ⟨x, hx, mode, foreign⟩
    refine noDuplicate x hx ?_ ?_
    · simpa [u] using Mode.detectsDuplicate_iff.mp mode
    · simpa [u, and_assoc] using State.foreignBlock_iff.mp foreign
  refine ⟨_, exec_slotPass_of_due free admissible due, fun p => ?_⟩
  have send : u.send = s.send := by simp [u]
  have mode : u.ctrl.mode = s.ctrl.mode := by simp [u]
  rw [passSlot_send admissible unique, PerPort.get_map, send, mode, advanceSend]
  simp only [beq_iff_eq, Mode.issues_iff]
  rfl

end Sys2Proof.Machine
end

section
/-! PROOF LAYER. Slot runs at a round start (R75, R80, R110, R119 to R121, R167). -/

namespace Sys2Proof.Machine

open Sys2Proof

/-! ### Claim runs and due RELEASEs (R80, R110) -/

theorem SendEntry.takeSlotRun_eq (e : SendEntry) : e.takeSlotRun = { e with slotRun := e.claimRun.or e.slotRun, claimRun := none } := by
  unfold SendEntry.takeSlotRun
  cases h : e.claimRun with
  | none =>
    change e = { e with slotRun := e.slotRun, claimRun := none }
    rw [← h]
  | some r => rfl

section
variable {s : State} {p : Port}

theorem takeRuns_of_live (live : (s.send.get p).state = .live) : takeRuns p s = s.mapSend p SendEntry.takeSlotRun := by
  simp only [takeRuns, live]

theorem takeRuns_of_due (releasing : (s.send.get p).state = .releasing) (due : (s.send.get p).releaseDue = true) :
    takeRuns p s = offerRelease p (s.mapSend p SendEntry.takeSlotRun) := by
  simp only [takeRuns, releasing, due, if_true]

theorem takeRuns_of_due_run {r : Run} {stillDue : Bool} (releasing : (s.send.get p).state = .releasing)
    (due : (s.send.get p).releaseDue = true) (set : (s.send.get p).claimRun.or (s.send.get p).slotRun = some r)
    (full : stillDue = true ↔ 8 ≤ s.notices.queue.length ∧ ¬ s.ReleaseQueued (s.tagOf p) r) :
    takeRuns p s = { s with
      notices := (offer (releaseNotice (.send p) (s.tagOf p) r) s).notices
      send := s.send.set p { s.send.get p with slotRun := some r, claimRun := none, releaseDue := stillDue } } := by
  have taken : (s.send.get p).takeSlotRun.slotRun = some r := by rw [SendEntry.takeSlotRun_eq, set]
  rw [takeRuns_of_due releasing due, offerRelease_mapSend_of_run taken full, SendEntry.takeSlotRun_eq, set]

theorem takeRuns_of_other (notLive : (s.send.get p).state ≠ .live)
    (notDue : ¬ ((s.send.get p).state = .releasing ∧ (s.send.get p).releaseDue = true)) : takeRuns p s = s := by
  unfold takeRuns
  cases state : (s.send.get p).state with
  | live => exact absurd state notLive
  | releasing => simp only [mt (And.intro state) notDue, Bool.false_eq_true, if_false]
  | closed | claiming | held => rfl

/-- With no run there is nothing to take and nothing to release. -/
theorem offerRelease_takeSlotRun_of_none (h : (s.send.get p).claimRun.or (s.send.get p).slotRun = none) :
    offerRelease p (s.mapSend p SendEntry.takeSlotRun) = s := by
  obtain ⟨claim, slot⟩ := Option.or_eq_none_iff.mp h
  have taken : s.mapSend p SendEntry.takeSlotRun = s := by
    simp [State.mapSend, SendEntry.takeSlotRun, claim, PerPort.set_get]
  rw [taken, offerRelease_of_none slot]

/-! ### The HELD limit (R119) -/

theorem heldRound_of_not_held (h : (s.send.get p).state ≠ .held) : heldRound p s = s := by
  unfold heldRound
  dsimp only
  split
  · next held _ => exact absurd held h
  · rfl

/-- A HELD entry whose rounds are over: RELEASING from HELD. -/
def SendEntry.outheld (e : SendEntry) : SendEntry :=
  { e with state := .releasing, releasePath := some .fromHeld, heldRounds := none }

section
variable {k : Nat} (held : (s.send.get p).state = .held) (rounds : (s.send.get p).heldRounds = some k)
include held rounds

theorem heldRound_of_lt (more : k + 1 < 4096) :
    heldRound p s = s.mapSend p (fun e => { e with heldRounds := some (k + 1) }) := by
  simp only [heldRound, held, rounds, Config.heldLimit, more, if_true]

theorem heldRound_of_le {run : Run} (slot : (s.send.get p).slotRun = some run) (ended : 4096 ≤ k + 1) :
    heldRound p s = giveEvent (.heldReleased p run) (offerRelease p (s.mapSend p SendEntry.outheld)) := by
  simp only [heldRound, held, rounds, slot, Config.heldLimit, Nat.not_lt.mpr ended, if_false]
  rfl

end

end

/-! ### Reclaim runs (R75) -/

/-- The parts of the maximal runs of keys, in slot order. -/
def runParts {κ : Type} [DecidableEq κ] (keys : List (Option κ)) : List (Run × κ) :=
  (collectRuns 0 keys none).flatMap (fun rk => rk.1.parts.map (fun r => (r, rk.2)))

section
variable {κ : Type} [DecidableEq κ] {keys : List (Option κ)} {f c : Nat} {k : κ} {r : Run}

omit [DecidableEq κ] in
theorem MaximalRun.le_length (h : MaximalRun (fun n => (keys[n]?).join) f c k) : f + c ≤ keys.length := by
  obtain ⟨pos, keyed, -⟩ := h
  have last := keyed (c - 1) (by omega)
  by_contra beyond
  simp [List.getElem?_eq_none (Nat.le_of_not_lt (by omega : ¬ f + (c - 1) < keys.length))] at last

theorem mem_runParts_iff (length : keys.length = 24) :
    (r, k) ∈ runParts keys ↔ ∃ f c, MaximalRun (fun n => (keys[n]?).join) f c k ∧ IsPart f c r := by
  have parts {f c : Nat} (h : MaximalRun (fun n => (keys[n]?).join) f c k) : r ∈ (⟨f, c⟩ : Run).parts ↔ IsPart f c r :=
    mem_parts_iff h.1 (by have := h.le_length; simp only; omega)
  simp only [runParts, List.mem_flatMap, List.mem_map, Prod.mk.injEq]
  constructor
  · rintro ⟨⟨⟨f, c⟩, k'⟩, collected, r', part, rfl, rfl⟩
    have maximal := ((collectRuns_maximal keys).1 f c k').mp collected
    exact ⟨f, c, maximal, (parts maximal).mp part⟩
  · rintro ⟨f, c, maximal, part⟩
    exact ⟨(⟨f, c⟩, k), ((collectRuns_maximal keys).1 f c k).mpr maximal, r, (parts maximal).mpr part, rfl, rfl⟩

theorem IsPart.bounds (h : IsPart f c r) : f ≤ r.first ∧ r.first + r.count ≤ f + c := by
  obtain ⟨j, inRun, rfl⟩ := h
  simp only
  omega

theorem runParts_pairwise (length : keys.length = 24) :
    (runParts keys).Pairwise (fun x y => x.1.first + x.1.count ≤ y.1.first) := by
  have bounds {x : Run × κ} (collected : x ∈ collectRuns 0 keys none) {r : Run} (part : r ∈ x.1.parts) :
      x.1.first ≤ r.first ∧ r.first + r.count ≤ x.1.first + x.1.count := by
    have maximal := ((collectRuns_maximal keys).1 x.1.first x.1.count x.2).mp collected
    have := maximal.le_length
    exact ((mem_parts_iff maximal.1 (by omega)).mp part).bounds
  refine List.pairwise_flatMap.mpr ⟨fun x _ => List.pairwise_map.mpr (parts_pairwise x.1), ?_⟩
  refine (collectRuns_maximal keys).2.imp_of_mem fun hx hy ordered => ?_
  simp only [List.mem_map, forall_exists_index, and_imp]
  rintro _ r part rfl _ r' part' rfl
  have := bounds hx part
  have := bounds hy part'
  simp only
  omega

end

/-- The key of a slot that is silent for 512 passes or more: its owner and tag. -/
def silentKey (live : List SlotEntry) (n : Nat) : Option (StationNo × Tag) :=
  match live[n]? with
  | some e => (match e.use with
    | .owned o t => if 512 ≤ e.silent then some (o, t) else none
    | _ => none)
  | none => none

/-- The keys that `reclaimRuns` collects. -/
def silentKeys (live : List SlotEntry) : List (Option (StationNo × Tag)) :=
  live.map (fun e =>
    match e.use with
    | .owned o t => if Config.reclaimSilence ≤ e.silent then some (o, t) else none
    | .openSlot => none
    | .unknown => none)

/-- The run holds a marked entry. -/
def holdsMarked (live : List SlotEntry) (r : Run) : Bool :=
  (List.range r.count).any (fun i =>
    match live[r.first + i]? with
    | some e => e.reclaim
    | none => false)

section
variable {live : List SlotEntry}

theorem silentKeys_getElem? (n : Nat) : ((silentKeys live)[n]?).join = silentKey live n := by
  unfold silentKeys silentKey
  rw [List.getElem?_map]
  cases live[n]? with
  | none => rfl
  | some e =>
    obtain ⟨use⟩ := e
    cases use <;> rfl

theorem holdsMarked_iff {r : Run} :
    holdsMarked live r = true ↔ ∃ n e, r.first ≤ n ∧ n < r.first + r.count ∧ live[n]? = some e ∧ e.reclaim = true := by
  simp only [holdsMarked, List.any_eq_true, List.mem_range]
  constructor
  · rintro ⟨i, inRun, marked⟩
    split at marked
    · next e he => exact ⟨r.first + i, e, by omega, by omega, he, marked⟩
    · cases marked
  · rintro ⟨n, e, first, last, he, marked⟩
    refine ⟨n - r.first, by omega, ?_⟩
    rw [Nat.add_sub_cancel' first, he]
    exact marked

theorem reclaimRuns_eq : reclaimRuns live = (runParts (silentKeys live)).filter (fun rk => holdsMarked live rk.1) := rfl

theorem mem_reclaimRuns_iff {r : Run} {o : StationNo} {t : Tag} (length : live.length = 24) :
    (r, o, t) ∈ reclaimRuns live ↔ ∃ f c, MaximalRun (silentKey live) f c (o, t) ∧ IsPart f c r
      ∧ ∃ n e, r.first ≤ n ∧ n < r.first + r.count ∧ live[n]? = some e ∧ e.reclaim = true := by
  rw [reclaimRuns_eq, List.mem_filter, mem_runParts_iff (by simpa [silentKeys] using length), funext silentKeys_getElem?,
    holdsMarked_iff]
  simp only [← exists_and_right, and_assoc]

theorem reclaimRuns_pairwise (length : live.length = 24) :
    (reclaimRuns live).Pairwise (fun x y => x.1.first + x.1.count ≤ y.1.first) := by
  rw [reclaimRuns_eq]
  exact (runParts_pairwise (by simpa [silentKeys] using length)).filter _

end

section
variable {s : State}

/-- A RECLAIM of a tag is a duplicate of any other of the tag (R79). -/
theorem offerAnswer_reclaim_queued_iff {o : StationNo} {t : Tag} {r : Run} : offerAnswer (reclaimNotice o t r) s = .queued
    ↔ ¬ ((∃ x ∈ s.notices.queue, x.kind = .reclaim ∧ x.tag = t) ∨ 8 ≤ s.notices.queue.length) := by
  simp only [offerAnswer_queued_iff, Queued.duplicates_iff]
  simp [reclaimNotice, eq_comm]

theorem offerReclaim_of_refused {o : StationNo} {t : Tag} {r : Run}
    (h : (∃ x ∈ s.notices.queue, x.kind = .reclaim ∧ x.tag = t) ∨ 8 ≤ s.notices.queue.length) : offerReclaim s (r, o, t) = s := by
  unfold offerReclaim
  rw [if_neg fun queued => offerAnswer_reclaim_queued_iff.mp queued h]

theorem offerReclaim_of_queued {o : StationNo} {t : Tag} {r : Run}
    (h : ¬ ((∃ x ∈ s.notices.queue, x.kind = .reclaim ∧ x.tag = t) ∨ 8 ≤ s.notices.queue.length)) :
    offerReclaim s (r, o, t) = { s with
      notices := (offer (reclaimNotice o t r) s).notices
      table := { s.table with live := s.table.live.mapIdx (fun n e =>
        if r.first ≤ n ∧ n < r.first + r.count then { e with reclaim := false } else e) } } := by
  have queued := offerAnswer_reclaim_queued_iff (o := o) (r := r).mpr h
  unfold offerReclaim
  rw [if_pos queued, offer_of_queued queued]
  simp [Run.has, State.mapQueue]

/-! ### Orphan runs (R167) -/

theorem dealOrphan_of_lost {o : Orphan} (lost : runOwned s.table.live o.run s.ctrl.option.station o.tag = false) :
    dealOrphan s o = s := by
  unfold dealOrphan
  rw [if_neg (by simpa [State.station] using lost)]

/-- An orphan run that is still the station's is offered, and listed again if the queue is full (R167). -/
theorem dealOrphan_of_owned {o : Orphan} (owned : runOwned s.table.live o.run s.ctrl.option.station o.tag ≠ false) :
    dealOrphan s o = if offerAnswer (releaseNotice .controller o.tag o.run) s = .full
      then { s with ctrl := { s.ctrl with orphans := s.ctrl.orphans ++ [o] } } else offer (releaseNotice .controller o.tag o.run) s := by
  unfold dealOrphan
  rw [if_pos (by simpa [State.station] using owned)]

end

/-- Settles O48: each part from the lemma of its operation; a RELEASE stays due, or an orphan listed, if the queue is full without it. -/
theorem slotRunsAtRoundStart : Obligations.SlotRunsAtRoundStart := by
  intro s
  refine ⟨fun p => ?_, fun p => heldRound_of_not_held, fun p k rounds run slot held => ⟨heldRound_of_lt held rounds, fun ended => ?_⟩,
    rfl, fun length => ⟨fun r o t => mem_reclaimRuns_iff length, reclaimRuns_pairwise length⟩, fun r o t => ?_, rfl, fun o => ?_⟩
  · refine ⟨takeRuns_of_other, fun live => ?_, fun due unset => ?_, fun r set due => ?_⟩
    · rw [takeRuns_of_live live, State.mapSend, SendEntry.takeSlotRun_eq]
    · rw [takeRuns_of_due due.1 due.2, offerRelease_takeSlotRun_of_none unset]
    · exact takeRuns_of_due_run due.1 due.2 set decide_eq_true_iff
  · have slotRun : (s.send.get p).outheld.slotRun = some run := slot
    obtain ⟨due, full⟩ : ∃ due : Bool, due = true ↔ 8 ≤ s.notices.queue.length ∧ ¬ s.ReleaseQueued (s.tagOf p) run :=
      by classical exact ⟨decide _, decide_eq_true_iff⟩
    rw [heldRound_of_le held rounds slot ended, offerRelease_mapSend_of_run slotRun full]
    refine ⟨?_, ?_, ?_, ?_, rfl, giveEvent_mgmt_congr _ rfl rfl⟩
    all_goals simp [SendEntry.outheld, slot]
  · intro q
    split
    · next refused => exact offerReclaim_of_refused refused
    · next queued => exact offerReclaim_of_queued queued
  · intro q duplicate
    split
    · next lost => exact dealOrphan_of_lost lost
    · next owned =>
      have full_iff : offerAnswer (releaseNotice .controller o.tag o.run) s = .full ↔ 8 ≤ s.notices.queue.length ∧ ¬ duplicate :=
        offerAnswer_release_full_iff
      rw [dealOrphan_of_owned owned]
      simp only [full_iff]
      rfl

end Sys2Proof.Machine
end

section
/-! PROOF LAYER. A re-send that reaches its last element (R22, R133, R134). -/

namespace Sys2Proof.Machine

open Sys2Proof

section
variable {s : State} {b : Block}

/-! ### The block that is out: driven, or handed over for the slot in progress -/

/-- The block of the field in progress, a re-send or the station's own. -/
def State.blockOut (s : State) : Option Block :=
  match s.drive.content with
  | .block b => some b
  | _ => s.drive.handed.map (fun x => x.2)

theorem resendOut_eq_filter (s : State) : s.resendOut = s.blockOut.filter (fun b => b.header.resend) := by
  unfold State.resendOut State.blockOut
  cases s.drive.content with
  | block b => simp [Option.filter]
  | none | mark | leadIn | noticeBody | accept | dissent => rfl

theorem resendOut_of_resend (out : s.blockOut = some b) (resend : b.header.resend = true) : s.resendOut = some b := by
  rw [resendOut_eq_filter, out, Option.filter_some, if_pos resend]

theorem resendOut_of_own (out : s.blockOut = some b) (own : b.header.resend = false) : s.resendOut = none := by
  rw [resendOut_eq_filter, out, Option.filter_some, own]
  rfl

theorem resendOut_of_none (out : s.blockOut = none) : s.resendOut = none := by
  rw [resendOut_eq_filter, out, Option.filter_none]

/-! ### The last element of a re-send -/

/-- The block is driven, on at least one lane not cut (R22, R134). -/
def State.Drives (s : State) (b : Block) : Prop :=
  s.drive.content = .block b ∧ (s.lanes.a.drive = .driving ∨ s.lanes.b.drive = .driving)

theorem endResend_of_drives (h : s.Drives b) : endResend b s = dropResend b.header.tag b.header.seq s :=
  if_pos (by simpa [State.Drives, PerLane.any] using h)

theorem endResend_of_not_drives (h : ¬ s.Drives b) : endResend b s = s :=
  if_neg (by simpa [State.Drives, PerLane.any] using h)

theorem exec_resendSent_of_none (free : s.holding = false) (out : s.resendOut = none) : exec .resendSent s = .next s := by
  change execResendSent s = _
  rw [execResendSent, running_of_free free, out]

theorem exec_resendSent_of_some (free : s.holding = false) (out : s.resendOut = some b) :
    exec .resendSent s = .next (dated (blockEnd b) (endResend b) s) := by
  change execResendSent s = _
  rw [execResendSent, running_of_free free, out]

end

/-- Settles O34: with a re-send out, by whether its end is reached and whether it is driven there; otherwise no re-send is out. -/
theorem resendSentLeavesQueue : Obligations.ResendSentLeavesQueue := by
  intro s free out
  refine ⟨fun b isOut resend => ?_, fun b isOut own => exec_resendSent_of_none free (resendOut_of_own isOut own),
    fun noneOut => exec_resendSent_of_none free (resendOut_of_none noneOut)⟩
  intro start ends u sent
  have answers : exec .resendSent s = .next (dated ends (endResend b) s) :=
    exec_resendSent_of_some free (resendOut_of_resend isOut resend)
  rw [answers]
  refine ⟨fun passed => ?_, fun reached driven => ?_, fun reached cut => ?_⟩
  · rw [dated_of_not _ passed]
  · rw [dated_of_reaches _ reached, endResend_of_drives driven]
    rfl
  · rw [dated_of_reaches _ reached, endResend_of_not_drives cut]

end Sys2Proof.Machine
end

section
/-! PROOF LAYER. OPEN_RECEIVE (R106, R139, R141): the ranges of its arguments, its tests in their order, and the entry it opens. -/

namespace Sys2Proof.Machine

open Sys2Proof

/-! ### The ranges of the arguments (R141) -/

theorem winClassOf_eq_none_iff {b : Byte} : winClassOf b = none ↔ 3 < b.toNat := by
  unfold winClassOf
  split
  iterate 4
    · next h => simp [h]
  · next zero one two three =>
    simp only [imp_false] at zero one two three
    simp only [true_iff]
    omega

theorem playoutDelay_eq_none_iff {d : BitVec 16} : playoutDelay d = none ↔ ¬ (16 ≤ d.toNat ∧ d.toNat ≤ 2047) := by
  unfold playoutDelay
  split <;> simp_all

section
variable {s : State} {b : Byte}

/-- The station of a tag in range is compared as a number. -/
theorem ownTag_ofNat_iff (tag : b.toNat < 64) : s.ownTag (BitVec.ofNat 6 b.toNat) = true ↔ b.toNat / 4 = s.ctrl.option.station.toNat := by
  simp only [State.ownTag, tagStation, State.station, beq_iff_eq, ← BitVec.toNat_inj, BitVec.toNat_ofNat]
  omega

theorem remoteTag_eq_none_iff : remoteTag s b = none ↔ ¬ (b.toNat ≤ 63 ∧ b.toNat / 4 ≠ s.ctrl.option.station.toNat) := by
  unfold remoteTag
  by_cases tag : b.toNat < 64
  · have own := ownTag_ofNat_iff (s := s) tag
    have : b.toNat ≤ 63 := by omega
    cases h : s.ownTag (BitVec.ofNat 6 b.toNat) <;> simp_all
  · simp [tag]
    omega

theorem remoteTag_of_remote (tag : b.toNat ≤ 63) (remote : b.toNat / 4 ≠ s.ctrl.option.station.toNat) :
    remoteTag s b = some (BitVec.ofNat 6 b.toNat) := by
  have own := mt (ownTag_ofNat_iff (s := s) (by omega)).mp remote
  refine if_pos ?_
  simp only [Bool.and_eq_true, decide_eq_true_eq, Bool.not_eq_true']
  exact ⟨by omega, Bool.eq_false_iff.mpr own⟩

end

/-! ### The tests in their order -/

section
variable {s : State} {p : Port} {w : WinClass} {port tag cls : Byte} {delay : BitVec 16}

theorem openReceive_of_outOfRange (joined : s.ctrl.mode = .joined)
    (h : portOf port = none ∨ remoteTag s tag = none ∨ playoutDelay delay = none ∨ winClassOf cls = none) :
    openReceive port tag delay cls s = reply .badArg .none s := by
  unfold openReceive
  simp only [joined, bne_self_eq_false, Bool.false_eq_true, if_false]
  split
  · next hp ht hd hw => simp [hp, ht, hd, hw] at h
  · rfl

/-- The station with the stream st open at port p, and DONE with its state (R141). -/
def State.opened (s : State) (p : Port) (st : RecvStream) : State :=
  reply .done (.newState (if st.active then .active else .waiting))
    (s.mapRecv p (fun _ => { stream := some st, out := [], overflow := false }))

/-- The tests that follow the ranges: the state of the entry, the window against the delay, the room in the block store (R141). -/
theorem openReceive_of_inRange {t : Tag} {d : Nat} (joined : s.ctrl.mode = .joined) (hport : portOf port = some p)
    (htag : remoteTag s tag = some t) (hdelay : playoutDelay delay = some d) (hcls : winClassOf cls = some w) :
    openReceive port tag delay cls s =
      if (s.recv.get p).stream.isSome then reply .portTaken .none s
      else if w.size < (d + 1) * slotsOf s.table.live t then reply .badArg .none s
      else if 4096 < s.reserved + w.size then reply .noRoom .none s
      else s.opened p (newStream s t d w) := by
  simp only [openReceive, joined, hport, htag, hdelay, hcls, bne_self_eq_false, Bool.false_eq_true, if_false]
  rfl

theorem opened_reserved {st : RecvStream} (closed : (s.recv.get p).stream = none) :
    (s.opened p st).reserved = s.reserved + st.cls.size :=
  reserved_of_setRecv (e := { stream := some st, out := [], overflow := false }) rfl rfl (by simp [RecvEntry.reservation, closed])

end

/-- Settles O8: the tests of OPEN_RECEIVE in their order, each with its reply, and the entry that passes them all. -/
theorem openReceiveTestedAndOpened : Obligations.OpenReceiveTestedAndOpened := by
  intro port tag delay cls s ⟨free, idle⟩ answers inRange
  have taken : exec (.openReceive port tag delay cls) s = .next (openReceive port tag delay cls s) := request_taken free idle
  have answered {c : ReplyCode} (h : openReceive port tag delay cls s = reply c .none s) : answers c := taken.trans (congrArg _ h)
  refine ⟨fun mode => answered ?_, fun joined outside => answered (openReceive_of_outOfRange joined ?_), ?_⟩
  · simp [openReceive, mode]
  · rw [portOf_eq_none_iff, remoteTag_eq_none_iff, playoutDelay_eq_none_iff, winClassOf_eq_none_iff]
    simp only [inRange] at outside
    omega
  · rintro p w joined ⟨-, tagRange, remote, short, long, -⟩ hport hcls
    have hdelay : playoutDelay delay = some delay.toNat := if_pos (by simp [short, long])
    intro owned k
    have tested : openReceive port tag delay cls s =
        if (s.recv.get p).stream.isSome then reply .portTaken .none s
        else if w.size < (delay.toNat + 1) * k then reply .badArg .none s
        else if 4096 < s.reserved + w.size then reply .noRoom .none s
        else s.opened p (newStream s (BitVec.ofNat 6 tag.toNat) delay.toNat w) :=
      openReceive_of_inRange joined hport (remoteTag_of_remote tagRange remote) hdelay hcls
    have shut (closed : (s.recv.get p).stream = none) : ¬ (s.recv.get p).stream.isSome = true := by simp [closed]
    refine ⟨fun used => answered ?_, fun closed wide => answered ?_, fun closed narrow full => answered ?_,
      fun closed narrow room => ⟨_, taken, ?_⟩⟩
    · rw [tested, if_pos (Option.isSome_iff_ne_none.mpr used)]
    · rw [tested, if_neg (shut closed), if_pos wide]
    · rw [tested, if_neg (shut closed), if_neg (Nat.not_lt.mpr narrow), if_pos full]
    · rw [tested, if_neg (shut closed), if_neg (Nat.not_lt.mpr narrow), if_neg (Nat.not_lt.mpr room)]
      refine ⟨?_, opened_reserved closed⟩
      simp only [State.opened, newStream, decide_eq_true_eq]
      rfl

end Sys2Proof.Machine
end

section
/-! PROOF LAYER. The gap list (R149, R151, R152). -/

namespace Sys2Proof.Machine

open Sys2Proof

section
variable {q : Seq} {gaps front rest : List GapRun} {r : GapRun}

/-! ### A sequence joins (R151) -/

theorem joinGap_nil (q : Seq) : joinGap q [] = [{ first := q, count := 1, asksUsed := 0, ask := none }] := rfl

/-- The last run decides: it is extended, or a new run begins behind it while fewer than 16 are listed. -/
theorem joinGap_concat (q : Seq) (front : List GapRun) (r : GapRun) : joinGap q (front ++ [r]) =
    if r.first + BitVec.ofNat 16 r.count = q then front ++ [{ r with count := r.count + 1 }]
    else if (front ++ [r]).length < 16 then front ++ [r] ++ [{ first := q, count := 1, asksUsed := 0, ask := none }]
    else front ++ [r] := by
  simp [joinGap, Config.gapListSize]

/-! ### A sequence leaves (R152) -/

theorem GapRun.has_iff : r.has q = true ↔ (q - r.first).toNat < r.count :=
  decide_eq_true_iff

theorem removeFrom_of_absent {room : Bool} (absent : ∀ y ∈ gaps, ¬ (q - y.first).toNat < y.count) : removeFrom q room gaps = gaps := by
  induction gaps with
  | nil => rfl
  | cons y gaps ih =>
    obtain ⟨head, tail⟩ := List.forall_mem_cons.mp absent
    rw [removeFrom, if_neg (mt GapRun.has_iff.mp head), ih tail]

/-- The first run that holds the sequence loses it, the others stand. -/
theorem removeFrom_append {room : Bool} (absent : ∀ y ∈ front, ¬ (q - y.first).toNat < y.count) (holds : (q - r.first).toNat < r.count) :
    removeFrom q room (front ++ r :: rest) = front ++ r.without q room ++ rest := by
  induction front with
  | nil => simp [removeFrom, GapRun.has_iff.mpr holds]
  | cons y front ih =>
    obtain ⟨head, tail⟩ := List.forall_mem_cons.mp absent
    simp [removeFrom, mt GapRun.has_iff.mp head, ih tail]

theorem leaveGap_of_absent (absent : ∀ y ∈ gaps, ¬ (q - y.first).toNat < y.count) : leaveGap q gaps = gaps :=
  removeFrom_of_absent absent

section
variable {room : Bool}

theorem GapRun.without_of_one (one : r.count = 1) : r.without q room = [] := by
  simp [GapRun.without, one]

theorem GapRun.without_first (more : 1 < r.count) (first : (q - r.first).toNat = 0) :
    r.without q room = [({ r with first := r.first + 1, count := r.count - 1 } : GapRun).settle] := by
  simp [GapRun.without, GapRun.offset, Nat.not_le.mpr more, first]

theorem GapRun.without_last (more : 1 < r.count) (last : (q - r.first).toNat + 1 = r.count) :
    r.without q room = [({ r with count := r.count - 1 } : GapRun).settle] := by
  have inside : (q - r.first).toNat ≠ 0 := by omega
  simp only [GapRun.without, GapRun.offset, Nat.not_le.mpr more, inside, last, if_true, if_false]

/-- A sequence inside a run divides it, or cuts it off where no further run may be listed. -/
theorem GapRun.without_inside (left : 0 < (q - r.first).toNat) (right : (q - r.first).toNat + 1 < r.count) :
    r.without q room =
      if room then
        [({ r with count := (q - r.first).toNat } : GapRun).settle,
         ({ r with first := q + 1, count := r.count - ((q - r.first).toNat + 1) } : GapRun).settle]
      else [({ r with count := (q - r.first).toNat } : GapRun).settle] := by
  have more : ¬ r.count ≤ 1 := by omega
  have inner : (q - r.first).toNat + 1 ≠ r.count := by omega
  simp only [GapRun.without, GapRun.offset, more, left.ne', inner, if_false]

end

theorem gapsAfter_cons (gen : Gen) (pl : Place) (played : List Place) (gaps : List GapRun) :
    gapsAfter gen (pl :: played) gaps
      = gapsAfter gen played (if pl.block = none ∧ pl.gen = gen then leaveGap pl.seq gaps else gaps) := by
  simp [gapsAfter]

end

/-- Settles O41: the last run decides at a join, the first run that holds the sequence where one leaves. -/
theorem gapListJoinsAndLeaves : Obligations.GapListJoinsAndLeaves := by
  refine ⟨fun q gaps => ?_, fun q gaps => ?_, fun gen pl played gaps => ⟨rfl, gapsAfter_cons gen pl played gaps⟩⟩
  · refine ⟨?_, fun empty => empty ▸ joinGap_nil q⟩
    rintro front r rfl
    have join := joinGap_concat q front r
    refine ⟨fun follows => ?_, fun apart room => ?_, fun apart full => ?_⟩
    · rw [join, if_pos follows]
    · rw [join, if_neg apart, if_pos room]
    · rw [join, if_neg apart, if_neg (Nat.not_lt.mpr full)]
  · intro holds settled
    have settles : settled = GapRun.settle := by
      funext r
      unfold settled GapRun.settle
      cases r.ask <;> rfl
    clear_value settled
    subst settles
    refine ⟨leaveGap_of_absent, ?_⟩
    rintro front rest r rfl absent held i becomes
    have leave {l : List GapRun} (h : r.without q (decide ((front ++ r :: rest).length < 16)) = l.map GapRun.settle) : becomes l :=
      (removeFrom_append absent held).trans (congrArg (fun x => front ++ x ++ rest) h)
    refine ⟨fun one => leave (GapRun.without_of_one one), fun more first => leave (GapRun.without_first more first),
      fun more last => leave (GapRun.without_last more last), fun left right room => leave ?_, fun left right full => leave ?_⟩
    · rw [GapRun.without_inside left right, decide_eq_true room]
      rfl
    · rw [GapRun.without_inside left right, decide_eq_false (Nat.not_lt.mpr full)]
      rfl

end Sys2Proof.Machine
end

section
/-! PROOF LAYER. Asks at a round start: the candidate that the repair asker offers, and the waits of ASKED runs (R153, R155). -/

namespace Sys2Proof.Machine

open Sys2Proof

/-! ### Events given one after another -/

theorem foldl_giveEvent_mgmt_congr {α : Type} (f : α → Event) (l : List α) {s t : State} (round : s.clock.round = t.clock.round)
    (mgmt : s.mgmt = t.mgmt) :
    (l.foldl (fun v x => giveEvent (f x) v) s).mgmt = (l.foldl (fun v x => giveEvent (f x) v) t).mgmt := by
  induction l generalizing s t with
  | nil => exact mgmt
  | cons x l ih => exact ih round (giveEvent_mgmt_congr _ round mgmt)

/-- A step that leaves every other part of the station alone changes the receive entries and the management port at most. -/
theorem State.eq_of_recv_mgmt {s t : State} (h : t.pending = s.pending ∧ t.hold = s.hold ∧ t.clock = s.clock ∧ t.lanes = s.lanes
      ∧ t.drive = s.drive ∧ t.table = s.table ∧ t.notices = s.notices ∧ t.send = s.send ∧ t.repair = s.repair ∧ t.ctrl = s.ctrl) :
    t = { s with recv := t.recv, mgmt := t.mgmt } := by
  obtain ⟨pending, hold, clock, lanes, drive, table, notices, send, repair, ctrl⟩ := h
  rw [← pending, ← hold, ← clock, ← lanes, ← drive, ← table, ← notices, ← send, ← repair, ← ctrl]

/-! ### The candidates of the repair asker, with their places in the gap list (R153) -/

/-- The candidate that an UNASKED run of the stream at port p makes, if its first sequence is due far enough ahead. -/
def RecvStream.candidate (st : RecvStream) (now : Round) (p : Port) (an : Anchor) (r : GapRun) : Option AskCandidate :=
  match st.window[an.place r.first]? with
  | some pl =>
    if r.unasked && farAhead now pl.due then
      some { port := p, tag := st.tag, first := r.first, count := min 16 r.count, lead := (pl.due - now).toNat }
    else none
  | none => none

theorem farAhead_iff {now due : Round} : farAhead now due = true ↔ serialAhead now due = true ∧ 8 ≤ (due - now).toNat := by
  rw [farAhead, Bool.and_eq_true]
  exact and_congr_right fun _ => decide_eq_true_iff

theorem RecvStream.candidate_eq_some_iff {st : RecvStream} {now : Round} {p : Port} {an : Anchor} {r : GapRun} {c : AskCandidate} :
    st.candidate now p an r = some c ↔ r.ask = none ∧ ∃ pl, st.window[(r.first - an.nextPlayout).toNat]? = some pl
      ∧ serialAhead now pl.due = true ∧ 8 ≤ (pl.due - now).toNat
      ∧ c = { port := p, tag := st.tag, first := r.first, count := min 16 r.count, lead := (pl.due - now).toNat } := by
  unfold RecvStream.candidate Anchor.place
  cases st.window[(r.first - an.nextPlayout).toNat]? with
  | none => simp
  | some pl => simp [GapRun.unasked, farAhead_iff, eq_comm (a := c), and_assoc, -BitVec.toNat_sub]

/-- The stream of an ACTIVE anchored entry, with its anchor. -/
def askedStream (s : State) (p : Port) : Option (RecvStream × Anchor) :=
  (s.recv.get p).stream.bind (fun st => if st.active then st.anchor.map (fun an => (st, an)) else none)

theorem askedStream_eq_some_iff {s : State} {p : Port} {st : RecvStream} {an : Anchor} :
    askedStream s p = some (st, an) ↔ (s.recv.get p).stream = some st ∧ st.active = true ∧ st.anchor = some an := by
  unfold askedStream
  cases (s.recv.get p).stream with
  | none => simp
  | some x =>
    simp only [Option.bind_some, Option.ite_none_right_eq_some, Option.map_eq_some_iff, Prod.mk.injEq, Option.some.injEq]
    constructor
    · rintro ⟨active, an', anchor, rfl, rfl⟩
      exact ⟨rfl, active, anchor⟩
    · rintro ⟨rfl, active, anchor⟩
      exact ⟨active, an, anchor, rfl, rfl⟩

/-- The candidates of one entry, each with the place of its run in the gap list. -/
def placedCandidates (s : State) (p : Port) : List (AskCandidate × Nat) :=
  match askedStream s p with
  | some (st, an) => st.gaps.zipIdx.filterMap (fun x => (st.candidate s.clock.round p an x.1).map (fun c => (c, x.2)))
  | none => []

theorem askCandidates_eq (s : State) (p : Port) : askCandidates s p = (placedCandidates s p).map (fun x => x.1) := by
  unfold askCandidates placedCandidates askedStream
  cases (s.recv.get p).stream with
  | none => rfl
  | some st =>
    cases active : st.active with
    | false => simp [active]
    | true =>
      cases anchor : st.anchor with
      | none => simp [active, anchor]
      | some an =>
        have runs : st.gaps.zipIdx.map (fun x => x.1) = st.gaps := List.zipIdx_map_fst 0 st.gaps
        simp only [Option.bind_some, active, anchor, if_true, Option.map_some, List.map_filterMap, Option.map_map, Function.comp_def,
          Option.map_id']
        conv_lhs => rw [← runs]
        rw [List.filterMap_map]
        rfl

/-- A candidate of the station at a place of its entry's gap list (R153). -/
def State.Candidate (s : State) (c : AskCandidate) (i : Nat) : Prop :=
  ∃ (st : RecvStream) (an : Anchor) (r : GapRun) (pl : Place),
    (s.recv.get c.port).stream = some st ∧ st.active = true ∧ st.anchor = some an ∧ st.gaps[i]? = some r ∧ r.ask = none
    ∧ st.window[(r.first - an.nextPlayout).toNat]? = some pl ∧ serialAhead s.clock.round pl.due = true
    ∧ 8 ≤ (pl.due - s.clock.round).toNat
    ∧ c = { port := c.port, tag := st.tag, first := r.first, count := min 16 r.count, lead := (pl.due - s.clock.round).toNat }

theorem mem_placedCandidates_iff {s : State} {p : Port} {c : AskCandidate} {i : Nat} :
    (c, i) ∈ placedCandidates s p ↔ c.port = p ∧ s.Candidate c i := by
  have found {st : RecvStream} {an : Anchor} : (c, i) ∈ st.gaps.zipIdx.filterMap
      (fun x => (st.candidate s.clock.round p an x.1).map (fun c => (c, x.2)))
        ↔ ∃ r, st.gaps[i]? = some r ∧ st.candidate s.clock.round p an r = some c := by
    simp only [List.mem_filterMap, Option.map_eq_some_iff, Prod.mk.injEq, Prod.exists, List.mem_zipIdx_iff_getElem?]
    constructor
    · rintro ⟨r, j, hr, d, hd, rfl, rfl⟩
      exact ⟨r, hr, hd⟩
    · rintro ⟨r, hr, hd⟩
      exact ⟨r, i, hr, c, hd, rfl, rfl⟩
  unfold placedCandidates
  constructor
  · intro mem
    split at mem
    · next st an asked =>
      obtain ⟨stream, active, anchor⟩ := askedStream_eq_some_iff.mp asked
      obtain ⟨r, hr, hc⟩ := found.mp mem
      obtain ⟨unasked, pl, place, ahead, lead, rfl⟩ := RecvStream.candidate_eq_some_iff.mp hc
      exact ⟨rfl, st, an, r, pl, stream, active, anchor, hr, unasked, place, ahead, lead, rfl⟩
    · cases mem
  · rintro ⟨rfl, st, an, r, pl, stream, active, anchor, hr, unasked, place, ahead, lead, hc⟩
    rw [askedStream_eq_some_iff.mpr ⟨stream, active, anchor⟩]
    exact found.mpr ⟨r, hr, RecvStream.candidate_eq_some_iff.mpr ⟨unasked, pl, place, ahead, lead, hc⟩⟩

/-- The first stands before the second: at a lower entry, or earlier in the gap list of the same. -/
def Precedes (x y : AskCandidate × Nat) : Prop :=
  portNumber x.1.port < portNumber y.1.port ∨ x.1.port = y.1.port ∧ x.2 < y.2

theorem placedCandidates_pairwise (s : State) (p : Port) : (placedCandidates s p).Pairwise Precedes := by
  unfold placedCandidates
  split
  · next st an _ =>
    rw [List.pairwise_filterMap]
    have places : st.gaps.zipIdx.Pairwise (fun x y => x.2 < y.2) := by
      rw [← List.pairwise_map (f := fun x : GapRun × Nat => x.2), List.zipIdx_map_snd]
      exact List.pairwise_lt_range'
    refine places.imp fun earlier => ?_
    simp only [Option.map_eq_some_iff]
    rintro _ ⟨c, hc, rfl⟩ _ ⟨d, hd, rfl⟩
    obtain ⟨-, -, -, -, -, rfl⟩ := RecvStream.candidate_eq_some_iff.mp hc
    obtain ⟨-, -, -, -, -, rfl⟩ := RecvStream.candidate_eq_some_iff.mp hd
    exact .inr ⟨rfl, earlier⟩
  · exact .nil

/-- The candidates of the station, by entry and by place. -/
def State.candidates (s : State) : List (AskCandidate × Nat) := allPorts.flatMap (placedCandidates s)

theorem mem_candidates_iff {s : State} {c : AskCandidate} {i : Nat} : (c, i) ∈ s.candidates ↔ s.Candidate c i := by
  simp only [State.candidates, List.mem_flatMap, mem_placedCandidates_iff]
  constructor
  · rintro ⟨p, -, -, h⟩
    exact h
  · intro h
    exact ⟨c.port, by cases c.port <;> decide, rfl, h⟩

theorem candidates_pairwise (s : State) : s.candidates.Pairwise Precedes := by
  refine List.pairwise_flatMap.mpr ⟨fun p _ => placedCandidates_pairwise s p, ?_⟩
  have ports : allPorts.Pairwise (fun p q => portNumber p < portNumber q) := by decide
  refine ports.imp fun lower x hx y hy => .inl ?_
  rw [(mem_placedCandidates_iff.mp hx).1, (mem_placedCandidates_iff.mp hy).1]
  exact lower

/-! ### The earliest candidate (R153, log 62) -/

/-- The earliest candidate is due before each that stands in front of it, and not after any that stands behind it. -/
theorem earliestCandidate_eq_some {l : List AskCandidate} {d : AskCandidate} (h : earliestCandidate l = some d) :
    ∃ front back, l = front ++ d :: back ∧ (∀ x ∈ front, d.lead < x.lead) ∧ ∀ x ∈ back, d.lead ≤ x.lead := by
  induction l generalizing d with
  | nil => cases h
  | cons c l ih =>
    unfold earliestCandidate at h
    cases later : earliestCandidate l with
    | none =>
      have empty : l = [] := by
        cases l with
        | nil => rfl
        | cons x l =>
          unfold earliestCandidate at later
          (repeat' split at later) <;> cases later
      rw [later] at h
      cases h
      exact ⟨[], l, rfl, by simp, by simp [empty]⟩
    | some e =>
      obtain ⟨front, back, rfl, before, after⟩ := ih later
      simp only [later] at h
      split at h
      · next earlier =>
        cases h
        exact ⟨c :: front, back, rfl, List.forall_mem_cons.mpr ⟨earlier, before⟩, after⟩
      · next notLater =>
        cases h
        refine ⟨[], front ++ e :: back, rfl, by simp, fun x hx => ?_⟩
        rcases List.mem_append.mp hx with hx | hx
        · exact (Nat.not_lt.mp notLater).trans (before x hx).le
        · rcases List.mem_cons.mp hx with rfl | hx
          · exact Nat.not_lt.mp notLater
          · exact (Nat.not_lt.mp notLater).trans (after x hx)

theorem earliestCandidate_eq_none_iff {l : List AskCandidate} : earliestCandidate l = none ↔ l = [] := by
  cases l with
  | nil => simp [earliestCandidate]
  | cons c l =>
    unfold earliestCandidate
    (repeat' split) <;> simp

/-- The candidate that the asker offers, with its place, and how it stands to every other. -/
theorem exists_earliest {s : State} (h : s.candidates ≠ []) :
    ∃ d i, earliestCandidate (allPorts.flatMap (askCandidates s)) = some d ∧ s.Candidate d i
      ∧ ∀ x k, s.Candidate x k → d.lead < x.lead
        ∨ d.lead = x.lead ∧ (portNumber d.port < portNumber x.port ∨ d.port = x.port ∧ i ≤ k) := by
  have placed : allPorts.flatMap (askCandidates s) = s.candidates.map (fun x => x.1) := by
    simp only [State.candidates, List.map_flatMap, ← askCandidates_eq]
  cases earliest : earliestCandidate (allPorts.flatMap (askCandidates s)) with
  | none => exact absurd (earliestCandidate_eq_none_iff.mp earliest) (by simpa [placed] using h)
  | some d =>
    obtain ⟨front, back, split, before, after⟩ := earliestCandidate_eq_some earliest
    obtain ⟨front', back', hl, hfront, hback⟩ := List.map_eq_append_iff.mp (placed.symm.trans split)
    obtain ⟨⟨d', i⟩, back'', rfl, rfl, htail⟩ := List.map_eq_cons_iff.mp hback
    have ordered := candidates_pairwise s
    rw [hl] at ordered
    refine ⟨d', i, rfl, mem_candidates_iff.mp (by simp [hl]), fun x k hx => ?_⟩
    have mem : (x, k) ∈ front' ++ (d', i) :: back'' := hl ▸ mem_candidates_iff.mpr hx
    rcases List.mem_append.mp mem with inFront | inBack
    · exact .inl (before x (hfront ▸ List.mem_map_of_mem inFront))
    rcases List.mem_cons.mp inBack with same | inBack
    · cases same
      exact .inr ⟨rfl, .inr ⟨rfl, le_rfl⟩⟩
    · have behind : Precedes (d', i) (x, k) :=
        (List.pairwise_cons.mp (List.pairwise_append.mp ordered).2.1).1 _ inBack
      have lead : d'.lead ≤ x.lead := after x (htail ▸ List.mem_map_of_mem inBack)
      refine lead.lt_or_eq.imp_right fun same => ⟨same, behind.imp_right fun ⟨port, place⟩ => ⟨port, place.le⟩⟩

section
variable {s : State}

theorem askRepairs_of_queued (h : ∃ q ∈ s.notices.queue, q.kind = .repairAsk) : askRepairs s = s := by
  unfold askRepairs
  rw [if_pos (by simpa using h)]

section
variable (free : ∀ q ∈ s.notices.queue, q.kind ≠ .repairAsk)
include free

theorem askRepairs_of_none (unfound : earliestCandidate (allPorts.flatMap (askCandidates s)) = none) : askRepairs s = s := by
  unfold askRepairs
  rw [if_neg (by simpa using free), unfound]

theorem askRepairs_of_some {c : AskCandidate} (found : earliestCandidate (allPorts.flatMap (askCandidates s)) = some c) :
    askRepairs s = offer (askNotice c.port c.tag c.first c.count) s := by
  unfold askRepairs
  rw [if_neg (by simpa using free), found]

end

/-! ### The waits of ASKED runs (R155) -/

theorem endWaits_of_none {p : Port} (h : (s.recv.get p).stream = none) : endWaits p s = s := by
  simp only [endWaits, h]

/-- The wait of a run is over, after three asks: the run is abandoned. -/
def GapRun.abandoned (now : Round) (r : GapRun) : Bool := r.waitedOut now && decide (3 ≤ r.asksUsed)

/-- The gap list after the waits: the abandoned runs are gone, the others that have waited are UNASKED. -/
def waitedGaps (now : Round) (gaps : List GapRun) : List GapRun :=
  (gaps.filter (fun r => !r.abandoned now)).map (fun r => if r.waitedOut now then { r with ask := none } else r)

theorem endWaits_of_stream {p : Port} {st : RecvStream} (h : (s.recv.get p).stream = some st) :
    endWaits p s = (st.gaps.filter (GapRun.abandoned s.clock.round)).foldl
      (fun v r => giveEvent (.repairGone p r.first r.count .limit) v)
      { s with recv := s.recv.set p { s.recv.get p with stream := some { st with gaps := waitedGaps s.clock.round st.gaps } } } := by
  simp only [endWaits, h, mapStream_of_some h]
  rfl

end

/-- Settles O47: the earliest of the candidates by entry and place, and the waits of one entry's gap list. -/
theorem asksOfferedAndAwaited : Obligations.AsksOfferedAndAwaited := by
  intro s now candidate
  refine ⟨askRepairs_of_queued, fun free => ?_, fun p st stream => ?_, fun p => endWaits_of_none⟩
  · refine ⟨fun nothing => askRepairs_of_none free ?_, fun c j hc => ?_⟩
    · have empty : s.candidates = [] :=
        List.eq_nil_iff_forall_not_mem.mpr fun x hx => nothing x.1 x.2 (mem_candidates_iff.mp hx)
      rw [earliestCandidate_eq_none_iff]
      simpa [State.candidates, askCandidates_eq] using empty
    · obtain ⟨d, i, earliest, hd, least⟩ := exists_earliest (List.ne_nil_of_mem (mem_candidates_iff.mpr hc))
      exact ⟨d, i, hd, least, askRepairs_of_some free earliest⟩
  · intro waited gone
    have waits : waited = GapRun.waitedOut now := by
      funext r
      unfold waited GapRun.waitedOut
      cases r.ask <;> rfl
    have abandons : gone = GapRun.abandoned now := by
      funext r
      unfold gone GapRun.abandoned
      rw [waits]
    clear_value gone waited
    subst abandons waits
    refine ⟨?_, ?_, State.eq_of_recv_mgmt (endWaits_frame p s)⟩
    · rw [endWaits_of_stream stream, foldl_recv _ (by simp)]
      rfl
    · rw [endWaits_of_stream stream]
      exact foldl_giveEvent_mgmt_congr _ _ rfl rfl

end Sys2Proof.Machine
end

section
/-! PROOF LAYER. The answer close at a station that has no notice in flight (R58, R65, R66, R94, R95, R97, R142, R157). -/

namespace Sys2Proof.Machine

open Sys2Proof

section
variable {s u : State} {a b : AnswerReading} {ans : AnswerRecord} {sendFirst : Bool} {tc : Tentative}

/-! ### The answer field, read -/

theorem takeAnswers_committed_of_silent (silent : s.completed = false) (tentative : s.notices.tentative = some tc)
    (dissent : ans.dissent = false) :
    takeAnswers ans sendFirst s = tableChanged sendFirst (commitChange tc (applyIf s.notices.rollCall (hearRollCall ans) s)) := by
  have silent : (applyIf s.notices.rollCall (hearRollCall ans) s).completed = false := by simpa [State.completed] using silent
  have tentative : (applyIf s.notices.rollCall (hearRollCall ans) s).notices.tentative = some tc := by simpa using tentative
  unfold takeAnswers
  dsimp only
  rw [tentative, silent, dissent]
  rfl

theorem takeAnswers_discarded_of_silent (silent : s.completed = false)
    (discarded : (s.notices.tentative.isSome && !ans.dissent) = false) :
    takeAnswers ans sendFirst s = applyIf s.notices.rollCall (hearRollCall ans) s := by
  have silent : (applyIf s.notices.rollCall (hearRollCall ans) s).completed = false := by simpa [State.completed] using silent
  have tentative : (applyIf s.notices.rollCall (hearRollCall ans) s).notices.tentative = s.notices.tentative := by simp
  unfold takeAnswers
  dsimp only
  rw [tentative, silent]
  cases h : s.notices.tentative with
  | none => rfl
  | some tc =>
    have dissent : ans.dissent = true := by simpa [h] using discarded
    rw [dissent]
    rfl

section
variable (read : (mergeAnswers u.lanes a b).read = true) (silent : u.completed = false)
include read silent

theorem closeAnswers_committed_of_silent (commits : u.Commits a b tc) :
    closeAnswers a b sendFirst u
      = beginField Config.answerCloseAt (dropAnswer (tableChanged sendFirst (commitChange tc (u.answered a b)))) := by
  unfold closeAnswers
  dsimp only
  rw [if_pos read, takeAnswers_committed_of_silent (by simpa [State.completed] using silent) (by simpa using commits.1) commits.2]
  rfl

theorem closeAnswers_discarded_of_silent (discards : u.Discards a b) :
    closeAnswers a b sendFirst u = beginField Config.answerCloseAt (dropAnswer (u.answered a b)) := by
  unfold closeAnswers
  dsimp only
  rw [if_pos read, takeAnswers_discarded_of_silent (by simpa [State.completed] using silent) (by simpa [State.Discards] using discards)]
  rfl

end

/-- Whose answers are heard as the field is read (R65, R97). -/
theorem answered_table (u : State) (a b : AnswerReading) : (u.answered a b).table = { u.table with
    heard := u.table.heard.mapIdx (fun p age =>
      if u.notices.rollCall = true ∧ (mergeAnswers u.lanes a b).accepts.getLsbD p = true then 0 else age) } := by
  unfold State.answered
  cases u.notices.rollCall with
  | false =>
    have ages : u.table.heard.mapIdx (fun _ age => age) = u.table.heard := List.ext_getElem (by simp) (by simp)
    simp [applyIf, ages]
  | true => simp [applyIf, hearRollCall]

theorem answered_hold_pending (u : State) (a b : AnswerReading) : (u.answered a b).hold = u.hold ∧ (u.answered a b).pending = u.pending := by
  unfold State.answered
  simp

theorem answered_of_no_rollCall (h : u.notices.rollCall = false) :
    u.answered a b = { tellLevels a.levelShown b.levelShown u with
      notices := { u.notices with lastAnswer := some (mergeAnswers u.lanes a b) } } := by
  rw [State.answered, h]
  rfl

/-! ### The answer field, unread -/

theorem mergeAnswers_of_not_read {ls : PerLane Lane} (unread : (mergeAnswers ls a b).read = false) :
    mergeAnswers ls a b = { read := false, accepts := 0, dissent := false } := by
  refine mergeAnswers_of_unread (Bool.eq_false_iff.mpr fun contributes => ?_)
  rw [(mergeAnswers_of_read contributes).1] at unread
  cases unread

/-- Without a notice in flight there is no flight to end: the answers are lost with the tentative change alone. -/
theorem flightUnread_of_silent (flight : s.notices.flight = none) (standing : s.inFlight = none) :
    flightUnread s = clearFlight s.unread := by
  rw [flightUnread_of_lost (by simp [State.completed, flight])]
  exact endFlightLost_of_standing fun q hq => absurd (standing.symm.trans hq) nofun

theorem closeAnswers_unread_of_silent (unread : (mergeAnswers u.lanes a b).read = false) (flight : u.notices.flight = none)
    (standing : u.inFlight = none) :
    closeAnswers a b sendFirst u = beginField Config.answerCloseAt (dropAnswer
      (applyIf (u.told a b).owes reportAnswersLost (clearFlight (u.told a b).unread))) := by
  rw [closeAnswers_unread unread, loseAnswers_eq, flightUnread_of_silent (by simpa [State.told] using flight)
    (by simpa [State.told, State.inFlight] using standing)]

/-- Lost answers leave the live table, the epoch and the entries alone. -/
theorem closeAnswers_unread_frame (unread : (mergeAnswers u.lanes a b).read = false) (flight : u.notices.flight = none)
    (standing : u.inFlight = none) :
    (closeAnswers a b sendFirst u).notices.lastAnswer = some { read := false, accepts := 0, dissent := false }
      ∧ (closeAnswers a b sendFirst u).table.epoch = u.table.epoch ∧ (closeAnswers a b sendFirst u).table.live = u.table.live
      ∧ (closeAnswers a b sendFirst u).send = u.send ∧ (closeAnswers a b sendFirst u).recv = u.recv := by
  rw [closeAnswers_unread_of_silent unread flight standing]
  simp [State.unread, recordUnread, State.told]

end

/-- Settles O27: the answer close of a station without a notice in flight, by whether the field is read and whether a change commits. -/
theorem answerCloseCommitsOrDiscards : Obligations.AnswerCloseCommitsOrDiscards := by
  intro a b sendFirst s free due noFlight nothingFlies u ans
  have notices : u.notices = s.notices := atEvent_notices_of_no_flight noFlight
  have table : u.table = s.table := by simp [u]
  have send : u.send = s.send := by simp [u]
  have repair : u.repair = s.repair := by simp [u]
  have recv : u.recv = s.recv := by simp [u]
  have ctrl : u.ctrl = s.ctrl := by simp [u]
  have mgmt : u.mgmt = s.mgmt := by simp [u]
  have hold : u.hold = s.hold := by simp [u]
  have pending : u.pending = s.pending := by simp [u]
  have flight : u.notices.flight = none := by rw [notices, noFlight]
  have standing : u.inFlight = none := by
    rw [State.inFlight, notices, List.find?_eq_none]
    exact fun q hq => by simp [nothingFlies q hq]
  have silent : u.completed = false := by simp [State.completed, flight]
  rw [← notices, ← table, ← send, ← repair, ← recv, ← ctrl, ← mgmt, ← hold, ← pending]
  have closes : exec (.answerClose a b sendFirst) s = .next (closeAnswers a b sendFirst u) := exec_answerClose_of_due free due
  refine ⟨fun tc tentative => ?_, fun noChange readOrSilent => ⟨_, closes, ?_⟩⟩
  · intro use
    refine ⟨_, closes, rfl, rfl, rfl, by simp, by simp, by simp, fun read => ?_, fun read dissent => ?_,
      fun read dissent => ?_, fun unread => ?_, fun unread joined => ?_⟩
    · rcases u.commits_or_discards a b with ⟨tc, commits⟩ | discards
      · rw [closeAnswers_committed_of_silent read silent commits]
        simp [ans]
      · rw [closeAnswers_discarded_of_silent read silent discards]
        simp [ans]
    · have used : tc.use = use := by
        unfold use Tentative.use
        cases tc.kind <;> rfl
      rw [closeAnswers_committed_of_silent read silent ⟨tentative, dissent⟩]
      refine ⟨by simp [commitChange], by simp [commitChange, answered_table], by simp [commitChange, Run.has, used], ?_⟩
      intro told before v noRollCall
      rw [answered_of_no_rollCall noRollCall]
      exact ⟨rfl, rfl, rfl, rfl, rfl⟩
    · rw [closeAnswers_discarded_of_silent read silent (by simp [State.Discards, show (mergeAnswers u.lanes a b).dissent = true from dissent])]
      simp [answered_table]
    · exact closeAnswers_unread_frame unread flight standing
    · rw [closeAnswers_unread unread]
      have owes : (u.told a b).owes = true := by simp [State.owes, State.told, tentative]
      have mode : (u.told a b).ctrl.mode = .joined := by simpa [State.told] using joined
      simpa [State.told] using (loseAnswers_spec (u.told a b)).2.2.2 owes mode
  · cases read : ans.read with
    | true =>
      rw [closeAnswers_discarded_of_silent read silent (by simp [State.Discards, noChange])]
      simp [answered_table, answered_hold_pending, ans]
    | false =>
      have nothingOwed : (u.told a b).owes = false := by
        have sent : u.notices.sentNotice = false := readOrSilent.resolve_left (by simp [read])
        simp [State.owes, State.told, sent, noChange]
      have unreadAnswers : ans = { read := false, accepts := 0, dissent := false } := mergeAnswers_of_not_read read
      have ages : u.table.heard.mapIdx (fun _ age => age) = u.table.heard := List.ext_getElem (by simp) (by simp)
      rw [closeAnswers_unread_of_silent read flight standing, nothingOwed]
      simp [applyIf, State.unread, recordUnread, State.told, unreadAnswers, ages]

end Sys2Proof.Machine
end

section
/-! PROOF LAYER. Playout at a round start (R149, R150): the items handed to the out half, and the runs of lost blocks. -/

namespace Sys2Proof.Machine

open Sys2Proof

/-! ### The items of the places played (R149) -/

/-- What a place hands to the out half when it is played: nothing for a FILL block. -/
def Place.item (pl : Place) : Option (Seq × OutItem) :=
  match pl.block with
  | some (true, _) => none
  | some (false, payload) => some (pl.seq, .block payload)
  | none => some (pl.seq, .lossMarker)

theorem playPlace_eq (p : Port) (pl : Place) (s : State) :
    playPlace p pl s = pl.item.elim s (fun x => handItem p x.1 x.2 s) := by
  unfold playPlace Place.item
  rcases pl.block with - | ⟨fill, payload⟩
  · rfl
  · cases fill <;> rfl

/-- Playing places hands their items in order. -/
theorem foldl_playPlace (p : Port) (played : List Place) (s : State) :
    played.foldl (fun v pl => playPlace p pl v) s = (played.filterMap Place.item).foldl (fun v x => handItem p x.1 x.2 v) s := by
  induction played generalizing s with
  | nil => rfl
  | cons pl played ih =>
    rw [List.foldl_cons, ih, playPlace_eq, List.filterMap_cons]
    cases pl.item <;> rfl

/-! ### The out half (R150) -/

section
variable {p : Port} {s : State}

/-- The first discard of a run of discards is told: at a full out half if the overflow run flag is clear, and after an item was placed. -/
def State.toldOverflow (s : State) (p : Port) (discarded : List (Seq × OutItem)) : State :=
  match discarded with
  | [] => s
  | x :: _ =>
    if (s.recv.get p).out.length < 8 ∨ (s.recv.get p).overflow = false then giveEvent (.recvPortError p (.overflow x.1)) s else s

theorem handItem_of_room {seq : Seq} {item : OutItem} (room : (s.recv.get p).out.length < 8) :
    handItem p seq item s = { s with
      recv := s.recv.set p { s.recv.get p with out := (s.recv.get p).out ++ [item], overflow := false } } :=
  if_pos room

theorem handItem_of_full {seq : Seq} {item : OutItem} (full : (s.recv.get p).out.length = 8) :
    handItem p seq item s = { s.toldOverflow p [(seq, item)] with
      recv := s.recv.set p { s.recv.get p with overflow := true } } := by
  unfold handItem State.toldOverflow Config.fifoSize
  cases flag : (s.recv.get p).overflow with
  | false => simp [full, flag, State.mapRecv, giveEvent]
  | true =>
    have same : s.recv.set p { s.recv.get p with overflow := true } = s.recv := by
      rw [← flag]
      exact PerPort.set_get _ _
    simp [full, flag, same]

theorem State.set_recv_self (s : State) (p : Port) : { s with recv := s.recv.set p (s.recv.get p) } = s := by
  rw [PerPort.set_get]

/-- Items for which the out half has room are all placed. -/
theorem foldl_handItem_of_room (items : List (Seq × OutItem)) (room : (s.recv.get p).out.length + items.length ≤ 8) :
    items.foldl (fun v x => handItem p x.1 x.2 v) s = { s with
      recv := s.recv.set p { s.recv.get p with
        out := (s.recv.get p).out ++ items.map (fun x => x.2)
        overflow := (s.recv.get p).overflow && items.isEmpty } } := by
  induction items generalizing s with
  | nil =>
    simp only [List.foldl_nil, List.map_nil, List.append_nil, List.isEmpty_nil, Bool.and_true]
    exact (s.set_recv_self p).symm
  | cons x items ih =>
    rw [List.length_cons] at room
    rw [List.foldl_cons, handItem_of_room (by omega), ih (by simp only [PerPort.get_set_same, List.length_append, List.length_singleton]; omega)]
    simp

/-- Items that find the out half full are all discarded, and the first of them may be told. -/
theorem foldl_handItem_of_full (items : List (Seq × OutItem)) (full : (s.recv.get p).out.length = 8) :
    items.foldl (fun v x => handItem p x.1 x.2 v) s = { s.toldOverflow p items with
      recv := s.recv.set p { s.recv.get p with overflow := (s.recv.get p).overflow || !items.isEmpty } } := by
  induction items generalizing s with
  | nil =>
    simp only [List.foldl_nil, List.isEmpty_nil, Bool.not_true, Bool.or_false]
    exact (s.set_recv_self p).symm
  | cons x items ih =>
    have silent {v : State} (flag : (v.recv.get p).overflow = true) (same : (v.recv.get p).out.length = 8) :
        v.toldOverflow p items = v := by
      unfold State.toldOverflow
      cases items <;> simp [flag, same]
    rw [List.foldl_cons, handItem_of_full full, ih (by simpa using full), silent (by simp) (by simpa using full)]
    simp [State.toldOverflow]

theorem toldOverflow_clock (discarded : List (Seq × OutItem)) : (s.toldOverflow p discarded).clock = s.clock := by
  unfold State.toldOverflow
  cases discarded with
  | nil => rfl
  | cons x rest =>
    simp only
    split <;> rfl

theorem toldOverflow_mgmt_congr {v : State} (round : v.clock.round = s.clock.round) (mgmt : v.mgmt = s.mgmt)
    (flag : (v.recv.get p).out.length < 8 ∨ (v.recv.get p).overflow = false
      ↔ (s.recv.get p).out.length < 8 ∨ (s.recv.get p).overflow = false) (discarded : List (Seq × OutItem)) :
    (v.toldOverflow p discarded).mgmt = (s.toldOverflow p discarded).mgmt := by
  unfold State.toldOverflow
  cases discarded with
  | nil => exact mgmt
  | cons x rest =>
    simp only [flag]
    split
    · exact giveEvent_mgmt_congr _ round mgmt
    · exact mgmt

/-- Items handed in order: as many are placed as the out half has room for, and the others are discarded. -/
theorem foldl_handItem (items : List (Seq × OutItem)) (bound : (s.recv.get p).out.length ≤ 8) :
    let free := 8 - (s.recv.get p).out.length
    let t := items.foldl (fun v x => handItem p x.1 x.2 v) s
    t.mgmt = (s.toldOverflow p (items.drop free)).mgmt
    ∧ t.recv = s.recv.set p { s.recv.get p with
        out := (s.recv.get p).out ++ (items.take free).map (fun x => x.2)
        overflow := if items.length ≤ free then (s.recv.get p).overflow && items.isEmpty else true } := by
  intro free t
  by_cases fits : items.length ≤ free
  · rw [show t = _ from foldl_handItem_of_room items (by omega), List.drop_of_length_le fits, List.take_of_length_le fits, if_pos fits]
    exact ⟨rfl, rfl⟩
  · have taken : (items.take free).length = free := by rw [List.length_take]; omega
    have split : t = (items.drop free).foldl (fun v x => handItem p x.1 x.2 v)
        ((items.take free).foldl (fun v x => handItem p x.1 x.2 v) s) := by
      rw [← List.foldl_append, List.take_append_drop]
    let filled : RecvEntry := { s.recv.get p with
      out := (s.recv.get p).out ++ (items.take free).map (fun x => x.2)
      overflow := (s.recv.get p).overflow && (items.take free).isEmpty }
    have full : filled.out.length = 8 := by
      simp only [filled, List.length_append, List.length_map]
      omega
    have placed : (items.take free).foldl (fun v x => handItem p x.1 x.2 v) s = { s with recv := s.recv.set p filled } :=
      foldl_handItem_of_room (items.take free) (by omega)
    have discards : (items.drop free).isEmpty = false := by simpa using fits
    rw [split, placed, if_neg fits, foldl_handItem_of_full (items.drop free) (by simpa using full)]
    refine ⟨toldOverflow_mgmt_congr (s := s) (v := { s with recv := s.recv.set p filled }) rfl rfl ?_ _, by simp [discards, filled]⟩
    have kept : (items.take free).isEmpty = true ↔ free = 0 := by rw [List.isEmpty_iff_length_eq_zero, taken]
    have flag : filled.overflow = false ↔ (s.recv.get p).overflow = false ∨ ¬ free = 0 := by
      rw [← kept, Bool.not_eq_true]
      exact Bool.and_eq_false_iff
    have room : ¬ free = 0 ↔ (s.recv.get p).out.length < 8 := by omega
    rw [show (State.recv { s with recv := s.recv.set p filled }).get p = filled from PerPort.get_set_same _ _ _, full, flag, room]
    simp [or_comm]

end

/-! ### The runs of lost blocks (R149, log 18) -/

/-- The generation of a place that was MISSING. -/
def Place.lost (pl : Place) : Option Gen := if pl.block.isNone then some pl.gen else none

/-- The generation that place i of those played was MISSING of. -/
def lostAt (played : List Place) (i : Nat) : Option Gen := played[i]?.bind Place.lost

/-- The number of places from place i on that were MISSING of one generation. -/
def lossLength (played : List Place) (i : Nat) : Nat :=
  ((List.range (played.length - i)).takeWhile (fun j => lostAt played (i + j) == lostAt played i)).length

/-- A run of lost blocks begins at place i, the place in front of the first having been MISSING of generation `prev`. -/
def lossBegins (prev : Option Gen) (played : List Place) (i : Nat) : Bool :=
  (lostAt played i).isSome && (if i = 0 then prev != lostAt played 0 else lostAt played (i - 1) != lostAt played i)

/-- The losses at the places where a run begins. -/
def losses (prev : Option Gen) (played : List Place) : List (Seq × Nat × Gen) :=
  ((List.range played.length).filter (lossBegins prev played)).filterMap
    (fun i => played[i]?.map (fun x => (x.seq, lossLength played i, x.gen)))

/-- The number of places at the front that were MISSING of the generation. -/
def lostInFront (g : Gen) (played : List Place) : Nat := (played.takeWhile (fun pl => pl.lost == some g)).length

section
variable {pl : Place} {rest : List Place} {prev : Option Gen} {g : Gen}

theorem lostAt_succ (i : Nat) : lostAt (pl :: rest) (i + 1) = lostAt rest i := rfl

theorem lossLength_succ (i : Nat) : lossLength (pl :: rest) (i + 1) = lossLength rest i := by
  have shift (j : Nat) : i + 1 + j = i + j + 1 := by omega
  simp only [lossLength, lostAt_succ, shift, List.length_cons, Nat.add_sub_add_right]

theorem length_takeWhile_lostAt (g : Gen) (played : List Place) :
    ((List.range played.length).takeWhile (fun j => lostAt played j == some g)).length = lostInFront g played := by
  induction played with
  | nil => rfl
  | cons pl rest ih =>
    have first : lostAt (pl :: rest) 0 = pl.lost := rfl
    rw [List.length_cons, List.range_succ_eq_map, List.takeWhile_cons, first, lostInFront, List.takeWhile_cons]
    split
    · rw [List.takeWhile_map, List.length_cons, List.length_map, List.length_cons]
      exact congrArg (· + 1) ih
    · rfl

theorem lossLength_zero (lost : pl.lost = some g) : lossLength (pl :: rest) 0 = lostInFront g rest + 1 := by
  have first : lostAt (pl :: rest) 0 = some g := lost
  simp only [lossLength, Nat.sub_zero, Nat.zero_add, first]
  rw [length_takeWhile_lostAt, lostInFront, List.takeWhile_cons, if_pos (by simp [lost]), List.length_cons]
  rfl

theorem lossBegins_succ (i : Nat) : lossBegins prev (pl :: rest) (i + 1) = lossBegins pl.lost rest i := by
  cases i <;> rfl

theorem losses_cons : losses prev (pl :: rest) =
    (if pl.lost.isSome && prev != pl.lost then [(pl.seq, lossLength (pl :: rest) 0, pl.gen)] else []) ++ losses pl.lost rest := by
  have behind : ((List.range rest.length).map Nat.succ).filter (lossBegins prev (pl :: rest))
      = ((List.range rest.length).filter (lossBegins pl.lost rest)).map Nat.succ := by
    rw [List.filter_map]
    exact congrArg (List.map Nat.succ) (List.filter_congr fun i _ => lossBegins_succ i)
  have first : lossBegins prev (pl :: rest) 0 = (pl.lost.isSome && prev != pl.lost) := rfl
  have told : (((List.range rest.length).filter (lossBegins pl.lost rest)).map Nat.succ).filterMap
      (fun i => (pl :: rest)[i]?.map (fun x => (x.seq, lossLength (pl :: rest) i, x.gen))) = losses pl.lost rest := by
    rw [List.filterMap_map]
    simp only [losses, Function.comp_def, Nat.succ_eq_add_one, List.getElem?_cons_succ, lossLength_succ]
  rw [losses, List.length_cons, List.range_succ_eq_map, List.filter_cons, behind, first]
  split
  · rw [List.filterMap_cons, told]
    rfl
  · exact told

theorem lossRuns_cons_of_held {cur : Option (Seq × Nat × Gen)} (held : pl.lost = none) :
    lossRuns (pl :: rest) cur = cur.toList ++ lossRuns rest none := by
  unfold Place.lost at held
  cases h : pl.block with
  | none => simp [h] at held
  | some b => cases cur <;> simp [lossRuns, h]

theorem lossRuns_cons_of_lost {cur : Option (Seq × Nat × Gen)} (lost : pl.lost = some g) :
    lossRuns (pl :: rest) cur = match cur with
      | some (f, c, h) => if h = g then lossRuns rest (some (f, c + 1, h)) else (f, c, h) :: lossRuns rest (some (pl.seq, 1, g))
      | none => lossRuns rest (some (pl.seq, 1, g)) := by
  unfold Place.lost at lost
  cases h : pl.block with
  | some b => simp [h] at lost
  | none =>
    obtain rfl : pl.gen = g := by simpa [h] using lost
    cases cur <;> simp [lossRuns, h]

/-- The runs of the places played are the maximal ones, with one in progress or with none. -/
theorem lossRuns_eq (played : List Place) :
    lossRuns played none = losses none played
    ∧ ∀ f c g, lossRuns played (some (f, c, g)) = (f, c + lostInFront g played, g) :: losses (some g) played := by
  induction played with
  | nil => exact ⟨rfl, fun _ _ _ => rfl⟩
  | cons pl rest ih =>
    obtain ⟨fresh, inProgress⟩ := ih
    cases lost : pl.lost with
    | none =>
      refine ⟨?_, fun f c g => ?_⟩
      · rw [lossRuns_cons_of_held lost, losses_cons, lost, fresh]
        rfl
      · rw [lossRuns_cons_of_held lost, losses_cons, lost, fresh]
        simp [lostInFront, lost]
    | some h =>
      have gen : pl.gen = h := by
        unfold Place.lost at lost
        split at lost
        · exact Option.some.inj lost
        · cases lost
      refine ⟨?_, fun f c g => ?_⟩
      · rw [lossRuns_cons_of_lost lost, losses_cons, lost, lossLength_zero lost, gen, Nat.add_comm]
        exact inProgress pl.seq 1 h
      · rw [lossRuns_cons_of_lost lost, losses_cons, lost, lossLength_zero lost, gen]
        by_cases same : g = h
        · subst same
          simp [inProgress, lostInFront, lost, Nat.add_assoc, Nat.add_comm 1]
        · simp [inProgress, lostInFront, lost, same, Ne.symm same, Nat.add_comm 1]

theorem losses_of_held {played : List Place} (held : ∀ x ∈ played, x.lost = none) : losses prev played = [] := by
  induction played generalizing prev with
  | nil => rfl
  | cons pl rest ih =>
    obtain ⟨head, tail⟩ := List.forall_mem_cons.mp held
    rw [losses_cons, head, ih tail]
    rfl

/-- Places that were MISSING of one generation go on with the run in front of them, or are one run. -/
theorem losses_of_lost {played : List Place} (lost : ∀ x ∈ played, x.lost = some g) : losses (some g) played = [] := by
  induction played with
  | nil => rfl
  | cons pl rest ih =>
    obtain ⟨head, tail⟩ := List.forall_mem_cons.mp lost
    rw [losses_cons, head, ih tail]
    simp

theorem losses_of_one_run (lost : ∀ x ∈ pl :: rest, x.lost = some g) : losses none (pl :: rest) = [(pl.seq, (pl :: rest).length, pl.gen)] := by
  obtain ⟨head, tail⟩ := List.forall_mem_cons.mp lost
  have all : rest.takeWhile (fun x => x.lost == some g) = rest := List.takeWhile_eq_self_iff.mpr fun x hx => by simp [tail x hx]
  rw [losses_cons, lossLength_zero head, head, losses_of_lost tail, lostInFront, all]
  simp

end

/-! ### Playout of one entry (R149) -/

section
variable {p : Port} {s : State} {st : RecvStream} {an : Anchor}

/-- The stream after the places at its front were played. -/
def RecvStream.played (st : RecvStream) (an : Anchor) (now : Round) : RecvStream :=
  { st with
    anchor := some { an with
      nextPlayout := an.nextPlayout + BitVec.ofNat 16 (st.window.takeWhile (Place.isDue now)).length
      nextPlace := (an.nextPlace + (st.window.takeWhile (Place.isDue now)).length) % st.cls.size }
    window := st.window.dropWhile (Place.isDue now)
    gaps := gapsAfter an.gen (st.window.takeWhile (Place.isDue now)) st.gaps }

theorem playout_of_anchor (stream : (s.recv.get p).stream = some st) (anchor : st.anchor = some an) :
    playout p s = (losses none (st.window.takeWhile (Place.isDue s.clock.round))).foldl
      (fun v r => giveEvent (.blocksLost p r.1 r.2.1 r.2.2) v)
      (((st.window.takeWhile (Place.isDue s.clock.round)).filterMap Place.item).foldl (fun v x => handItem p x.1 x.2 v)
        { s with recv := s.recv.set p { s.recv.get p with stream := some (st.played an s.clock.round) } }) := by
  rw [← foldl_playPlace, ← (lossRuns_eq _).1]
  simp only [playout, stream, anchor, mapStream_of_some stream]
  rfl

end

/-- Settles O43: the items handed in order to an out half, and the losses of the places played, run by run. -/
theorem playoutHandsDueBlocks : Obligations.PlayoutHandsDueBlocks := by
  intro p st an s stream anchor due played handed bound free t told
  have items : handed = played.filterMap Place.item := by
    refine congrArg (fun f => played.filterMap f) (funext fun pl => ?_)
    unfold Place.item
    rcases pl.block with - | ⟨fill, payload⟩
    · rfl
    · cases fill <;> rfl
  have tells : told = s.toldOverflow p (handed.drop free) := by
    have room : 0 < free ↔ (s.recv.get p).out.length < 8 := Nat.sub_pos_iff_lt
    unfold told State.toldOverflow
    cases handed.drop free with
    | nil => rfl
    | cons x rest => simp only [room]
  let shifted : State := { s with recv := s.recv.set p { s.recv.get p with stream := some (st.played an s.clock.round) } }
  let v := handed.foldl (fun v x => handItem p x.1 x.2 v) shifted
  have plays : t = (losses none played).foldl (fun v r => giveEvent (.blocksLost p r.1 r.2.1 r.2.2) v) v := by
    unfold v
    rw [items]
    exact playout_of_anchor stream anchor
  have entry : shifted.recv.get p = { s.recv.get p with stream := some (st.played an s.clock.round) } := PerPort.get_set_same _ _ _
  obtain ⟨handedMgmt, handedRecv⟩ : v.mgmt = (shifted.toldOverflow p (handed.drop free)).mgmt ∧ v.recv = _ := by
    have hands := foldl_handItem (p := p) (s := shifted) handed (by rwa [entry])
    rw [entry] at hands
    exact hands
  have recv : t.recv = v.recv := by rw [plays, foldl_recv _ (by simp)]
  have mgmt : t.mgmt = ((losses none played).foldl (fun v r => giveEvent (.blocksLost p r.1 r.2.1 r.2.2) v) told).mgmt := by
    have tellsShifted : (shifted.toldOverflow p (handed.drop free)).mgmt = told.mgmt := by
      rw [tells]
      exact toldOverflow_mgmt_congr (s := s) (v := shifted) rfl rfl (by rw [entry]) _
    have round : v.clock.round = told.clock.round := by
      rw [tells, toldOverflow_clock]
      exact congrArg Clock.round (foldl_clock _ (fun v x => (handItem_frame p x.1 x.2 v).2.2.1) handed shifted)
    rw [plays]
    exact foldl_giveEvent_mgmt_congr _ _ round (handedMgmt.trans tellsShifted)
  have port : t.recv.get p = { s.recv.get p with
      stream := some (st.played an s.clock.round)
      out := (s.recv.get p).out ++ (handed.take free).map (fun x => x.2)
      overflow := if handed.length ≤ free then (s.recv.get p).overflow && handed.isEmpty else true } := by
    rw [recv, handedRecv, PerPort.get_set_same]
  rw [mgmt, port]
  refine ⟨rfl, rfl, fun fits => if_pos fits, fun tooMany => if_neg (Nat.not_le.mpr tooMany), fun held => ?_,
    fun pl rest run lost => ?_, ?_, fun k other => ?_, ?_⟩
  · have none_lost : ∀ x ∈ played, x.lost = none := fun x mem => by simp [Place.lost, held x mem]
    rw [losses_of_held none_lost]
    rfl
  · have all_lost : ∀ x ∈ pl :: rest, x.lost = some pl.gen := fun x mem => by
      obtain ⟨missing, gen⟩ := lost x (run ▸ mem)
      simp [Place.lost, missing, gen]
    rw [run, losses_of_one_run all_lost]
    rfl
  · intro missing begins length
    have begin_eq : begins = lossBegins none played := by
      funext i
      cases i with
      | succ i => rfl
      | zero =>
        change ((lostAt played 0).isSome && true) = ((lostAt played 0).isSome && none != lostAt played 0)
        cases lostAt played 0 <;> rfl
    rw [losses, List.foldl_filterMap, begin_eq]
    refine congrArg (fun f => (((List.range played.length).filter (lossBegins none played)).foldl f told).mgmt) ?_
    funext v i
    cases played[i]? <;> rfl
  · rw [recv, handedRecv, PerPort.get_set_of_ne _ _ other, PerPort.get_set_of_ne _ _ other]
  · rw [← mgmt]
    exact State.eq_of_recv_mgmt (playout_frame p s)

end Sys2Proof.Machine
end

section
/-! PROOF LAYER. The receive entries at the pass of a slot (R143 to R147), in any order of the blocks: the entry of one port comes out
as the receive engine's own step for that port leaves it, and then the re-sent block is offered to it. -/

namespace Sys2Proof.Machine

open Sys2Proof

/-! ### A latched loss stays latched (R185) -/

/-- A loss is latched (R185). -/
def State.LossLatched (s : State) : Prop := s.mgmt.latched.loss = true

section
variable {s t : State}

theorem State.LossLatched.of_mgmt (h : s.LossLatched) (mgmt : t.mgmt = s.mgmt) : t.LossLatched := by
  rwa [State.LossLatched, mgmt]

theorem giveEvent_lossLatched (e : Event) (h : s.LossLatched) : (giveEvent e s).LossLatched := by
  have latched : s.mgmt.latched.loss = true := h
  simp [State.LossLatched, Causes.union, latched]

theorem blocksLost_lossLatched (p : Port) (first : Seq) (count : Nat) (gen : Gen) (s : State) :
    (giveEvent (.blocksLost p first count gen) s).LossLatched := by
  simp [State.LossLatched, Causes.union, Event.latches]

theorem changeMode_lossLatched (mode : Mode) (cause : ModeCause) (h : s.LossLatched) : (changeMode mode cause s).LossLatched := by
  unfold changeMode
  split
  · exact giveEvent_lossLatched _ h
  · exact giveEvent_lossLatched _ (h.of_mgmt (by simp))

theorem withdrawnEnds_lossLatched (q : Queued) (o : OutcomeRecord) (h : s.LossLatched) : (withdrawnEnds q o s).LossLatched := by
  unfold withdrawnEnds
  split
  · unfold claimNotCommitted
    split
    · exact giveEvent_lossLatched _ h
    all_goals exact h
  · exact h

theorem endFlightOnLeaving_lossLatched (h : s.LossLatched) : (endFlightOnLeaving s).LossLatched := by
  unfold endFlightOnLeaving
  split
  · exact h.of_mgmt (by simp)
  · unfold endFlightLost
    split
    · exact h
    · split
      · exact withdrawnEnds_lossLatched (s := removeInFlight s) _ _ h
      · exact h

theorem enterFaulted_lossLatched (reason : FaultReason) (cause : ModeCause) (h : s.LossLatched) :
    (enterFaulted reason cause s).LossLatched := by
  have left : (endFlightOnLeaving (discardLearning s)).LossLatched := endFlightOnLeaving_lossLatched (s := discardLearning s) h
  unfold enterFaulted
  refine giveEvent_lossLatched _ (State.LossLatched.of_mgmt (changeMode_lossLatched .faulted cause ?_) rfl)
  exact left.of_mgmt rfl

theorem testEpoch_lossLatched (e : Epoch) (h : s.LossLatched) : (testEpoch e s).LossLatched := by
  unfold testEpoch
  split
  · exact (changeMode_lossLatched .resync .epochAhead h).of_mgmt rfl
  · exact h

theorem takeHeader_lossLatched (m : Copy Block) (h : s.LossLatched) : (takeHeader m s).LossLatched := by
  cases m with
  | valid b => exact testEpoch_lossLatched b.header.epoch (s := hear b.header.owner s) h
  | erased | idle => exact h

theorem takeCurrent_lossLatched (p : Port) (b : Block) (an : Anchor) (st : RecvStream) (h : s.LossLatched) :
    (takeCurrent p b an st s).LossLatched := by
  unfold takeCurrent
  dsimp only
  repeat' split
  case isTrue.isFalse.isTrue => exact giveEvent_lossLatched _ h
  all_goals exact h

theorem takeStanding_lossLatched (p : Port) (b : Block) (h : s.LossLatched) : (takeStanding p b s).LossLatched := by
  unfold takeStanding
  split
  · exact h
  · split
    · exact h
    · exact takeCurrent_lossLatched p b _ _ h

theorem takeBlock_lossLatched (p : Port) (b : Block) (h : s.LossLatched) : (takeBlock p b s).LossLatched := by
  unfold takeBlock
  split
  · exact h
  · split
    · exact takeStanding_lossLatched p b (h.of_mgmt rfl)
    · refine takeStanding_lossLatched p b ?_
      split
      · exact h
      · exact giveEvent_lossLatched _ (h.of_mgmt (by simp))

end

/-! ### What the step of one port leaves unchanged -/

section
variable {n : Nat} {m : Copy Block} {p q : Port} {s : State}

/-- What a port's step can do: nothing, take a slot without a block, or take the block of the slot (R143). -/
theorem servePass_cases (n : Nat) (m : Copy Block) (p : Port) (s : State) :
    servePass n m p s = s ∨ servePass n m p s = markMissing p s ∨ ∃ b, m = .valid b ∧ servePass n m p s = takeBlock p b s := by
  unfold servePass
  split
  · exact .inl rfl
  · split
    · split
      · cases m with
        | valid b =>
          dsimp only
          split
          · exact .inr (.inr ⟨b, rfl, rfl⟩)
          · exact .inr (.inl rfl)
        | erased | idle => exact .inr (.inl rfl)
      · exact .inl rfl
    · exact .inl rfl
    · exact .inl rfl

theorem servePass_lossLatched (h : s.LossLatched) : (servePass n m p s).LossLatched := by
  rcases servePass_cases n m p s with same | marks | ⟨b, -, takes⟩
  · rwa [same]
  · rw [marks]
    exact h
  · rw [takes]
    exact takeBlock_lossLatched p b h

theorem mapStream_get_of_ne (f : RecvStream → RecvStream) (other : p ≠ q) : (s.mapStream q f).recv.get p = s.recv.get p :=
  PerPort.get_set_of_ne _ _ other

theorem takeStanding_get_of_ne {b : Block} (other : p ≠ q) : (takeStanding q b s).recv.get p = s.recv.get p := by
  unfold takeStanding takeCurrent
  dsimp only
  repeat' split
  all_goals simp only [giveEvent_recv, mapStream_get_of_ne _ other]

theorem takeBlock_get_of_ne {b : Block} (other : p ≠ q) : (takeBlock q b s).recv.get p = s.recv.get p := by
  unfold takeBlock
  repeat' split
  · rfl
  · rw [takeStanding_get_of_ne other, mapStream_get_of_ne _ other]
  · exact takeStanding_get_of_ne other
  · rw [takeStanding_get_of_ne other, rebase, giveEvent_recv, withdrawAsk_eq]
    exact mapStream_get_of_ne _ other

theorem servePass_get_of_ne (other : p ≠ q) : (servePass n m q s).recv.get p = s.recv.get p := by
  rcases servePass_cases n m q s with same | marks | ⟨b, -, takes⟩
  · rw [same]
  · rw [marks, markMissing, mapStream_get_of_ne _ other]
  · rw [takes, takeBlock_get_of_ne other]

/-- The steps of the four ports: that of port p acts on an entry that the ports before it have left alone, and those after it leave
alone what it wrote. -/
theorem forPorts_servePass (n : Nat) (m : Copy Block) (p : Port) (s : State) :
    ∃ v, v.recv.get p = s.recv.get p ∧ v.clock = s.clock ∧ v.table = s.table
      ∧ (forPorts (servePass n m) s).recv.get p = (servePass n m p v).recv.get p
      ∧ ((servePass n m p v).LossLatched → (forPorts (servePass n m) s).LossLatched) := by
  unfold forPorts
  have later {q : Port} {v : State} : v.LossLatched → (servePass n m q v).LossLatched := servePass_lossLatched
  cases p with
  | p0 => exact ⟨s, rfl, rfl, rfl, by simp [servePass_get_of_ne], fun h => later (later (later h))⟩
  | p1 => exact ⟨servePass n m .p0 s, by simp [servePass_get_of_ne], by simp, by simp, by simp [servePass_get_of_ne],
      fun h => later (later h)⟩
  | p2 => exact ⟨servePass n m .p1 (servePass n m .p0 s), by simp [servePass_get_of_ne], by simp, by simp,
      by simp [servePass_get_of_ne], later⟩
  | p3 => exact ⟨servePass n m .p2 (servePass n m .p1 (servePass n m .p0 s)), by simp [servePass_get_of_ne], by simp, by simp,
      rfl, id⟩

end

/-! ### What the other blocks leave unchanged at a pass -/

/-- What a port's step reads of the state before it: its entry, the round, and the use of slot n. -/
def State.SameServed (s t : State) (n : Nat) (p : Port) : Prop :=
  t.recv.get p = s.recv.get p ∧ t.clock.round = s.clock.round ∧ useAt t.table.live n = useAt s.table.live n

section
variable {n : Nat} {m : MergedBlock} {p : Port} {s t v : State}

theorem State.SameServed.rfl : s.SameServed s n p := ⟨by rfl, by rfl, by rfl⟩

theorem State.SameServed.trans (h : s.SameServed t n p) (h' : t.SameServed v n p) : s.SameServed v n p :=
  ⟨h'.1.trans h.1, h'.2.1.trans h.2.1, h'.2.2.trans h.2.2⟩

theorem mismatchEntry_use (h : BlockHeader) (e : SlotEntry) : (mismatchEntry s h e).use = e.use := by
  unfold mismatchEntry
  split <;> rfl

/-- Maintenance changes what is known of a slot, not its use (R59). -/
theorem maintainEntry_use (m : Copy Block) (contributing : Bool) (e : SlotEntry) :
    (maintainEntry s n m contributing e).use = e.use := by
  unfold maintainEntry
  split
  · rfl
  · dsimp only
    split
    · exact mismatchEntry_use _ _
    · rfl
  · rfl
  · split
    · rfl
    · exact mismatchEntry_use _ _
  · unfold silentEntry
    split <;> rfl

theorem maintain_useAt (k : Nat) : useAt (maintain n m s).table.live k = useAt s.table.live k := by
  rw [maintain_live]
  split
  · unfold useAt
    rw [List.getElem?_modify]
    cases s.table.live[k]? with
    | none => rfl
    | some e =>
      change (if n = k then _ else e).use = e.use
      split
      · exact maintainEntry_use _ _ e
      · rfl
  · rfl

/-- No block but the receive engine touches the receive entries, the round or the use of a slot, and none takes back a latched loss. -/
theorem passStep_sameServed {step : PassStep} (other : step ≠ .receiveEngine) :
    s.SameServed (passStep n m s step) n p ∧ (s.LossLatched → (passStep n m s step).LossLatched) := by
  cases step with
  | receiveEngine => exact absurd rfl other
  | slotTable =>
    have use : useAt (tableAtPass n m s).table.live n = useAt s.table.live n := by simp [tableAtPass, maintain_useAt]
    refine ⟨⟨congrArg (PerPort.get · p) (tableAtPass_frame n m s).2.2.2.2.2.2.1, by simp, use⟩, fun h => ?_⟩
    have maintained : (maintain n m s).LossLatched := h.of_mgmt (by simp)
    have learned : (tableAtPass n m s).mgmt = (takeHeader m.copy (maintain n m s)).mgmt := by simp [tableAtPass]
    exact (takeHeader_lossLatched m.copy maintained).of_mgmt learned
  | sendEngine => exact ⟨⟨rfl, rfl, rfl⟩, id⟩
  | controller =>
    refine ⟨⟨by simp [passStep], by simp, by simp [passStep]⟩, fun h => ?_⟩
    unfold passStep controllerAtPass
    cases m.copy with
    | valid b =>
      dsimp only
      split
      · exact enterFaulted_lossLatched _ _ h
      · exact h
    | erased | idle => exact h

theorem foldl_passStep_sameServed {steps : List PassStep} (others : .receiveEngine ∉ steps) :
    s.SameServed (steps.foldl (passStep n m) s) n p ∧ (s.LossLatched → (steps.foldl (passStep n m) s).LossLatched) := by
  induction steps generalizing s with
  | nil => exact ⟨.rfl, id⟩
  | cons step steps ih =>
    obtain ⟨head, tail⟩ := not_or.mp (mt List.mem_cons.mpr others)
    obtain ⟨same, latched⟩ := passStep_sameServed (n := n) (m := m) (p := p) (s := s) (Ne.symm head)
    obtain ⟨same', latched'⟩ := ih (s := passStep n m s step) tail
    exact ⟨same.trans same', latched' ∘ latched⟩

end

/-! ### The re-sent block of a merged result (R147) -/

/-- A stream after a re-sent block was offered to it. -/
def RecvStream.resent (b : Block) (st : RecvStream) : RecvStream :=
  match st.anchor with
  | some an =>
    if st.active && st.tag == b.header.tag && b.header.resend && b.header.gen == an.gen
        && serialAhead b.header.seq (st.nextExpected an) then st.fill an b
    else st
  | none => st

theorem takeResent_eq (b : Block) (p : Port) (s : State) : takeResent b p s = s.mapStream p (RecvStream.resent b) := rfl

/-- A stream after a merged result was offered to it: only a block can be re-sent. -/
def RecvStream.offered (m : Copy Block) (st : RecvStream) : RecvStream :=
  match m with
  | .valid b => st.resent b
  | .erased => st
  | .idle => st

/-- A block that is not re-sent, or is of another tag, is not offered to the stream. -/
theorem RecvStream.resent_of_other {b : Block} {st : RecvStream} (h : ¬ (b.header.resend = true ∧ b.header.tag = st.tag)) :
    st.resent b = st := by
  unfold RecvStream.resent
  cases st.anchor with
  | none => rfl
  | some an =>
    refine if_neg fun cond => h ?_
    simp only [Bool.and_eq_true, beq_iff_eq] at cond
    obtain ⟨⟨⟨⟨-, tag⟩, resend⟩, -⟩, -⟩ := cond
    exact ⟨resend, tag.symm⟩

section
variable {n : Nat} {m : Copy Block} {p : Port} {s : State}

theorem takeResents_get (m : Copy Block) (p : Port) (s : State) : (takeResents m s).recv.get p =
    { s.recv.get p with stream := (s.recv.get p).stream.map (RecvStream.offered m) } := by
  have kept {e : RecvEntry} : e = { e with stream := e.stream.map id } := by rw [Option.map_id_fun, id]
  cases m with
  | valid b => cases p <;> rfl
  | erased | idle => exact kept

theorem takeResents_get_of_none (m : Copy Block) (none : (s.recv.get p).stream = none) :
    (takeResents m s).recv.get p = s.recv.get p := by
  have noStream : (s.recv.get p).stream.map (RecvStream.offered m) = (s.recv.get p).stream := by rw [none, Option.map_none]
  rw [takeResents_get, noStream]

theorem takeResents_of_first_sent {b : Block} (first : b.header.resend = false) (s : State) : takeResents (.valid b) s = s := by
  have same (p : Port) (s : State) : takeResent b p s = s := by
    have id_eq : RecvStream.resent b = id := funext fun st => RecvStream.resent_of_other (by simp [first])
    rw [takeResent_eq, id_eq, State.mapStream, State.mapRecv, Option.map_id_fun, id]
    exact congrArg (fun r => { s with recv := r }) (PerPort.set_get _ _)
  simp only [takeResents, forPorts, same]

end

/-! ### The entry of one port at the pass of a slot -/

/-- What a pass of slot n leaves at port p and of the latches: what the port's own step does, from a state that agrees with the one
before on all that this step reads. -/
structure State.ServedTo (s v t : State) (n : Nat) (m : Copy Block) (p : Port) : Prop where
  same  : s.SameServed v n p
  entry : t.recv.get p = (takeResents m (servePass n m p v)).recv.get p
  loss  : (servePass n m p v).LossLatched → t.LossLatched

theorem foldl_passStep_served {n : Nat} {m : MergedBlock} {order : List PassStep} (admissible : passAdmissible order = true) (p : Port)
    (s : State) : ∃ v, s.ServedTo v (order.foldl (passStep n m) s) n m.copy p := by
  have once := count_of_passAdmissible admissible .receiveEngine
  obtain ⟨front, back, rfl⟩ := List.append_of_mem (List.count_pos_iff.mp (by omega : 0 < order.count .receiveEngine))
  rw [List.count_append, List.count_cons_self] at once
  have inFront : PassStep.receiveEngine ∉ front := List.count_eq_zero.mp (by omega)
  have behind : PassStep.receiveEngine ∉ back := List.count_eq_zero.mp (by omega)
  obtain ⟨before, -⟩ := foldl_passStep_sameServed (n := n) (m := m) (p := p) (s := s) inFront
  obtain ⟨v, entry, clock, table, serves, latched⟩ := forPorts_servePass n m.copy p (front.foldl (passStep n m) s)
  obtain ⟨after, latchedAfter⟩ := foldl_passStep_sameServed (n := n) (m := m) (p := p)
    (s := passStep n m (front.foldl (passStep n m) s) .receiveEngine) behind
  rw [List.foldl_append, List.foldl_cons]
  refine ⟨v, before.trans ⟨entry, congrArg _ clock, congrArg (fun x => useAt x.live n) table⟩, ?_, fun h => latchedAfter ?_⟩
  · rw [after.1, passStep, recvAtPass, takeResents_get, takeResents_get, serves]
  · exact (latched h).of_mgmt (by simp [passStep, recvAtPass])

/-- The pass of a slot, whatever the order of the blocks, as the step of the receive engine for each port. -/
theorem exec_slotPass_served {n : Fin 24} {a b : BlockReading} {order : List PassStep} {s : State} (free : s.holding = false)
    (admissible : passAdmissible order = true) (due : s.due (n.val + 4) = true) :
    ∃ t, exec (.slotPass n a b order) s = .next t
      ∧ ∀ p, ∃ v, s.ServedTo v t n.val ((atEvent (n.val + 4) s).mergedBlock true a b).copy p := by
  let u := atEvent (n.val + 4) s
  let read := tellLevels (a.levelShown 800) (b.levelShown 800) (countHeader .b b (countHeader .a a u))
  refine ⟨_, exec_slotPass_of_due free admissible due, fun p => ?_⟩
  have start : s.SameServed read n.val p := ⟨by simp [read, u], by simp [read, u], by simp [read, u]⟩
  obtain ⟨v, same, entry, loss⟩ := foldl_passStep_served (n := n.val) (m := u.mergedBlock true a b) admissible p read
  exact ⟨v, start.trans same, entry, loss⟩

section
variable {n : Nat} {m : Copy Block} {p : Port} {s v t : State} {st st' : RecvStream}

theorem State.ServedTo.stream (h : s.ServedTo v t n m p) (stream : (s.recv.get p).stream = some st) :
    (v.recv.get p).stream = some st := by
  rw [h.same.1, stream]

theorem State.ServedTo.use (h : s.ServedTo v t n m p) : useAt v.table.live n = useAt s.table.live n := h.same.2.2

/-- The stream that the port's step leaves is offered the re-sent block. -/
theorem State.ServedTo.becomes (h : s.ServedTo v t n m p)
    (serves : (servePass n m p v).recv.get p = { v.recv.get p with stream := some st' }) :
    t.recv.get p = { s.recv.get p with stream := some (st'.offered m) } := by
  rw [h.entry, takeResents_get, serves, h.same.1]
  rfl

theorem State.ServedTo.stands (h : s.ServedTo v t n m p) (none : (s.recv.get p).stream = none) : t.recv.get p = s.recv.get p := by
  have idle : servePass n m p v = v := by
    unfold servePass
    rw [h.same.1, none]
  rw [h.entry, idle, takeResents_get_of_none m (by rw [h.same.1, none]), h.same.1]

/-- A stream that the port's step does not change. -/
theorem entry_of_same_stream (stream : (v.recv.get p).stream = some st) : v.recv.get p = { v.recv.get p with stream := some st } := by
  rw [← stream]

end

/-! ### The step of one port (R143, R146) -/

/-- A stream after a slot without a block (R146). -/
def RecvStream.missed (now : Round) (st : RecvStream) : RecvStream :=
  match st.anchor with
  | some an => if st.window.length < st.cls.size then st.addMissing now an else st
  | none => st

theorem markMissing_eq (p : Port) (s : State) : markMissing p s = s.mapStream p (RecvStream.missed s.clock.round) := rfl

section
variable {n : Nat} {m : Copy Block} {p : Port} {v : State} {st : RecvStream} {an : Anchor} {now : Round}

theorem RecvStream.missed_of_unanchored (h : st.anchor = none) : st.missed now = st := by
  simp [RecvStream.missed, h]

theorem RecvStream.missed_of_room (h : st.anchor = some an) (room : st.window.length < st.cls.size) :
    st.missed now = st.addMissing now an := by
  simp [RecvStream.missed, h, room]

theorem RecvStream.missed_of_full (h : st.anchor = some an) (full : st.cls.size ≤ st.window.length) : st.missed now = st := by
  simp [RecvStream.missed, h, Nat.not_lt.mpr full]

theorem RecvStream.missed_tag : (st.missed now).tag = st.tag := by
  unfold RecvStream.missed
  split
  · split <;> rfl
  · rfl

theorem servePass_of_idle (stream : (v.recv.get p).stream = some st)
    (idle : ¬ (st.active = true ∧ (useAt v.table.live n).hasTag st.tag = true)) : servePass n m p v = v := by
  simp only [servePass, stream]
  split
  · next owner tag use =>
    refine if_neg fun h => idle ?_
    rw [use]
    exact Bool.and_eq_true_iff.mp h
  · rfl
  · rfl

theorem servePass_takes {b : Block} (stream : (v.recv.get p).stream = some st) (active : st.active = true) (tag : st.tag = b.header.tag)
    (use : useAt v.table.live n = .owned b.header.owner b.header.tag) (scheduled : b.header.scheduleBearing n = true) :
    servePass n (.valid b) p v = takeBlock p b v := by
  simp [servePass, stream, use, active, tag, scheduled]

theorem servePass_marks {o : StationNo} (stream : (v.recv.get p).stream = some st) (active : st.active = true)
    (use : useAt v.table.live n = .owned o st.tag)
    (other : ∀ b, m = .valid b → ¬ (b.header.scheduleBearing n = true ∧ b.header.owner = o ∧ b.header.tag = st.tag)) :
    servePass n m p v = markMissing p v := by
  simp only [servePass, stream, use, active, Bool.true_and, beq_self_eq_true, if_true]
  cases m with
  | valid b =>
    refine if_neg fun h => other b rfl ?_
    simp only [Bool.and_eq_true, beq_iff_eq] at h
    exact ⟨h.1.1, h.2, h.1.2⟩
  | erased | idle => rfl

end

end Sys2Proof.Machine
end

section
/-! PROOF LAYER. A block of the stream taken by a receive entry (R142, R144, R145, R156), case by case. -/

namespace Sys2Proof.Machine

open Sys2Proof

/-! ### Where a sequence stands from the next expected one -/

theorem WinClass.size_le (c : WinClass) : c.size ≤ 2048 := by
  cases c <;> decide

theorem WinClass.size_pos (c : WinClass) : 0 < c.size := by
  cases c <;> decide

section
variable {x y : Seq}

theorem seqAhead_iff : serialAhead x y = true ↔ 1 ≤ (y - x).toNat ∧ (y - x).toNat < 32768 := by
  simp only [serialAhead, Bool.and_eq_true, decide_eq_true_iff]
  rfl

theorem seqAhead_swap_iff : serialAhead x y = true ↔ 32768 < (x - y).toNat := by
  rw [seqAhead_iff]
  bv_omega

theorem seqAtOrAhead_iff : (x == y || serialAhead y x) = true ↔ (x - y).toNat < 32768 := by
  rw [Bool.or_eq_true, beq_iff_eq, seqAhead_iff]
  bv_omega

end

section
variable {p : Port} {b : Block} {v : State} {st : RecvStream} {an : Anchor} {now : Round}

/-- The place of a sequence is that of the next expected one, and as many more as the sequence is ahead of it. -/
theorem place_eq (an : Anchor) (st : RecvStream) (q : Seq) :
    an.place q = (st.window.length + (q - st.nextExpected an).toNat) % 65536 := by
  unfold Anchor.place RecvStream.nextExpected
  bv_omega

/-! ### A block of the current generation (R144, R145) -/

/-- A block at the next expected sequence or ahead of it, inside the window. -/
theorem takeCurrent_of_inside (near : (b.header.seq - st.nextExpected an).toNat < 32768)
    (inside : st.window.length + (b.header.seq - st.nextExpected an).toNat < st.cls.size) :
    takeCurrent p b an st v = v.mapStream p (fun x => x.takeAhead v.clock.round an b) := by
  have place : an.place b.header.seq < st.cls.size := by
    rw [place_eq an st]
    exact (Nat.mod_le _ _).trans_lt inside
  unfold takeCurrent
  rw [if_pos (seqAtOrAhead_iff.mpr near), if_pos place]

/-- A block at the next expected sequence or ahead of it, beyond the window, is at no place of the window. -/
theorem place_of_beyond (near : (b.header.seq - st.nextExpected an).toNat < 32768) (fits : st.window.length ≤ st.cls.size)
    (beyond : st.cls.size ≤ st.window.length + (b.header.seq - st.nextExpected an).toNat) : ¬ an.place b.header.seq < st.cls.size := by
  have small := st.cls.size_le
  rw [place_eq an st]
  omega

theorem takeCurrent_of_beyond (near : (b.header.seq - st.nextExpected an).toNat < 32768) (fits : st.window.length ≤ st.cls.size)
    (beyond : st.cls.size ≤ st.window.length + (b.header.seq - st.nextExpected an).toNat) (nonempty : st.window ≠ []) :
    takeCurrent p b an st v = v := by
  unfold takeCurrent
  rw [if_pos (seqAtOrAhead_iff.mpr near), if_neg (place_of_beyond near fits beyond), if_neg (by simpa using nonempty)]

/-- A block beyond an empty window: the entry re-anchors at it. -/
theorem takeCurrent_of_beyond_empty (near : (b.header.seq - st.nextExpected an).toNat < 32768) (empty : st.window = [])
    (beyond : st.cls.size ≤ (b.header.seq - st.nextExpected an).toNat) :
    takeCurrent p b an st v = giveEvent (.blocksLost p (st.nextExpected an) (b.header.seq - st.nextExpected an).toNat an.gen)
      (v.mapStream p (fun x => { x with anchor := some (st.reAnchor an b.header.seq) }.addHeld v.clock.round
        (st.reAnchor an b.header.seq) b)) := by
  have outside : ¬ an.place b.header.seq < st.cls.size := place_of_beyond near (by simp [empty]) (by simpa [empty] using beyond)
  unfold takeCurrent
  rw [if_pos (seqAtOrAhead_iff.mpr near), if_neg outside, if_pos (by simp [empty])]

theorem takeCurrent_of_behind (behind : serialAhead b.header.seq (st.nextExpected an) = true) :
    takeCurrent p b an st v = v.mapStream p (fun x => x.fill an b) := by
  have far := seqAhead_swap_iff.mp behind
  have notNear : ¬ (b.header.seq == st.nextExpected an || serialAhead (st.nextExpected an) b.header.seq) = true :=
    mt seqAtOrAhead_iff.mp (by omega)
  unfold takeCurrent
  rw [if_neg notNear, if_pos behind]

/-- A sequence 32 768 from the next expected one is neither ahead nor behind. -/
theorem takeCurrent_of_opposite (opposite : (b.header.seq - st.nextExpected an).toNat = 32768) : takeCurrent p b an st v = v := by
  have notNear : ¬ (b.header.seq == st.nextExpected an || serialAhead (st.nextExpected an) b.header.seq) = true :=
    mt seqAtOrAhead_iff.mp (by omega)
  have notBehind : ¬ serialAhead b.header.seq (st.nextExpected an) = true := mt seqAhead_swap_iff.mp (by omega)
  unfold takeCurrent
  rw [if_neg notNear, if_neg notBehind]

/-! ### What the stream becomes -/

/-- A place that a stream sets up now, due D rounds on (R144). -/
def RecvStream.placeAt (st : RecvStream) (now : Round) (content : Option (Bool × List Byte)) (q : Seq) (gen : Gen) : Place :=
  { block := content, seq := q, gen := gen, due := now + BitVec.ofNat 32 st.delay }

/-- The sequences from the next expected one on, k of them. -/
def RecvStream.expected (st : RecvStream) (an : Anchor) (k : Nat) : List Seq :=
  (List.range k).map (fun i => st.nextExpected an + BitVec.ofNat 16 i)

theorem addMissing_eq (now : Round) (an : Anchor) (st : RecvStream) : st.addMissing now an = { st with
    window := st.window ++ [st.placeAt now none (st.nextExpected an) an.gen], gaps := joinGap (st.nextExpected an) st.gaps } := rfl

theorem nextExpected_addMissing (now : Round) (an : Anchor) (st : RecvStream) :
    (st.addMissing now an).nextExpected an = st.nextExpected an + 1 := by
  simp only [RecvStream.nextExpected, RecvStream.addMissing, List.length_append, List.length_singleton]
  bv_omega

theorem expected_succ (now : Round) (an : Anchor) (st : RecvStream) (k : Nat) :
    st.expected an (k + 1) = st.nextExpected an :: (st.addMissing now an).expected an k := by
  have shift (i : Nat) : st.nextExpected an + BitVec.ofNat 16 (i + 1) = st.nextExpected an + 1 + BitVec.ofNat 16 i := by bv_omega
  simp only [RecvStream.expected, List.range_succ_eq_map, List.map_cons, List.map_map, Function.comp_def, Nat.succ_eq_add_one, shift,
    nextExpected_addMissing]
  rw [BitVec.add_zero]

theorem addManyMissing_eq (now : Round) (an : Anchor) (k : Nat) (st : RecvStream) : st.addManyMissing now an k = { st with
    window := st.window ++ (st.expected an k).map (fun q => st.placeAt now none q an.gen)
    gaps := (st.expected an k).foldl (fun g q => joinGap q g) st.gaps } := by
  induction k generalizing st with
  | zero => simp [RecvStream.addManyMissing, RecvStream.expected]
  | succ k ih =>
    rw [RecvStream.addManyMissing, ih, expected_succ now, addMissing_eq]
    simp [RecvStream.placeAt]

theorem nextExpected_addManyMissing (now : Round) (an : Anchor) (k : Nat) (st : RecvStream) :
    (st.addManyMissing now an k).nextExpected an = st.nextExpected an + BitVec.ofNat 16 k := by
  rw [addManyMissing_eq]
  simp only [RecvStream.nextExpected, RecvStream.expected, List.length_append, List.length_map, List.length_range]
  bv_omega

/-- A block inside the window: the sequences before it become MISSING, and it is HELD (R144). -/
theorem takeAhead_eq (now : Round) (an : Anchor) (b : Block) (st : RecvStream) : st.takeAhead now an b = { st with
    window := st.window ++ (st.expected an (b.header.seq - st.nextExpected an).toNat).map (fun q => st.placeAt now none q an.gen)
      ++ [st.placeAt now (some (b.header.fill, b.payload)) b.header.seq an.gen]
    gaps := (st.expected an (b.header.seq - st.nextExpected an).toNat).foldl (fun g q => joinGap q g) st.gaps } := by
  have reached : (st.addManyMissing now an (b.header.seq - st.nextExpected an).toNat).nextExpected an = b.header.seq := by
    rw [nextExpected_addManyMissing, BitVec.ofNat_toNat, BitVec.setWidth_eq]
    bv_omega
  rw [RecvStream.takeAhead, RecvStream.addHeld, reached, addManyMissing_eq]
  rfl

theorem fill_of_missing {pl : Place} (found : st.window[an.place b.header.seq]? = some pl) (missing : pl.block = none)
    (gen : pl.gen = an.gen) : st.fill an b = { st with
      window := st.window.set (an.place b.header.seq) { pl with block := some (b.header.fill, b.payload) }
      gaps := leaveGap b.header.seq st.gaps } := by
  simp [RecvStream.fill, found, missing, gen]

theorem fill_of_other (other : ∀ pl, st.window[an.place b.header.seq]? = some pl → pl.block ≠ none ∨ pl.gen ≠ an.gen) :
    st.fill an b = st := by
  unfold RecvStream.fill
  split
  · next pl found =>
    refine if_neg fun h => ?_
    obtain ⟨missing, gen⟩ := Bool.and_eq_true_iff.mp h
    rcases other pl found with held | foreign
    · exact held (Option.isNone_iff_eq_none.mp missing)
    · exact foreign (beq_iff_eq.mp gen)
  · rfl

/-! ### The block of the stream (R142, R156) -/

theorem takeStanding_of_anchor (stream : (v.recv.get p).stream = some st) (anchor : st.anchor = some an) :
    takeStanding p b v = takeCurrent p b an st v := by
  simp only [takeStanding, stream, anchor]

theorem takeBlock_of_current (stream : (v.recv.get p).stream = some st) (anchor : st.anchor = some an)
    (gen : b.header.gen = an.gen) : takeBlock p b v = takeCurrent p b an st v := by
  rw [← takeStanding_of_anchor stream anchor]
  simp only [takeBlock, stream, anchor, if_pos gen]

/-- The stream anchored at its first block (R142). -/
def RecvStream.anchoredAt (st : RecvStream) (b : Block) : RecvStream := { st with anchor := some (firstAnchor b st) }

theorem takeBlock_of_unanchored (stream : (v.recv.get p).stream = some st) (anchor : st.anchor = none) :
    takeBlock p b v = takeCurrent p b (firstAnchor b st) (st.anchoredAt b)
      { v with recv := v.recv.set p { v.recv.get p with stream := some (st.anchoredAt b) } } := by
  simp only [takeBlock, stream, anchor, mapStream_of_some stream]
  exact takeStanding_of_anchor (by rw [PerPort.get_set_same]; rfl) rfl

/-- The anchor to which a block of another generation rebases a stream (R156). -/
def RecvStream.rebaseAnchor (st : RecvStream) (an : Anchor) (b : Block) : Anchor :=
  { an with gen := b.header.gen, nextPlayout := b.header.seq - BitVec.ofNat 16 st.window.length }

/-- The stream rebased to the generation of a block (R156). -/
def RecvStream.rebasedTo (st : RecvStream) (an : Anchor) (b : Block) : RecvStream :=
  { st with anchor := some (st.rebaseAnchor an b), gaps := [] }

theorem rebase_eq (stream : (v.recv.get p).stream = some st) : rebase p b an st v =
    giveEvent (.rebased p an.gen b.header.gen b.header.seq) { v with
      recv := v.recv.set p { v.recv.get p with stream := some (st.rebasedTo an b) }
      notices := (withdrawAsk p v).notices } := by
  rw [rebase, mapStream_of_some stream, withdrawAsk_eq, withdrawAsk_eq]
  rfl

theorem takeBlock_of_foreign (stream : (v.recv.get p).stream = some st) (anchor : st.anchor = some an)
    (gen : b.header.gen ≠ an.gen) :
    takeBlock p b v = takeCurrent p b (st.rebaseAnchor an b) (st.rebasedTo an b) (rebase p b an st v) := by
  simp only [takeBlock, stream, anchor, if_neg gen]
  refine takeStanding_of_anchor ?_ rfl
  rw [rebase_eq stream, giveEvent_recv, PerPort.get_set_same]

end

end Sys2Proof.Machine
end

section
/-! PROOF LAYER. The block of the stream, and a slot without a block, at the pass of a slot (R143, R144, R146). -/

namespace Sys2Proof.Machine

open Sys2Proof

section
variable {n : Nat} {m : Copy Block} {p : Port} {s v t : State} {st st' : RecvStream} {b : Block}

theorem RecvStream.offered_of_not_valid (h : m.isValid = false) : st.offered m = st := by
  cases m with
  | valid b => cases h
  | erased | idle => rfl

theorem RecvStream.offered_of_first_sent (first : b.header.resend = false) : st.offered (.valid b) = st :=
  RecvStream.resent_of_other (by simp [first])

/-- A slot without a block, at an ACTIVE entry of the slot's tag (R146). -/
theorem State.ServedTo.misses {o : StationNo} (h : s.ServedTo v t n m p) (stream : (s.recv.get p).stream = some st)
    (active : st.active = true) (use : useAt s.table.live n = .owned o st.tag)
    (other : ∀ b, m = .valid b → ¬ (b.header.scheduleBearing n = true ∧ b.header.owner = o ∧ b.header.tag = st.tag)) :
    t.recv.get p = { s.recv.get p with stream := some ((st.missed s.clock.round).offered m) } := by
  have marks := servePass_marks (h.stream stream) active (h.use.trans use) other
  refine h.becomes ?_
  rw [marks, markMissing_eq, mapStream_of_some (h.stream stream), h.same.2.1]
  exact PerPort.get_set_same _ _ _

/-- The block of the stream at an ACTIVE entry of the slot's tag (R143). -/
theorem State.ServedTo.takes (h : s.ServedTo v t n (.valid b) p) (stream : (s.recv.get p).stream = some st) (active : st.active = true)
    (tag : st.tag = b.header.tag) (use : useAt s.table.live n = .owned b.header.owner b.header.tag) (first : b.header.resend = false)
    (index : b.header.index.toNat = n) (result : (takeBlock p b v).recv.get p = { v.recv.get p with stream := some st' }) :
    t.recv.get p = { s.recv.get p with stream := some st' } := by
  have takes := servePass_takes (h.stream stream) active tag (h.use.trans use) (BlockHeader.scheduleBearing_iff.mpr ⟨first, index⟩)
  rw [h.becomes (takes ▸ result), RecvStream.offered_of_first_sent first]

end

/-- Settles O39: the receive engine's step for the entry, which takes the block in its turn or misses the slot. -/
theorem slotPassReceivesBlock : Obligations.SlotPassReceivesBlock := by
  intro n a b order p s free admissible due u m o tag use st stream active sameTag becomes ofStream noBlock
  subst sameTag
  obtain ⟨t, run, serves⟩ := exec_slotPass_served (a := a) (b := b) free admissible due
  obtain ⟨v, served⟩ := serves p
  have misses (none : noBlock) : becomes (st.missed s.clock.round) := by
    refine ⟨t, run, ?_⟩
    rcases none with invalid | ⟨x, hx, foreign, notResent⟩
    · rw [served.misses stream active use, RecvStream.offered_of_not_valid invalid]
      intro x hx
      rw [show m = .valid x from hx] at invalid
      cases invalid
    · have valid : ((atEvent (n.val + 4) s).mergedBlock true a b).copy = .valid x := hx
      have offered : (st.missed s.clock.round).offered (.valid x) = st.missed s.clock.round :=
        RecvStream.resent_of_other (by rwa [RecvStream.missed_tag])
      rw [served.misses stream active use, valid, offered]
      rintro y hy ⟨scheduled, owner, tag⟩
      obtain rfl : x = y := Copy.valid.inj (valid.symm.trans hy)
      obtain ⟨first, index⟩ := BlockHeader.scheduleBearing_iff.mp scheduled
      exact foreign ⟨first, index, owner, tag⟩
  refine ⟨fun anchor none => RecvStream.missed_of_unanchored anchor ▸ misses none, fun an anchor => ?_⟩
  intro next dueRound
  refine ⟨fun x hx inStream gen seq => ?_, fun none room => ?_, fun none full => RecvStream.missed_of_full anchor full ▸ misses none⟩
  · obtain ⟨first, index, owner, tag⟩ := inStream
    have valid : ((atEvent (n.val + 4) s).mergedBlock true a b).copy = .valid x := hx
    rw [valid] at served
    have takes {st' : RecvStream} (result : (takeCurrent p x an st v).recv.get p = { v.recv.get p with stream := some st' }) : becomes st' :=
      ⟨t, run, served.takes stream active tag.symm (by rw [use, owner, tag]) first index
        (by rw [takeBlock_of_current (served.stream stream) anchor gen, result])⟩
    have expected : (x.header.seq - st.nextExpected an).toNat = 0 := by simp [seq, next, RecvStream.nextExpected]
    refine ⟨fun room => takes ?_, fun full => takes ?_⟩
    · rw [takeCurrent_of_inside (by omega) (by omega), mapStream_of_some (served.stream stream), takeAhead_eq, expected, served.same.2.1, seq]
      simp [RecvStream.expected, RecvStream.placeAt, dueRound]
    · have nonempty : st.window ≠ [] := List.ne_nil_of_length_pos (full ▸ st.cls.size_pos)
      rw [takeCurrent_of_beyond (by omega) (by omega) (by omega) nonempty]
      exact entry_of_same_stream (served.stream stream)
  · have marked := misses none
    rwa [RecvStream.missed_of_room anchor room] at marked

end Sys2Proof.Machine
end

section
/-! PROOF LAYER. A block of the stream that is not the next expected one, at the pass of a slot (R142, R144, R145, R156). -/

namespace Sys2Proof.Machine

open Sys2Proof

section
variable {p : Port} {b : Block} {v : State} {st : RecvStream} {an : Anchor}

theorem mapStream_get (f : RecvStream → RecvStream) (stream : (v.recv.get p).stream = some st) :
    (v.mapStream p f).recv.get p = { v.recv.get p with stream := some (f st) } := by
  rw [mapStream_of_some stream]
  exact PerPort.get_set_same _ _ _

/-- The stream anchored at its first block, which is HELD (R142). -/
theorem takeBlock_get_of_unanchored (stream : (v.recv.get p).stream = some st) (anchor : st.anchor = none) (empty : st.window = []) :
    (takeBlock p b v).recv.get p = { v.recv.get p with stream := some { st with
      anchor := some (firstAnchor b st)
      window := [st.placeAt v.clock.round (some (b.header.fill, b.payload)) b.header.seq b.header.gen] } } := by
  have expected : (b.header.seq - (st.anchoredAt b).nextExpected (firstAnchor b st)).toNat = 0 := by
    simp [RecvStream.nextExpected, RecvStream.anchoredAt, firstAnchor, empty]
  have room : (st.anchoredAt b).window.length + 0 < (st.anchoredAt b).cls.size := by
    rw [RecvStream.anchoredAt, empty]
    exact st.cls.size_pos
  rw [takeBlock_of_unanchored stream anchor, takeCurrent_of_inside (by omega) (by omega),
    mapStream_get (st := st.anchoredAt b) _ (by rw [PerPort.get_set_same]), PerPort.get_set_same, takeAhead_eq, expected]
  simp [RecvStream.expected, RecvStream.anchoredAt, empty, RecvStream.placeAt, firstAnchor]

theorem takeBlock_of_opposite (stream : (v.recv.get p).stream = some st) (anchor : st.anchor = some an) (gen : b.header.gen = an.gen)
    (opposite : (b.header.seq - st.nextExpected an).toNat = 32768) : takeBlock p b v = v := by
  rw [takeBlock_of_current stream anchor gen, takeCurrent_of_opposite opposite]

/-- A block ahead, beyond an empty window: the entry re-anchors at it and tells what was left out (R144). -/
theorem takeBlock_of_beyond_empty (stream : (v.recv.get p).stream = some st) (anchor : st.anchor = some an)
    (gen : b.header.gen = an.gen) (ahead : serialAhead (st.nextExpected an) b.header.seq = true) (empty : st.window = [])
    (beyond : st.cls.size ≤ (b.header.seq - st.nextExpected an).toNat) :
    takeBlock p b v = giveEvent (.blocksLost p (st.nextExpected an) (b.header.seq - st.nextExpected an).toNat an.gen) { v with
      recv := v.recv.set p { v.recv.get p with stream := some { st with
        anchor := some { an with
          nextPlayout := b.header.seq, nextPlace := (an.nextPlace + (b.header.seq - st.nextExpected an).toNat) % st.cls.size }
        window := [st.placeAt v.clock.round (some (b.header.fill, b.payload)) b.header.seq b.header.gen] } } } := by
  obtain ⟨-, near⟩ := seqAhead_iff.mp ahead
  have place : an.place b.header.seq = (b.header.seq - st.nextExpected an).toNat := by
    rw [place_eq an st, empty, List.length_nil, Nat.zero_add, Nat.mod_eq_of_lt (by omega)]
  rw [takeBlock_of_current stream anchor gen, takeCurrent_of_beyond_empty near empty beyond, mapStream_of_some stream, gen]
  simp [RecvStream.addHeld, RecvStream.reAnchor, RecvStream.nextExpected, RecvStream.placeAt, empty, place]

/-- A block of another generation: the entry rebases, its REPAIR_ASK is withdrawn, and the block is the next expected one (R156). -/
theorem takeBlock_of_other_generation (stream : (v.recv.get p).stream = some st) (anchor : st.anchor = some an)
    (gen : b.header.gen ≠ an.gen) (fits : st.window.length ≤ st.cls.size) :
    takeBlock p b v = giveEvent (.rebased p an.gen b.header.gen b.header.seq) { v with
      recv := v.recv.set p { v.recv.get p with stream := some { st.rebasedTo an b with
        window := if st.window.length < st.cls.size then
            st.window ++ [st.placeAt v.clock.round (some (b.header.fill, b.payload)) b.header.seq b.header.gen]
          else st.window } }
      notices := (withdrawAsk p v).notices } := by
  have rebases := rebase_eq (b := b) (an := an) stream
  have entry : (rebase p b an st v).recv.get p = { v.recv.get p with stream := some (st.rebasedTo an b) } := by
    rw [rebases]
    exact PerPort.get_set_same _ _ _
  have expected : (b.header.seq - (st.rebasedTo an b).nextExpected (st.rebaseAnchor an b)).toNat = 0 := by
    simp [RecvStream.nextExpected, RecvStream.rebasedTo, RecvStream.rebaseAnchor]
  have sameLength : (st.rebasedTo an b).window.length = st.window.length := rfl
  have sameSize : (st.rebasedTo an b).cls.size = st.cls.size := rfl
  rw [takeBlock_of_foreign stream anchor gen]
  by_cases room : st.window.length < st.cls.size
  · rw [takeCurrent_of_inside (by omega) (by omega), mapStream_of_some (congrArg RecvEntry.stream entry), entry, takeAhead_eq, expected,
      rebases, if_pos room]
    simp only [giveEvent, PerPort.set_set]
    simp [RecvStream.expected, RecvStream.rebasedTo, RecvStream.rebaseAnchor, RecvStream.placeAt]
  · have nonempty : (st.rebasedTo an b).window ≠ [] := List.ne_nil_of_length_pos (st.cls.size_pos.trans_le (Nat.not_lt.mp room))
    rw [takeCurrent_of_beyond (by omega) (by omega) (by omega) nonempty, rebases, if_neg room]
    rfl

end

/-- What the pass leaves of an ACTIVE entry of the slot's tag, for a first-sent block of the slot (R143). -/
theorem exec_slotPass_takes {n : Fin 24} {a b : BlockReading} {order : List PassStep} {p : Port} {s : State} {x : Block} {st : RecvStream}
    (free : s.holding = false) (admissible : passAdmissible order = true) (due : s.due (n.val + 4) = true)
    (valid : ((atEvent (n.val + 4) s).mergedBlock true a b).copy = .valid x) (stream : (s.recv.get p).stream = some st)
    (use : useAt s.table.live n.val = .owned x.header.owner x.header.tag) (active : st.active = true) (tag : st.tag = x.header.tag)
    (first : x.header.resend = false) (index : x.header.index.toNat = n.val) :
    ∃ v t, exec (.slotPass n a b order) s = .next t ∧ (v.recv.get p).stream = some st ∧ v.clock.round = s.clock.round
      ∧ (∀ st', (takeBlock p x v).recv.get p = { v.recv.get p with stream := some st' } →
          t.recv.get p = { s.recv.get p with stream := some st' })
      ∧ ((takeBlock p x v).LossLatched → t.LossLatched) := by
  obtain ⟨t, run, serves⟩ := exec_slotPass_served (a := a) (b := b) free admissible due
  obtain ⟨v, served⟩ := serves p
  rw [valid] at served
  have takes := servePass_takes (served.stream stream) active tag (served.use.trans use)
    (BlockHeader.scheduleBearing_iff.mpr ⟨first, index⟩)
  exact ⟨v, t, run, served.stream stream, served.same.2.1, fun st' => served.takes stream active tag use first index, takes ▸ served.loss⟩

/-- Settles O40: the step that takes the block, case by case, and the pass as that step for the entry. -/
theorem slotPassReceivesOutOfOrder : Obligations.SlotPassReceivesOutOfOrder := by
  refine ⟨?_, ?_, ?_, fun n m v => rfl, fun n a b order s free admissible due => exec_slotPass_of_due free admissible due⟩
  · intro n a b order p s free admissible due m x valid st stream use active tag first index fits seq becomes place held
    obtain ⟨v, t, run, vstream, round, takes, loss⟩ :=
      exec_slotPass_takes free admissible due valid stream use active tag first index
    have becomes_of {st' : RecvStream} (result : (takeBlock p x v).recv.get p = { v.recv.get p with stream := some st' }) : becomes st' :=
      ⟨t, run, takes st' result⟩
    refine ⟨fun anchor empty => becomes_of ?_, fun an anchor => ?_⟩
    · rw [takeBlock_get_of_unanchored vstream anchor empty, round]
      rfl
    intro next k before j
    have stands (result : takeBlock p x v = v) : becomes st := becomes_of (by rw [result]; exact entry_of_same_stream vstream)
    have discards (gen : x.header.gen = an.gen) (behind : serialAhead seq next = true)
        (other : ∀ pl, st.window[j]? = some pl → pl.block ≠ none ∨ pl.gen ≠ an.gen) : becomes st :=
      becomes_of (by rw [takeBlock_of_current vstream anchor gen, takeCurrent_of_behind behind, mapStream_get _ vstream, fill_of_other other])
    refine ⟨fun gen ahead => ⟨fun inside => becomes_of ?_, fun beyond nonempty => stands ?_, fun beyond empty =>
        ⟨becomes_of ?_, t, run, loss ?_⟩⟩,
      fun gen behind => ⟨fun pl found => ⟨fun missing current => becomes_of ?_, fun other => discards gen behind ?_⟩,
        fun none => discards gen behind ?_⟩,
      fun gen room => becomes_of ?_, fun gen full => becomes_of ?_, fun gen opposite => stands ?_⟩
    · rw [takeBlock_of_current vstream anchor gen, takeCurrent_of_inside (seqAhead_iff.mp ahead).2 inside, mapStream_get _ vstream,
        takeAhead_eq, round, ← gen]
      rfl
    · rw [takeBlock_of_current vstream anchor gen, takeCurrent_of_beyond (seqAhead_iff.mp ahead).2 fits beyond nonempty]
    · rw [takeBlock_of_beyond_empty vstream anchor gen ahead empty beyond, giveEvent_recv, round]
      exact PerPort.get_set_same _ _ _
    · rw [takeBlock_of_beyond_empty vstream anchor gen ahead empty beyond]
      exact blocksLost_lossLatched _ _ _ _ _
    · rw [takeBlock_of_current vstream anchor gen, takeCurrent_of_behind behind, mapStream_get _ vstream,
        fill_of_missing found missing current]
      rfl
    · intro pl' found'
      rwa [Option.some.inj (found'.symm.trans found)]
    · intro pl found
      exact absurd (none.symm.trans found) nofun
    · rw [takeBlock_of_other_generation vstream anchor gen fits, if_pos room, giveEvent_recv, round]
      exact PerPort.get_set_same _ _ _
    · rw [takeBlock_of_other_generation vstream anchor gen fits, if_neg full.not_lt, giveEvent_recv]
      exact PerPort.get_set_same _ _ _
    · exact takeBlock_of_opposite vstream anchor gen opposite
  · intro p x s st an stream anchor seq next k held become mine
    refine ⟨fun gen opposite => takeBlock_of_opposite stream anchor gen opposite,
      fun gen ahead empty beyond => takeBlock_of_beyond_empty stream anchor gen ahead empty beyond, fun gen fits => ?_⟩
    rw [takeBlock_of_other_generation stream anchor gen fits, withdrawAsk_eq]
    rfl
  · intro n p x v st stream use active tag first index
    exact ⟨servePass_takes stream active tag use (BlockHeader.scheduleBearing_iff.mpr ⟨first, index⟩), takeResents_of_first_sent first v⟩

end Sys2Proof.Machine
end

section
/-! PROOF LAYER. The re-sent block wherever it comes (R147, R152), and repair window close (R64 to R66, R69). -/

namespace Sys2Proof.Machine

open Sys2Proof

/-! ### The re-sent block at a stream (R147) -/

/-- The block fills a place of the stream: it is re-sent, of the current generation, behind the next expected sequence, and its place is
MISSING of the current generation (R147). -/
def Block.Fills (x : Block) (st : RecvStream) (an : Anchor) (pl : Place) : Prop :=
  x.header.resend = true ∧ st.active = true ∧ st.tag = x.header.tag ∧ st.anchor = some an ∧ x.header.gen = an.gen
    ∧ serialAhead x.header.seq (st.nextExpected an) = true ∧ st.window[an.place x.header.seq]? = some pl ∧ pl.block = none
    ∧ pl.gen = an.gen

section
variable {x : Block} {st : RecvStream} {an : Anchor} {pl : Place}

theorem RecvStream.resent_of_fills (h : x.Fills st an pl) : st.resent x = { st with
    window := st.window.set (an.place x.header.seq) { pl with block := some (x.header.fill, x.payload) }
    gaps := leaveGap x.header.seq st.gaps } := by
  obtain ⟨resend, active, tag, anchor, gen, behind, found, missing, current⟩ := h
  rw [← fill_of_missing found missing current]
  simp [RecvStream.resent, anchor, active, tag, resend, gen, behind]

theorem RecvStream.resent_of_not_fills (h : ∀ an pl, ¬ x.Fills st an pl) : st.resent x = st := by
  unfold RecvStream.resent
  split
  · next an anchor =>
    split
    · next offered =>
      simp only [Bool.and_eq_true, beq_iff_eq] at offered
      obtain ⟨⟨⟨⟨active, tag⟩, resend⟩, gen⟩, behind⟩ := offered
      refine fill_of_other fun pl found => ?_
      by_contra! same
      exact h an pl ⟨resend, active, tag, anchor, gen, behind, found, same.1, same.2⟩
    · rfl
  · rfl

end

/-- The pass of a slot with a re-sent block: the slot's own effect, of a slot without a block, and then the offer (R143, R146, R147). -/
theorem State.ServedTo.resends {n : Nat} {p : Port} {s v t : State} {st : RecvStream} {x : Block}
    (h : s.ServedTo v t n (.valid x) p) (stream : (s.recv.get p).stream = some st) (resend : x.header.resend = true) :
    t.recv.get p = { s.recv.get p with stream := some (RecvStream.resent x
      (if st.active = true ∧ (useAt s.table.live n).hasTag st.tag = true then st.missed s.clock.round else st)) } := by
  split
  · next serves =>
    obtain ⟨active, tag⟩ := serves
    obtain ⟨o, use⟩ : ∃ o, useAt s.table.live n = .owned o st.tag := by
      cases use : useAt s.table.live n with
      | owned o g =>
        rw [use] at tag
        exact ⟨o, by rw [beq_iff_eq.mp tag]⟩
      | openSlot | unknown =>
        rw [use] at tag
        cases tag
    refine h.misses stream active use fun b hb scheduled => ?_
    obtain rfl := Copy.valid.inj hb
    exact absurd (BlockHeader.scheduleBearing_iff.mp scheduled.1).1 (by simp [resend])
  · next idle =>
    rw [← h.use] at idle
    refine h.becomes ?_
    rw [servePass_of_idle (h.stream stream) idle]
    exact entry_of_same_stream (h.stream stream)

/-! ### The header of the repair window (R64 to R66, R69) -/

section
variable {x : Block} {s v : State}

theorem takeHeader_of_not_ahead (h : ¬ v.Behind x.header) : takeHeader (.valid x) v = hear x.header.owner v := by
  unfold takeHeader testEpoch
  refine if_neg fun behind => h ?_
  simpa [State.Behind] using behind

theorem takeHeader_of_ahead (h : v.Behind x.header) :
    takeHeader (.valid x) v = enterResync .epochAhead x.header.epoch (hear x.header.owner v) := by
  unfold takeHeader testEpoch
  refine if_pos ?_
  simpa [State.Behind] using h

/-- The learned epoch after a header (R69). -/
theorem learnEpoch_eq (h : BlockHeader) (L : Learning) : learnEpoch h L = { L with epoch := match L.epoch with
    | none => some h.epoch
    | some e => if serialAhead e h.epoch then some h.epoch else some e } := by
  obtain ⟨table, epoch, rounds, carried⟩ := L
  cases epoch with
  | none => rfl
  | some e =>
    unfold learnEpoch
    dsimp only
    split <;> rfl

/-- What learning begun in RESYNC carries depends on the table, the entries, the queue and the station number alone (R66). -/
theorem enterResync_learning_congr (cause : ModeCause) (epoch : Epoch) (live : v.table.live = s.table.live) (send : v.send = s.send)
    (queue : v.notices.queue = s.notices.queue) (option : v.ctrl.option = s.ctrl.option) :
    (enterResync cause epoch v).table.learning = (enterResync cause epoch s).table.learning := by
  simp [enterResync, beginLearning, resyncRuns, pendingRuns, State.keepsTag, State.station, State.tagOf, live, send, queue, option]

/-- Entry into RESYNC gives the change of mode, and no other event (R66, R162). -/
theorem enterResync_mgmt (cause : ModeCause) (epoch : Epoch) (round : v.clock.round = s.clock.round) (mgmt : v.mgmt = s.mgmt) :
    (enterResync cause epoch v).mgmt = (giveEvent (.modeChanged v.ctrl.mode .resync cause) s).mgmt := by
  change (changeMode .resync cause v).mgmt = _
  unfold changeMode
  exact giveEvent_mgmt_congr _ (by simpa using round) (by simpa using mgmt)

/-- An epoch is not ahead of itself. -/
theorem learnEpoch_self {h : BlockHeader} {L : Learning} (same : L.epoch = some h.epoch) : learnEpoch h L = L := by
  simp [learnEpoch, same, serialAhead]

end

/-- Repair window close at its moment (R3). -/
theorem exec_repairWindowClose_of_due {a b : BlockReading} {s : State} (free : s.holding = false) (due : s.due 3 = true) :
    exec (.repairWindowClose a b) s = .next (closeRepair a b (atEvent 3 s)) := running_fieldEvent_of_due _ free due

/-- The station at repair window close, with the field's flaws counted and its levels told. -/
def repairRead (a b : BlockReading) (s : State) : State :=
  tellLevels (a.levelShown 1400) (b.levelShown 1400) (countHeader .b b (countHeader .a a s))

/-- The station once the header of the repair window is heard, tested and learned from. -/
def repairHeard (a b : BlockReading) (m : Copy Block) (s : State) : State := learnHeader m (takeHeader m (repairRead a b s))

section
variable {a b : BlockReading} {m : Copy Block} {s : State} {x : Block}

theorem closeRepair_eq (merged : (s.mergedBlock false a b).copy = m) :
    closeRepair a b s = beginField Config.repairCloseAt (takeResents m (repairHeard a b m s)) := by
  rw [← merged]
  rfl

@[simp] theorem repairRead_frame (a b : BlockReading) (s : State) :
    (repairRead a b s).table = s.table ∧ (repairRead a b s).repair = s.repair ∧ (repairRead a b s).recv = s.recv
      ∧ (repairRead a b s).ctrl = s.ctrl ∧ (repairRead a b s).mgmt = s.mgmt ∧ (repairRead a b s).send = s.send
      ∧ (repairRead a b s).notices = s.notices ∧ (repairRead a b s).clock = s.clock := by
  simp [repairRead]

@[simp] theorem repairHeard_frame (a b : BlockReading) (m : Copy Block) (s : State) :
    (repairHeard a b m s).recv = s.recv ∧ (repairHeard a b m s).notices = s.notices := by
  simp [repairHeard]

theorem closeRepair_notices (a b : BlockReading) (s : State) : (closeRepair a b s).notices = s.notices := by
  simp [closeRepair_eq rfl]

theorem repairHeard_of_not_valid (h : m.isValid = false) : repairHeard a b m s = repairRead a b s := by
  cases m with
  | valid x => cases h
  | erased | idle => rfl

theorem repairHeard_of_not_ahead (h : ¬ s.Behind x.header) : repairHeard a b (.valid x) s =
    learnHeader (.valid x) (hear x.header.owner (repairRead a b s)) := by
  rw [repairHeard, takeHeader_of_not_ahead (by simpa [State.Behind] using h)]

theorem repairHeard_of_ahead (h : s.Behind x.header) : repairHeard a b (.valid x) s =
    learnHeader (.valid x) (enterResync .epochAhead x.header.epoch (hear x.header.owner (repairRead a b s))) := by
  rw [repairHeard, takeHeader_of_ahead (by simpa [State.Behind] using h)]

end

/-- Settles O32: the header of the repair window and the offers of its block, and the offers that follow a slot's own effect. -/
theorem resentBlocksFillPlaces : Obligations.ResentBlocksFillPlaces := by
  intro a b s free fills takes
  have resends (x : Block) (st : RecvStream) : takes x st (st.resent x) :=
    ⟨fun an pl h => RecvStream.resent_of_fills h, fun h => RecvStream.resent_of_not_fills h⟩
  refine ⟨fun due => ?_, fun n order admissible due => ?_⟩
  · intro u m
    let t := closeRepair a b u
    have eq : t = beginField Config.repairCloseAt (takeResents m (repairHeard a b m u)) := closeRepair_eq rfl
    refine ⟨t, exec_repairWindowClose_of_due free due, by simp [t], closeRepair_notices a b u, by simp [t, u], by simp [t, u], by simp [t, u],
      by simp [t, u], by simp [t, u], by simp [t, u], fun invalid => ?_, fun x valid => ?_⟩
    · rw [eq, repairHeard_of_not_valid invalid]
      have offers : takeResents m (repairRead a b u) = repairRead a b u := by
        cases h : m with
        | valid x =>
          rw [h] at invalid
          cases invalid
        | erased | idle => rfl
      rw [offers]
      simp [u]
    intro newer ahead
    have behind_iff : u.Behind x.header ↔ ahead := by simp [State.Behind, u, ahead]
    rw [valid] at eq
    clear_value t
    subst eq
    refine ⟨?_, fun p => ⟨fun none => ?_, fun st stream => ⟨st.resent x, ?_, resends x st⟩⟩, fun still => ?_, fun behind => ?_⟩
    · simp [repairHeard, takeHeader_heard, heardAfter, u]
    · rw [beginField_recv, takeResents_get_of_none _ (by simpa [u] using none)]
      simp [u]
    · rw [beginField_recv, takeResents_get]
      simp [stream, u, RecvStream.offered]
    · rw [repairHeard_of_not_ahead (mt behind_iff.mp still)]
      have learns : learnEpoch x.header = fun L => { L with epoch := newer L } := funext fun L => by
        refine (learnEpoch_eq x.header L).trans (congrArg (fun e => { L with epoch := e }) ?_)
        unfold newer
        cases L.epoch <;> rfl
      simp [learnHeader, hear, u, learns]
    · rw [repairHeard_of_ahead (behind_iff.mpr behind)]
      let w := enterResync .epochAhead x.header.epoch (hear x.header.owner (repairRead a b u))
      have learning : w.table.learning = (enterResync .epochAhead x.header.epoch s).table.learning :=
        enterResync_learning_congr _ _ (by simp [u]) (by simp [u]) (by simp [u]) (by simp [u])
      have learned : (learnHeader (.valid x) w).table.learning = w.table.learning := by
        obtain ⟨L, inProgress, epoch, -⟩ := enterResync_learns .epochAhead x.header.epoch (hear x.header.owner (repairRead a b u))
        have known : w.table.learning = some L := inProgress
        simp [learnHeader, known, learnEpoch_self epoch]
      have turn : w.repair.turn = false := dropTurn_turn _
      have mgmt : w.mgmt = (giveEvent (.modeChanged .joined .resync .epochAhead) s).mgmt := by
        have joined : (hear x.header.owner (repairRead a b u)).ctrl.mode = .joined := by simpa [u] using behind.1
        have gives := enterResync_mgmt (v := hear x.header.owner (repairRead a b u)) (s := s) .epochAhead x.header.epoch (by simp [u])
          (by simp [u])
        rwa [joined] at gives
      refine ⟨?_, ?_, ?_, ?_⟩
      · simp [enterResync_ctrl]
      · simpa using turn
      · simpa using learned.trans learning
      · simpa using mgmt
  · intro u x valid resend
    obtain ⟨t, run, serves⟩ := exec_slotPass_served (a := a) (b := b) free admissible due
    rw [show ((atEvent (n.val + 4) s).mergedBlock true a b).copy = .valid x from valid] at serves
    refine ⟨t, run, fun p => ?_⟩
    obtain ⟨v, served⟩ := serves p
    refine ⟨fun none => served.stands none, fun st stream => ?_⟩
    intro isServed marked
    have effect : marked =
        if st.active = true ∧ (useAt s.table.live n.val).hasTag st.tag = true then st.missed s.clock.round else st := by
      by_cases serves : st.active = true ∧ (useAt s.table.live n.val).hasTag st.tag = true
      · rw [if_pos serves]
        obtain ⟨active, tag⟩ := serves
        cases anchor : st.anchor with
        | none => simp [marked, anchor, RecvStream.missed_of_unanchored anchor]
        | some an =>
          by_cases room : st.window.length < st.cls.size
          · simp [marked, isServed, anchor, active, tag, room, RecvStream.missed_of_room anchor room, RecvStream.addMissing,
              RecvStream.nextExpected]
          · simp [marked, isServed, anchor, room, RecvStream.missed_of_full anchor (Nat.not_lt.mp room)]
      · rw [if_neg serves]
        have notServed : isServed = false := by
          rw [← Bool.and_eq_true, Bool.not_eq_true] at serves
          simp only [isServed, serves, Bool.false_and]
        cases anchor : st.anchor <;> simp [marked, anchor, notServed]
    refine ⟨marked.resent x, ?_, resends x marked⟩
    rw [served.resends stream resend, effect]

end Sys2Proof.Machine
end
